-- ==== Sys2Proof/Word.lean ====
section
/-! DEFINITION. Words, and the sparse table that holds every indexed group of registers and records:
a list of (key, value) pairs in rising key order in which a key that is not listed holds the table's default. -/

namespace Sys2Proof

abbrev Byte := BitVec 8
abbrev W16 := BitVec 16
abbrev W32 := BitVec 32
abbrev W64 := BitVec 64

/-- The value listed for key `k`, if any. -/
def look {α : Type} : List (Nat × α) → Nat → Option α
  | [], _ => none
  | (a, x) :: r, k => if k = a then some x else look r k

/-- `l` with key `k` listed as `v`, in rising key order. -/
def addKey {α : Type} : List (Nat × α) → Nat → α → List (Nat × α)
  | [], k, v => [(k, v)]
  | (a, x) :: r, k, v =>
    if k < a then (k, v) :: (a, x) :: r
    else if k = a then (k, v) :: r
    else (a, x) :: addKey r k v

/-- `l` with no entry for key `k`. -/
def delKey {α : Type} : List (Nat × α) → Nat → List (Nat × α)
  | [], _ => []
  | (a, x) :: r, k => if k = a then delKey r k else (a, x) :: delKey r k

/-- The keys of `l` rise strictly. -/
def rising {α : Type} : List (Nat × α) → Bool
  | [] => true
  | [_] => true
  | (a, _) :: (b, y) :: r => decide (a < b) && rising ((b, y) :: r)

/-- A sparse table. -/
structure Tbl (α : Type) where
  entries : List (Nat × α) := []
deriving DecidableEq, Repr

/-- The value at key `k`; `d` where `k` is not listed. -/
def Tbl.get {α : Type} (t : Tbl α) (d : α) (k : Nat) : α := (look t.entries k).getD d

/-- `t` with `v` at key `k`; a value equal to the default `d` is not listed. -/
def Tbl.put {α : Type} [DecidableEq α] (t : Tbl α) (d : α) (k : Nat) (v : α) : Tbl α :=
  if v = d then ⟨delKey t.entries k⟩ else ⟨addKey t.entries k v⟩

/-- The table that lists nothing. -/
def Tbl.empty {α : Type} : Tbl α := ⟨[]⟩

end Sys2Proof
end

