-- ==== Sys2Proof/Syntax.lean ====
section
/-! DEFINITION. The commands of the block: one constructor per row of spec/opcode_table.json, with the row's operands.
What the outside world supplies with an event (a sensor reading, a flit, a submission entry) is an operand. -/

namespace Sys2Proof

abbrev CoreId := Fin 32
abbrev PunId := Fin 64
abbrev Fn := Fin 128
abbrev Qid := Fin 64
abbrev PortId := Fin 16
abbrev PartId := Fin 8

/-- The straps of R40, as sampled in STRAP. -/
structure Straps where
  fspd : BitVec 2
  pcieRate : Bool
  smbAddr : BitVec 2
deriving DecidableEq, Repr

/-- Why FATAL_N asserts (R391). -/
inductive FatalCause | junction | refclk
deriving DecidableEq, Repr

/-- A Charter slot or copy (R27). -/
inductive Slot | a | b
deriving DecidableEq, Repr

/-- Flash read modes in the order of R29. -/
inductive FlashMode | m111 | m114 | m144 | m118 | m188
deriving DecidableEq, Repr

/-- What SFDP discovery found (R29): the advertised modes, whether the quad-enable requirement is met, the density. -/
structure Sfdp where
  modes : List FlashMode
  quadOk : Bool
  densityMib : Nat
deriving DecidableEq, Repr

/-- The reservoir converter's answers in PLANT_ARM (R85), in 10 mV. -/
structure ConvAnswer where
  vFull : W16
  vEmpty : W16
deriving DecidableEq, Repr

/-- One core's estimator inputs for a tick (R35 ESTIMATOR, R59, R316): the voltage point and the temperature bin, and
the counts of its event classes, as (class, count), by what they belong to: MX, TX, TE and the rest of the core. -/
structure CoreEst where
  volt : Fin 16
  temp : Fin 8
  mx : List (Fin 64 × Nat)
  tx : List (Fin 64 × Nat)
  te : List (Fin 64 × Nat)
  idle : List (Fin 64 × Nat)
deriving DecidableEq, Repr

/-- What a governor tick measures: feed ADC codes (R81), the inputs of the 32 core estimators, and the uncore
estimator in 1/65,536 LU (R59). -/
structure TickIn where
  feedV : BitVec 14
  feedI : BitVec 14
  est : List CoreEst
  uncore : Nat
deriving DecidableEq, Repr

/-- Where the two governors differ (R73, R74): an output channel or a state field. -/
inductive DivAt
  | channel (n : Fin 32)
  | field (n : Fin 64)
deriving DecidableEq, Repr

/-- One difference in a tick, with the values of A and of B. -/
structure Diff where
  at_ : DivAt
  a : Nat
  b : Nat
deriving DecidableEq, Repr

/-- A governor. -/
inductive Gv | a | b
deriving DecidableEq, Repr

/-- A triplicated field (R78, R103, R286, R375). -/
inductive TrvField
  | skew | feedCap | dischargeMax | rechargeMax | clampTarget | socFloor | pumpMin
  | bunch (b : Fin 8)
  | qslot (s : Fin 64)
deriving DecidableEq, Repr

/-- A parity mismatch found on a protected register (R353): its canonical address, the value it holds, and which of
the repair sources decode. -/
structure ParityHit where
  addr : Nat
  held : W32
  sh1 : Bool
  sh2 : Bool
  wc : Bool
deriving DecidableEq, Repr

/-- A plant loss (R102). -/
inductive Loss
  | feedAdc | resAdc | conv | pumpTach | flow | inletAll | outletAll
  | temp (n : Fin 8)
  | pmbus (n : Fin 8)
  | avsbus (n : Fin 8)
  | junction (c : CoreId)
deriving DecidableEq, Repr

/-- A clause engine: MX or TX (R16). -/
inductive CE | mx | tx
deriving DecidableEq, Repr

/-- An engine of a core (R6). -/
inductive Eng | mx | tx | te
deriving DecidableEq, Repr

/-- The result of an ECC check (R231). -/
inductive Ecc | clean | correctable | uncorrectable
deriving DecidableEq, Repr

/-- What an ECC check is of (R231): the granule of a physical address; an accumulator element, 256 x row + column of a
bank of a core's MX; an element of a punnet slot's vector register, 32 x register + lane. -/
inductive EccSite
  | mem (pa : Nat)
  | bank (c : CoreId) (b : Fin 2) (i : Fin 65536)
  | vreg (c : CoreId) (p : PunId) (i : Fin 8192)
deriving DecidableEq, Repr

/-- How a host read fails (R233). -/
inductive HostErr | ur | ca | poisoned | timeout
deriving DecidableEq, Repr

/-- Which host read failed (R233): a TE request of a core; a TX transfer of a core; a command fetch of a queue; a
descriptor that the next clause of an engine needs, or the next gleaning pass of a core; what a core restores from a save
area; what a context loads as it becomes resident. -/
inductive HostRead
  | te (c : CoreId) (n : Nat)
  | tx (c : CoreId) (n : Nat)
  | fetch (f : Fn) (q : Qid)
  | noun (c : CoreId) (e : CE)
  | glean (c : CoreId)
  | stream (c : CoreId) (e : Eng)
  | ctx (x : BitVec 12)
deriving DecidableEq, Repr

/-- A CONTROL flit on its way in: the link header of R322, and whether its CRC and its codewords are right (R323). The
spec gives no layout to the body of a CONTROL flit, so the CRC's outcome is part of the command. -/
structure CtlWire where
  hdr : BitVec 64
  crcOk : Bool
  fecOk : Bool
deriving DecidableEq, Repr

/-- A CONTROL flit that comes in at a port. -/
structure CtlFlit where
  port : PortId
  wire : CtlWire
deriving DecidableEq, Repr

/-- A write of fence = 0 for a port: `far` says that it is the other end's steward's (R339). -/
structure UnfenceAt where
  port : PortId
  far : Bool
deriving DecidableEq, Repr

/-- What a telemetry window brings: each regulator's energy (R60), and the conversion of the feed ADC's reference (R81). -/
structure TelWindow where
  regs : List (Option Nat)
  ref : BitVec 14
deriving DecidableEq, Repr

/-- The contents of an IDENT control flit (R338). -/
structure IdentInfo where
  dims : Nat
  sx : Nat
  sy : Nat
  sz : Nat
  chip : BitVec 10
  port : BitVec 4
deriving DecidableEq, Repr

/-- One lane's receiver report over 1 ms (R341). -/
structure LaneInfo where
  snr : Byte
  locked : Bool
  adapting : Bool
  corrected : Nat
deriving DecidableEq, Repr

/-- The commands. -/
inductive Instr
  /-- PWRGOOD_RISE (R386). PWRGOOD rises; this is the power-on reset cause, and the device drives the pump high and the valve low until PLANT_ARM. -/
  | pwrgoodRise (st : Straps)
  /-- PWRGOOD_FALL (R387). PWRGOOD falls; within 1 µs the device stops every clock, releases its outputs and is OFF. -/
  | pwrgoodFall
  /-- PERST_ASSERT (R49). PERST# assertion causes a chip reset, drops the PCIe link and restarts at STRAP. -/
  | perstAssert
  /-- PERST_DEASSERT (R386). PERST# deassertion starts STRAP at the later of PWRGOOD rising and this edge. -/
  | perstDeassert (st : Straps)
  /-- FATAL_N (R391). A junction at 125 °C or REFCLK100 silent for 100 ns asserts FATAL_N, stops clocks and frames, and forces pump 100 % and bypass closed until PWRGOOD falls. -/
  | fatalN (cause : FatalCause)
  /-- LREF_LOSS (R395). The link reference stops and every UP Garka port goes DOWN while the chip keeps running. -/
  | lrefLoss
  /-- STRAP_COMPLETE (R44). Fuse sense and PLL lock end STRAP and CHARTER_LOAD begins. -/
  | strapComplete
  /-- SFDP_DISCOVERY_DONE (R29). SFDP discovery at 25 MHz ends and the loader selects the flash read mode. -/
  | sfdpDiscoveryDone (sf : Option Sfdp)
  /-- COPY_READ_DONE (R38). A Charter copy has been read and hashed after its header passed steps 1 and 2. -/
  | copyReadDone (k : Slot)
  /-- SIGNATURE_CHECK_DONE (R37). The key-hash and ECDSA checks of the copies end. -/
  | signatureCheckDone
  /-- CHARTER_LOAD_DONE (R39). The record walk, validation, copy selection, register load and shadow write end CHARTER_LOAD. -/
  | charterLoadDone
  /-- CHARTER_LOAD_TIMEOUT (R46). Steps 2–5 exceed 500 ms; the load is abandoned and the device proceeds to LIMP. -/
  | charterLoadTimeout
  /-- SRAM_CLEAR_DONE (R44). The SRAM clear and ECC initialisation of SELFTEST completes. -/
  | sramClearDone
  /-- HBM_TRAINING_DONE (R47). HBM3E training of all stacks ends and PLANT_ARM begins. -/
  | hbmTrainingDone (trained : BitVec 8)
  /-- PUMP_TACH_WINDOW_EXPIRY (R48). The 30 ms PLANT_ARM window closes without pump rotation, raising SENSOR_LOST with pump_tach. -/
  | pumpTachWindowExpiry
  /-- PLANT_ARM_DONE (R48). PLANT_ARM ends and the device enters READY, or enters LIMP when a loss occurred; CRS ends. -/
  | plantArmDone (conv : Option ConvAnswer) (vCode : BitVec 12)
  /-- CONFIG_RETRY (R42). A configuration request before READY or LIMP completes with CRS. -/
  | configRetry
  /-- FLASH_ADDR (R52). The sideband command sets the flash bridge address. -/
  | flashAddr (pec : Bool) (addr : W32)
  /-- FLASH_WRITE (R54). The sideband command page-programs 1–32 bytes at the bridge address unless the slot is refused. -/
  | flashWrite (pec : Bool) (bytes : List Byte)
  /-- FLASH_READ (R52). The sideband command reads 32 bytes at the bridge address and advances it. -/
  | flashRead (pec : Bool)
  /-- FLASH_ERASE_4K (R54). The sideband command erases the 4 KiB sector at the bridge address unless refused. -/
  | flashErase4k (pec : Bool)
  /-- FLASH_ERASE_64K (R54). The sideband command erases the 64 KiB block at the bridge address unless refused. -/
  | flashErase64k (pec : Bool)
  /-- FLASH_STATUS (R52). The sideband command returns busy, last_error, refused, load_active and unlocked. -/
  | flashStatus (pec : Bool)
  /-- FLASH_UNLOCK (R54). The sideband command lifts the loaded-slot refusal until the next reset when the other slot's copy is valid. -/
  | flashUnlock (pec : Bool) (v : Byte)
  /-- CHIP_RESET (R55). The sideband command with 0xA5 requests a chip reset, and no further commands complete. -/
  | chipReset (pec : Bool) (v : Byte)
  /-- DEVICE_STATE (R52). The sideband command returns the device state. -/
  | deviceState (pec : Bool)
  /-- SIDEBAND_UNKNOWN_COMMAND (R52). An unlisted command code is NACKed at its command byte with no effect. -/
  | sidebandUnknownCommand (code : Byte)
  /-- FLASH_OPERATION_DONE (R52). A flash program or erase started by the bridge finishes and busy clears. -/
  | flashOperationDone (ok : Bool)
  /-- RESET_TAKEN (R55). Within 1 ms of a CHIP_RESET request the chip resets, drops the link and restarts at STRAP. -/
  | resetTaken
  /-- GOVERNOR_TICK (R59). Each 1 µs tick advances both ledgers, runs the feed loop and charges the partitions. -/
  | governorTick (i : TickIn)
  /-- EPOCH_END (R64). The work ledger advance reaches 65,536 LU, GOV_EPOCH increments and a new epoch begins. -/
  | epochEnd
  /-- CARRY_ROLLOVER (R67). In the tick after an epoch ends, carries are set within their limits and spent is zeroed. -/
  | carryRollover
  /-- LEDGER_WRAP (R63). A ledger passes 2^48 − 1, wraps to zero and sets ledger_wrap. -/
  | ledgerWrap
  /-- TELEMETRY_WINDOW_END (R60). At each 1 ms window end, PMBus telemetry is compared with the ledger and the residual and trim are updated. -/
  | telemetryWindowEnd (tel : TelWindow)
  /-- COMPARATOR_DIVERGENCE (R73). A mismatch on an enabled channel or masked state field is counted, the restrictive value is driven and a resync starts. -/
  | comparatorDivergence (at_ : List DivAt) (a b : List Nat)
  /-- LATENT_DIVERGENCE (R74). A mismatch confined to disabled channels or unmasked fields is counted, and the 16th in an epoch starts a resync. -/
  | latentDivergence (ds : List DivAt)
  /-- RESYNC_HALF_FRAME (R75). At the next half-frame boundary, B is halted and A's state copy into B begins. -/
  | resyncHalfFrame
  /-- RESYNC_COPY_DONE (R75). The state copy ends and B restarts skew cycles behind A at the next tick boundary. -/
  | resyncCopyDone
  /-- RESYNC_COMPLETE (R75). The first full comparison is made and resync_active clears. -/
  | resyncComplete
  /-- HEARTBEAT_INJECT (R76). At frame offset 250 µs (A) or 750 µs (B), a governor inverts channel 31 for one tick. -/
  | heartbeatInject (g : Gv)
  /-- HEARTBEAT_FLAGGED (R76). The comparator flags the injected mismatch, setting the ok bit and counting a beat. -/
  | heartbeatFlagged (g : Gv)
  /-- HEARTBEAT_DEADLINE (R76). An injection is not flagged within 2 ticks; the ok bit clears and COMPARATOR_LOST is raised. -/
  | heartbeatDeadline (g : Gv)
  /-- TRV_UPSET (R354). The voting of a TRV field finds its copies disagreeing. -/
  | trvUpset (fld : TrvField) (c0 c1 c2 : Nat)
  /-- PARITY_SCAN (R353). The background scan visits every parity-protected register once per 100 µs. -/
  | parityScan (hits : List ParityHit)
  /-- PARITY_REPAIR (R57). Within 2 µs, the register is reloaded from the shadow or its write copy, or keeps its value when both shadow copies are lost. -/
  | parityRepair (addr : Nat)
  /-- GOV_SNAP_REQUEST (R79). Writing request clears valid and schedules a capture at the next tick boundary. -/
  | govSnapRequest
  /-- GOV_SNAP_CAPTURE (R79). At a tick boundary, chip time, ledgers, epoch and partition values are captured and valid is set. -/
  | govSnapCapture
  /-- CLAMP_RELEASE (R98). PLT_EXCESS is zero and 200 consecutive samples are at or below target, so the clamp releases. -/
  | clampRelease
  /-- CLAMP_K_STEP (R98). After release, k rises by 1 every 10 µs until it reaches 16. -/
  | clampKStep
  /-- RESERVOIR_LOOP (R90). The 10 ms reservoir loop sets the recharge request from SoC. -/
  | reservoirLoop
  /-- RECONCILE_DUE (R101). A full-charge event or 10 min since the last reconciliation makes a reconciliation due. -/
  | reconcileDue
  /-- RECONCILE_SKIP (R101). A due reconciliation that could not run within 60 s is skipped and counted. -/
  | reconcileSkip
  /-- PUMP_LOOP (R90). The 100 ms pump loop sets the pump duty from the outlet temperature. -/
  | pumpLoop (rpm : W16)
  /-- VALVE_LOOP (R90). The 100 ms valve loop sets the bypass from the inlet temperature. -/
  | valveLoop
  /-- VOLTAGE_LOOP (R89). Every 10 µs, an AVSBus Vout trim is written to each named regulator. -/
  | voltageLoop (n : Fin 8) (slack : Int) (ack : Bool)
  /-- SENSOR_POLL (R87). Every 10 ms, each I3C temperature sensor is read. -/
  | sensorPoll (rd : List (Option Int))
  /-- DROOP_STRETCH (R93). Slack below 2 codes stretches that core's clock within 2 cycles. -/
  | droopStretch (c : CoreId)
  /-- DROOP_RELEASE (R93). Slack at or above 4 codes for 64 cycles ends the stretch. -/
  | droopRelease (c : CoreId)
  /-- JUNCTION_READ (R94). Every 10 µs, each core junction is read against the throttle threshold, with an immediate drop to 400 MHz at 110 °C. -/
  | junctionRead (rd : List (Option Int))
  /-- JUNCTION_CEILING_STEP (R94). The per-core ceiling falls 100 MHz per 100 µs while hot, or rises 100 MHz per 1 ms when cool. -/
  | junctionCeilingStep (c : CoreId)
  /-- INLET_OVER (R95). Inlet above rating for 10 s sets inlet_over and lowers the clock ceiling. -/
  | inletOver
  /-- INLET_OVER_CLEAR (R95). Inlet at or below rating for 10 s clears inlet_over. -/
  | inletOverClear
  /-- SENSOR_LOST (R102). A plant sensor or actuator loss is detected, raised, counted, and its fallback applied. -/
  | sensorLost (l : Loss)
  /-- FLOW_GATE (R102). Each 1 s flow gate measures flow and counts good or bad gates. -/
  | flowGate (pulses : Nat)
  /-- LOSS_RESPONSE_END (R102). A loss response ends after its source has been valid for the required time. -/
  | lossResponseEnd (l : Loss)
  /-- CLAUSE_FETCH (R116). A clause and its nouns are fetched and resolved between clauses. -/
  | clauseFetch (c : CoreId) (e : CE)
  /-- CLAUSE_ISSUE (R113). One execution of a clause issues its present slots at its scheduled cycle. -/
  | clauseIssue (c : CoreId) (e : CE)
  /-- RESULT_LAND (R121). A result lands in its resource at the fixed cycle after issue. -/
  | resultLand (c : CoreId) (e : CE)
  /-- TRANSFER_COMPLETE (R111). A TX transfer completes and signals its conjunction when sig = 1. -/
  | transferComplete (c : CoreId) (n : Nat)
  /-- STREAM_END (R105). After the end clause, once results, signals and transfers are done, stream end is reported. -/
  | streamEnd (c : CoreId) (e : CE)
  /-- JMP (R110). The CTRL slot branches to offset. -/
  | jmp (c : CoreId) (e : CE)
  /-- BRZ (R110). The CTRL slot branches if s is zero. -/
  | brz (c : CoreId) (e : CE)
  /-- BRNZ (R110). The CTRL slot branches if s is nonzero. -/
  | brnz (c : CoreId) (e : CE)
  /-- LOOP (R110). The CTRL slot decrements lc and branches if it is nonzero. -/
  | loop (c : CoreId) (e : CE)
  /-- SETLC (R110). The CTRL slot sets a loop counter to imm16. -/
  | setlc (c : CoreId) (e : CE)
  /-- SIG (R115). The SYNC slot adds imm32 to a conjunction with chip-scope release. -/
  | sig (c : CoreId) (e : CE)
  /-- WAIT (R114). The SYNC slot holds the clause until the conjunction reaches imm32. -/
  | wait (c : CoreId) (e : CE)
  /-- BW_ARRIVE (R266). The SYNC slot raises this core's line on a barrier wire. -/
  | bwArrive (c : CoreId) (e : CE)
  /-- BW_WAIT (R267). The SYNC slot holds until the barrier wire completes. -/
  | bwWait (c : CoreId) (e : CE)
  /-- GB_ARRIVE (R269). The SYNC slot arrives at a group barrier with a core mask. -/
  | gbArrive (c : CoreId) (e : CE)
  /-- GB_WAIT (R267). The SYNC slot holds until the group barrier completes. -/
  | gbWait (c : CoreId) (e : CE)
  /-- GB_TRACKER_FREED (R271). A freed tracker of the partition lets a held group arrival proceed. -/
  | gbTrackerFreed (p : PartId)
  /-- AG_LIN (R118). The AGU slot sets a generator to linear mode at s + imm32. -/
  | agLin (c : CoreId) (e : CE)
  /-- AG_NOUN (R118). The AGU slot sets a generator to linear mode at the noun base + imm32. -/
  | agNoun (c : CoreId) (e : CE)
  /-- AG_IDX (R119). The AGU slot sets a generator to index mode. -/
  | agIdx (c : CoreId) (e : CE)
  /-- AG_STEP0 (R118). The AGU slot sets step0 and count0. -/
  | agStep0 (c : CoreId) (e : CE)
  /-- AG_STEP1 (R118). The AGU slot sets step1. -/
  | agStep1 (c : CoreId) (e : CE)
  /-- AG_ADD (R110). The AGU slot adds to addr, or to pos in index mode. -/
  | agAdd (c : CoreId) (e : CE)
  /-- AG_RESET (R110). The AGU slot resets addr to start and clears the positions. -/
  | agReset (c : CoreId) (e : CE)
  /-- LD_A (R136). The MX slot loads rows into operand buffer A. -/
  | ldA (c : CoreId)
  /-- LD_B (R136). The MX slot loads rows into operand buffer B. -/
  | ldB (c : CoreId)
  /-- LD_ROW (R136). The MX slot loads held rows for row-reuse. -/
  | ldRow (c : CoreId)
  /-- MMA (R138). The MX slot computes a bank as A × B over k rows. -/
  | mma (c : CoreId)
  /-- MMA_ACC (R138). The MX slot accumulates A × B into a bank. -/
  | mmaAcc (c : CoreId)
  /-- SHIFT (R141). The MX slot shifts the held rows by one position. -/
  | shift (c : CoreId)
  /-- ZERO (R110). The MX slot zeroes a bank. -/
  | zero (c : CoreId)
  /-- DRAIN (R146). The MX slot writes bank rows to local store, converted to the noun's format. -/
  | drain (c : CoreId)
  /-- DRAIN_Z (R146). The MX slot drains a bank and then zeroes it. -/
  | drainZ (c : CoreId)
  /-- COPY (R242). The TX transfer copies bits at the same coordinates. -/
  | copy (c : CoreId)
  /-- RESHAPE (R242). The TX transfer copies elements in linear order to a new shape. -/
  | reshape (c : CoreId)
  /-- CONVERT (R242). The TX transfer converts elements at the same coordinates, applying s_dst. -/
  | convert (c : CoreId)
  /-- GATHER (R242). The TX transfer copies an indexed source row to the destination line. -/
  | gather (c : CoreId)
  /-- SCATTER (R242). The TX transfer copies the source line to an indexed destination row. -/
  | scatter (c : CoreId)
  /-- EMBED_POOL (R248). Over the clause's executions, resolved embedding rows are pooled and written once. -/
  | embedPool (c : CoreId)
  /-- EMBED_GATHER (R247). The TX transfer writes a resolved embedding row, converted, to the destination line. -/
  | embedGather (c : CoreId)
  /-- LINK_PUT (R324). The TX transfer sends a local noun as a PUT message over Garka. -/
  | linkPut (c : CoreId)
  /-- LINK_GET (R324). The TX transfer sends a GET request for remote data. -/
  | linkGet (c : CoreId)
  /-- ADD (R110). The scalar slot sets d to a + (b + imm32). -/
  | add (c : CoreId) (e : CE)
  /-- SUB (R110). The scalar slot subtracts. -/
  | sub (c : CoreId) (e : CE)
  /-- AND (R110). The scalar slot computes a bitwise AND. -/
  | and (c : CoreId) (e : CE)
  /-- OR (R110). The scalar slot computes a bitwise OR. -/
  | or (c : CoreId) (e : CE)
  /-- XOR (R110). The scalar slot computes a bitwise XOR. -/
  | xor (c : CoreId) (e : CE)
  /-- SHL (R110). The scalar slot shifts left. -/
  | shl (c : CoreId) (e : CE)
  /-- SHR (R110). The scalar slot shifts right. -/
  | shr (c : CoreId) (e : CE)
  /-- MUL (R110). The scalar slot writes the low 64 bits of a × b. -/
  | mul (c : CoreId) (e : CE)
  /-- MOVI (R110). The scalar slot sets d to imm32. -/
  | movi (c : CoreId) (e : CE)
  /-- MOVHI (R110). The scalar slot sets d[63:32] to imm32. -/
  | movhi (c : CoreId) (e : CE)
  /-- LDS (R110). The scalar slot loads 64 bits from local store. -/
  | lds (c : CoreId) (e : CE)
  /-- STS (R110). The scalar slot stores 64 bits to local store. -/
  | sts (c : CoreId) (e : CE)
  /-- RDAG (R110). The scalar slot reads a generator's address. -/
  | rdag (c : CoreId) (e : CE)
  /-- RDTIME (R110). The scalar slot reads chip time. -/
  | rdtime (c : CoreId) (e : CE)
  /-- HAZARD_RESUME (R131). Writing resume issues a parked engine's offending clause unchecked. -/
  | hazardResume (c : CoreId) (e : CE)
  /-- HAZARD_KILL (R131). Writing kill ends the parked context on that engine. -/
  | hazardKill (c : CoreId) (e : CE)
  /-- STOP_POINT_REACHED (R124). A preempted stream reaches a stop point, lets results land and saves its state. -/
  | stopPointReached (c : CoreId) (e : CE)
  /-- STOP_TIMEOUT (R128). No stop point is reached within 16,384 cycles of the request, so the context ends on that engine. -/
  | stopTimeout (c : CoreId) (e : CE)
  /-- PREEMPT_COPY_DONE (R313). An engine's state has been copied into the preemption buffer and the engine is free. -/
  | preemptCopyDone (c : CoreId) (e : Eng)
  /-- BUFFER_WRITE_OUT_DONE (R313). Buffered state has been written to the context's save area. -/
  | bufferWriteOutDone (c : CoreId)
  /-- STREAM_RESTORE (R312). An engine restores and resumes a saved stream of the slice holder. -/
  | streamRestore (c : CoreId) (e : Eng)
  /-- GLEAN_WINDOW_CLOSE (R151). A window closes on rows, deadline, overflow or slice end. -/
  | gleanWindowClose (c : CoreId)
  /-- GLEAN_PASS_START (R151). A closed window's pass starts when the MX is free. -/
  | gleanPassStart (c : CoreId)
  /-- GLEAN_REQUEST_DONE (R152). A request's rows of the last N tile land; it completes and signals its conjunction. -/
  | gleanRequestDone (c : CoreId)
  /-- BLOCK_LAUNCH (R160). A block launches when punnet slots and its region slot are free. -/
  | blockLaunch (c : CoreId)
  /-- BLOCK_END (R162). All punnets have ended and the writes have landed; the slots and region return. -/
  | blockEnd (c : CoreId) (b : Nat)
  /-- IADD (R187). Wrapping integer add. -/
  | iadd (c : CoreId) (p : PunId) (w : W64)
  /-- ISUB (R187). Wrapping integer subtract. -/
  | isub (c : CoreId) (p : PunId) (w : W64)
  /-- IMUL (R187). Low half of the integer product. -/
  | imul (c : CoreId) (p : PunId) (w : W64)
  /-- IMULHI (R187). High half of the integer product. -/
  | imulhi (c : CoreId) (p : PunId) (w : W64)
  /-- IMAD (R187). Integer multiply-add. -/
  | imad (c : CoreId) (p : PunId) (w : W64)
  /-- IMIN (R187). Integer minimum. -/
  | imin (c : CoreId) (p : PunId) (w : W64)
  /-- IMAX (R187). Integer maximum. -/
  | imax (c : CoreId) (p : PunId) (w : W64)
  /-- TE_AND (R187). Thread bitwise AND. -/
  | teAnd (c : CoreId) (p : PunId) (w : W64)
  /-- TE_OR (R187). Thread bitwise OR. -/
  | teOr (c : CoreId) (p : PunId) (w : W64)
  /-- TE_XOR (R187). Thread bitwise XOR. -/
  | teXor (c : CoreId) (p : PunId) (w : W64)
  /-- TE_SHL (R187). Thread shift left. -/
  | teShl (c : CoreId) (p : PunId) (w : W64)
  /-- TE_SHR (R187). Thread shift right, logical or arithmetic. -/
  | teShr (c : CoreId) (p : PunId) (w : W64)
  /-- POPC (R187). Count of ones. -/
  | popc (c : CoreId) (p : PunId) (w : W64)
  /-- CLZ (R187). Count of leading zeros. -/
  | clz (c : CoreId) (p : PunId) (w : W64)
  /-- BREV (R187). Bit reversal. -/
  | brev (c : CoreId) (p : PunId) (w : W64)
  /-- SEL (R187). Select by predicate. -/
  | sel (c : CoreId) (p : PunId) (w : W64)
  /-- MOV (R187). Register move. -/
  | mov (c : CoreId) (p : PunId) (w : W64)
  /-- TE_MOVI (R187). Move an immediate (opcode 0x91). -/
  | teMovi (c : CoreId) (p : PunId) (w : W64)
  /-- ICMP (R188). Integer compare into a predicate. -/
  | icmp (c : CoreId) (p : PunId) (w : W64)
  /-- TE_MOVHI (R187). Set the high half of a uniform register. -/
  | teMovhi (c : CoreId) (p : PunId) (w : W64)
  /-- FADD (R189). FP32 add. -/
  | fadd (c : CoreId) (p : PunId) (w : W64)
  /-- FSUB (R189). FP32 subtract. -/
  | fsub (c : CoreId) (p : PunId) (w : W64)
  /-- FMUL (R189). FP32 multiply. -/
  | fmul (c : CoreId) (p : PunId) (w : W64)
  /-- FFMA (R189). FP32 fused multiply-add. -/
  | ffma (c : CoreId) (p : PunId) (w : W64)
  /-- FMIN (R189). FP32 minimum. -/
  | fmin (c : CoreId) (p : PunId) (w : W64)
  /-- FMAX (R189). FP32 maximum. -/
  | fmax (c : CoreId) (p : PunId) (w : W64)
  /-- FCMP (R188). FP32 compare into a predicate. -/
  | fcmp (c : CoreId) (p : PunId) (w : W64)
  /-- FDIV (R189). FP32 divide. -/
  | fdiv (c : CoreId) (p : PunId) (w : W64)
  /-- FSQRT (R189). FP32 square root. -/
  | fsqrt (c : CoreId) (p : PunId) (w : W64)
  /-- FRCP (R189). FP32 reciprocal. -/
  | frcp (c : CoreId) (p : PunId) (w : W64)
  /-- FRSQ (R189). FP32 reciprocal square root. -/
  | frsq (c : CoreId) (p : PunId) (w : W64)
  /-- FEXP2 (R189). FP32 power of two. -/
  | fexp2 (c : CoreId) (p : PunId) (w : W64)
  /-- FLOG2 (R189). FP32 base-2 logarithm. -/
  | flog2 (c : CoreId) (p : PunId) (w : W64)
  /-- FSIN (R189). FP32 sine. -/
  | fsin (c : CoreId) (p : PunId) (w : W64)
  /-- FCOS (R189). FP32 cosine. -/
  | fcos (c : CoreId) (p : PunId) (w : W64)
  /-- CVT (R190). Format conversion. -/
  | cvt (c : CoreId) (p : PunId) (w : W64)
  /-- PCOMB (R188). Combine two predicates. -/
  | pcomb (c : CoreId) (p : PunId) (w : W64)
  /-- LPOLL (R191). Poll a predicate across the executing lanes. -/
  | lpoll (c : CoreId) (p : PunId) (w : W64)
  /-- XLANE (R191). Read a value from another lane. -/
  | xlane (c : CoreId) (p : PunId) (w : W64)
  /-- V2U (R187). Copy the lowest executing lane's value to a uniform register. -/
  | v2u (c : CoreId) (p : PunId) (w : W64)
  /-- RDSR (R192). Read a special register. -/
  | rdsr (c : CoreId) (p : PunId) (w : W64)
  /-- LD (R193). Thread load from global memory or local store. -/
  | ld (c : CoreId) (p : PunId) (w : W64)
  /-- L1_FILL (R226). A miss's line arrives, is written to its bank and frees the bank. -/
  | l1Fill (c : CoreId) (n : Nat)
  /-- ST (R193). Thread store. -/
  | st (c : CoreId) (p : PunId) (w : W64)
  /-- ATOM (R195). Atomic read-modify-write performed at home. -/
  | atom (c : CoreId) (p : PunId) (w : W64)
  /-- FENCE (R196). Memory fence at a scope. -/
  | fence (c : CoreId) (p : PunId) (w : W64)
  /-- BRA (R197). Branch, possibly divergent. -/
  | bra (c : CoreId) (p : PunId) (w : W64)
  /-- CALL (R187). Call, writing the link register. -/
  | call (c : CoreId) (p : PunId) (w : W64)
  /-- BRX (R187). Indirect branch through a uniform register. -/
  | brx (c : CoreId) (p : PunId) (w : W64)
  /-- EXIT (R162). The executing lanes end. -/
  | exit (c : CoreId) (p : PunId) (w : W64)
  /-- TE_NOP (R187). No operation. -/
  | teNop (c : CoreId) (p : PunId) (w : W64)
  /-- TRAP (R198). Trap with cause TRAP. -/
  | trap (c : CoreId) (p : PunId) (w : W64)
  /-- BRK (R198). Trap with cause BREAK. -/
  | brk (c : CoreId) (p : PunId) (w : W64)
  /-- BAR_BLOCK (R165). Arrive at and wait on the block barrier. -/
  | barBlock (c : CoreId) (p : PunId) (w : W64)
  /-- CJ_SIG (R199). Signal a conjunction once per punnet, with release. -/
  | cjSig (c : CoreId) (p : PunId) (w : W64)
  /-- CJ_WAIT (R199). Hold the punnet until the conjunction reaches the value. -/
  | cjWait (c : CoreId) (p : PunId) (w : W64)
  /-- CJ_READ (R254). Read a conjunction value into a uniform register. -/
  | cjRead (c : CoreId) (p : PunId) (w : W64)
  /-- TE_BW_ARRIVE (R266). Thread arrival at a barrier wire. -/
  | teBwArrive (c : CoreId) (p : PunId) (w : W64)
  /-- TE_BW_WAIT (R267). Thread wait on a barrier wire. -/
  | teBwWait (c : CoreId) (p : PunId) (w : W64)
  /-- TE_GB_ARRIVE (R269). Thread arrival at a group barrier. -/
  | teGbArrive (c : CoreId) (p : PunId) (w : W64)
  /-- TE_GB_WAIT (R267). Thread wait on a group barrier. -/
  | teGbWait (c : CoreId) (p : PunId) (w : W64)
  /-- REPLAY (R179). Writing replay restarts a parked punnet from its frame, or is refused. -/
  | replay (c : CoreId)
  /-- PUNNET_KILL (R177). Writing kill to a parked punnet ends its context on this TE. -/
  | punnetKill (c : CoreId)
  /-- U63_HI_WRITE (R179). A write to CORE_TE_U63_HI is held. -/
  | u63HiWrite (c : CoreId) (v : W32)
  /-- U63_LO_WRITE (R179). A write to CORE_TE_U63_LO commits u63 to a parked punnet and sets u63_written. -/
  | u63LoWrite (c : CoreId) (v : W32)
  /-- L1_INVALIDATE_OP (R229). Maintenance op 1 invalidates the range in the background. -/
  | l1InvalidateOp (c : CoreId)
  /-- L1_CLEAN_OP (R229). Maintenance op 2 waits until earlier stores in the range are performed at home. -/
  | l1CleanOp (c : CoreId)
  /-- L1_CLEAN_INVALIDATE_OP (R229). Maintenance op 3 cleans the range, then invalidates it. -/
  | l1CleanInvalidateOp (c : CoreId)
  /-- L1_MAINT_DONE (R229). The maintenance engine finishes and busy clears. -/
  | l1MaintDone (c : CoreId)
  /-- L1_ENABLE_WRITE (R228). A change of CORE_L1_CTRL.enable turns L1 use on or off without invalidating. -/
  | l1EnableWrite (c : CoreId) (v : W32)
  /-- MMU_ROOT_WRITE (R212). A root write takes effect, or is refused while the function has a resident context. -/
  | mmuRootWrite (f : Fn) (hi : Bool) (v : W32)
  /-- ALLOT_WRITE (R211). A steward allotment write takes effect, or is refused while the function has a resident context. -/
  | allotWrite (f : Fn) (k : Fin 16) (hi : Bool) (v : W32)
  /-- MMU_INVALIDATE (R214). Writing start begins a TLB invalidation of a range, or is refused while busy. -/
  | mmuInvalidate (f : Fn) (v : W32)
  /-- INVALIDATE_DONE (R214). No TLB holds a dropped translation and the accesses that used one are done, so busy clears. -/
  | invalidateDone (f : Fn)
  /-- PATROL_SCRUB (R234). The scrubber reads a granule in the background and corrects or counts. -/
  | patrolScrub (at_ : EccSite) (r : Ecc)
  /-- HOST_READ_ERROR (R233). A host read completes with an error or times out, and its data is returned poisoned. -/
  | hostReadError (r : HostRead) (e : HostErr)
  /-- EMB_DUMP_START (R250). Writing start checks translation and begins dumping the sketch slot. -/
  | embDumpStart (f : Fn) (k : Fin 64)
  /-- EMB_DUMP_DONE (R250). Every dump write is visible and busy clears. -/
  | embDumpDone (k : Fin 64)
  /-- EMB_SLOT_OWNER_WRITE (R251). A change of slot owner zeroes the slot and aborts its dump, or is ignored while busy. -/
  | embSlotOwnerWrite (k : Fin 64) (v : W32)
  /-- SIGNAL_ARRIVAL (R253). A signal reaches the synchronisation unit and is applied to its conjunction. -/
  | signalArrival (n : Nat)
  /-- CONTEXT_RESTORE (R262). A context becomes resident, loads its records, merges its log and drains the inbound queue. -/
  | contextRestore (ctx : BitVec 12)
  /-- CONTEXT_SAVE (R262). A context leaves residency; its records are saved and its queued signals go to the log. -/
  | contextSave (slot : Fin 48)
  /-- BW_CFG_WRITE (R265). A steward write binds a barrier wire, or is refused. -/
  | bwCfgWrite (wire : Fin 16) (isMask : Bool) (v : W32)
  /-- SYN_SEL_CAPTURE (R272). Writing SYN_SEL captures one conjunction's state into the view. -/
  | synSelCapture (v : W32)
  /-- SYN_DUMP_START (R273). Writing start checks size and translation and begins a frozen-instant dump. -/
  | synDumpStart (v : W32)
  /-- SYN_DUMP_DONE (R273). Every dump write is visible, busy clears and the held operations resume. -/
  | synDumpDone
  /-- QUEUE_ENABLE (R280). Writing enable = 1 checks the queue and resets its pointers, or records an error. -/
  | queueEnable (f : Fn) (q : Qid) (v : W32)
  /-- QUEUE_DISABLE (R281). Writing enable = 0 stops fetching and quiesces the queue. -/
  | queueDisable (f : Fn) (q : Qid) (v : W32)
  /-- DOORBELL (R282). A doorbell write updates the submission tail or completion head. -/
  | doorbell (f : Fn) (q : Qid) (tail head : Option W32)
  /-- COMMAND_CONSUME (R283). The device consumes a fetched command once its entries and a completion slot are available. -/
  | commandConsume (f : Fn) (q : Qid) (words : List W64)
  /-- RUN (R288). Command that starts MX or TX streams on the masked cores. -/
  | run (f : Fn) (q : Qid)
  /-- TE_LAUNCH (R158). Command that launches a kernel grid on the TE. -/
  | teLaunch (f : Fn) (q : Qid)
  /-- GLEAN (R148). Command that submits a thin-matrix request to gleaning. -/
  | glean (f : Fn) (q : Qid)
  /-- NOP (R291). Command that starts no engine and commits when started. -/
  | nop (f : Fn) (q : Qid)
  /-- CTX_CREATE (R296). Command that creates a context with the lowest free number. -/
  | ctxCreate (f : Fn) (q : Qid)
  /-- CTX_DESTROY (R297). Command that closes a context and frees it after earlier commands commit. -/
  | ctxDestroy (f : Fn) (q : Qid)
  /-- CTX_RESET (R297). Command that resets a context and clears faulted after earlier commands commit. -/
  | ctxReset (f : Fn) (q : Qid)
  /-- COMMAND_COMMIT (R291). A command's completion record enters the completion write queue. -/
  | commandCommit (f : Fn) (q : Qid) (seq : W32)
  /-- ABORT (R299). A write to Q_ABORT latches an abort of a sequence number and classifies it. -/
  | abort (f : Fn) (q : Qid) (v : W32)
  /-- PTM_DIALOGUE (R276). Every 10 ms, a PTM dialogue stores a master and local time pair. -/
  | ptmDialogue (master : W64)
  /-- FLR_VF (R301). A VF FLR stops the function's work and resets its queues, contexts and registers. -/
  | flrVf (f : Fn)
  /-- FLR_STEWARD (R302). A steward FLR resets every function and clears VF Enable. -/
  | flrSteward
  /-- VF_ENABLE_CLEAR (R377). Clearing VF Enable resets the function domain of every virtual function. -/
  | vfEnableClear
  /-- SLICE_EXPIRY (R307). A slice ends on its LU length, on holder inactivity or on takeover. -/
  | sliceExpiry (p : PartId)
  /-- HANDOVER_COMPLETE (R311). Every outgoing engine has ended or been copied, so charging passes to the incoming tenant. -/
  | handoverComplete (p : PartId)
  /-- DATA_FLIT_RECEIVE (R323). A DATA flit is accepted in order or discarded with a nak, and is routed or ejected. -/
  | dataFlitReceive (g : PortId) (bytes : List Byte) (fecOk : Bool)
  /-- IDLE_FLIT (R323). An IDLE flit delivers ack, nak and credits. -/
  | idleFlit (g : PortId) (bytes : List Byte) (fecOk : Bool)
  /-- STUB_RECEIVE (R334). A STUB flit writes nothing, sets the short bit and is forwarded. -/
  | stubReceive (g : PortId) (bytes : List Byte) (fecOk : Bool)
  /-- PUT_ARRIVAL (R329). A PUT message arrives at its destination, is checked, written and signals. -/
  | putArrival (g : PortId) (vc : Fin 4)
  /-- GET_REQ_ARRIVAL (R327). A GET request is checked and served by the link unit. -/
  | getReqArrival (g : PortId) (vc : Fin 4)
  /-- GET_RESP_ARRIVAL (R334). A GET response completes the LINK.GET, or is counted as late. -/
  | getRespArrival (g : PortId) (vc : Fin 4)
  /-- GET_TIMEOUT (R334). A LINK.GET without a response after 1 ms completes with its signal applied short. -/
  | getTimeout (c : CoreId) (n : Nat)
  /-- RETRY_TIMEOUT (R323). No ack for 1 µs causes the retry buffer to be resent from ack + 1. -/
  | retryTimeout (g : PortId)
  /-- CREDIT_SYNC (R332). After 1.2 µs idle, the ends exchange credit state and repair any imbalance. -/
  | creditSync (g : CtlFlit) (held : List Nat)
  /-- IDENT (R338). An IDENT control flit is checked, and a miswired port is fenced. -/
  | ident (g : CtlFlit) (i : IdentInfo)
  /-- FENCE_CONTROL_FLIT (R339). A FENCE control flit fences the partner port with cause partner. -/
  | fenceControlFlit (g : CtlFlit)
  /-- CHIP_FAILED (R340). A CHIP_FAILED notice sets a new failed bit and is forwarded. -/
  | chipFailed (g : CtlFlit) (failed reporter : BitVec 10)
  /-- PORT_DOWN (R338). Loss of lock or 10 µs without a valid flit takes a port DOWN, discarding its messages. -/
  | portDown (g : PortId)
  /-- PORT_TRAINING_DONE (R338). Training completes and the port is UP. -/
  | portTrainingDone (g : PortId)
  /-- PARTNER_FAILED (R340). A port not UP for 1 s has its partner declared failed, fenced and flooded. -/
  | partnerFailed (g : PortId)
  /-- PORT_FENCE (R339). Writing fence = 1 stops new messages on the port. -/
  | portFence (g : PortId)
  /-- FENCE_DRAIN_END (R339). After up to 100 µs, remaining messages are discarded, FENCE is sent and the port is FENCED. -/
  | fenceDrainEnd (g : PortId)
  /-- PORT_UNFENCE (R339). Writing fence = 0 to a steward-fenced port starts training at both ends. -/
  | portUnfence (g : UnfenceAt)
  /-- ROUTE_SELECT (R337). A steward write selects a present route table, or is refused. -/
  | routeSelect (v : W32)
  /-- LANE_DEGRADE_CHECK (R341). Each 1 ms, the corrected-symbol rate sets degraded when it exceeds 8 per codeword. -/
  | laneDegradeCheck (g : PortId) (lanes : List LaneInfo) (codewords corrected : Nat)
  /-- FLT_POP (R349). A pop moves the oldest fault record into the mailbox, or reports empty. -/
  | fltPop (f : Fn)
  /-- RAS_LOG_REQUEST (R352). A request captures the selected chip-log entry, or reports gone. -/
  | rasLogRequest
  /-- RAS_IRQ_SEND (R352). The RAS MSI-X is sent for new entries at most once per 100 µs. -/
  | rasIrqSend
  /-- MON_CLEAR (R357). Writing clear resets the monitor's minimum, maximum, skip count and bins. -/
  | monClear (m : Fin 64)
  /-- MON_CNT_HI_WRITE (R359). A write to MON_CNT_HI is held. -/
  | monCntHiWrite (n : Fin 64) (v : W32)
  /-- MON_CNT_LO_WRITE (R359). A write to MON_CNT_LO sets both halves of the counter in one cycle. -/
  | monCntLoWrite (n : Fin 64) (v : W32)
  /-- FREEZE_TRIGGER (R360). The armed freeze source fires and freezes every monitor and counter. -/
  | freezeTrigger
  /-- FREEZE_NOW (R360). Writing now freezes at once. -/
  | freezeNow
  /-- THAW (R361). Writing thaw restarts the monitors and counters, and trace resumes with SYNC records. -/
  | thaw
  /-- TRACE_ENABLE (R362). Enabling trace resets TRC_WRITE and writes a SYNC record per core. -/
  | traceEnable (v : W32)
  /-- TRACE_DISABLE (R362). Clearing enable stops trace, and active clears once the records are visible. -/
  | traceDisable (v : W32)
  /-- TRACE_WRITE (R366). The trace writer writes FIFO records to the buffer, wrapping or filling. -/
  | traceWrite
  /-- REGISTER_WRITE (R9). A write to a register that has no row of its own takes effect per its access codes. -/
  | registerWrite (f : Fn) (off : Nat) (bytes : List Byte)
  /-- GOVERNOR_START (R58). In PLANT_ARM the governors start on a 1 ms frame boundary, the ledgers begin to advance and epoch 0 begins. -/
  | governorStart
  /-- I3C_ENUMERATION_DONE (R48). I3C enumeration in PLANT_ARM ends; if no named inlet sensor was enumerated, SENSOR_LOST is raised with inlet_all at that moment. -/
  | i3cEnumerationDone (answered : List Bool)
  /-- RESERVOIR_ADC_SAMPLE (R100). At each 100 kS/s reservoir ADC sample the coulomb count adds V × I, and overrange samples are counted toward a reservoir-ADC loss. -/
  | reservoirAdcSample (v : BitVec 12) (i : BitVec 12)
  /-- MEMORY_REQUEST_COMPLETE (R168). An outstanding TE memory request performed at home completes: its data or status returns, its pending register write lands and its request entry is freed. -/
  | memoryRequestComplete (c : CoreId) (n : Nat) (r : Ecc)
  /-- TRACE_SYNC (R365). Each time bit 30 of a core's cycle count changes, that core writes a SYNC trace record. -/
  | traceSync (c : CoreId)
deriving DecidableEq, Repr

end Sys2Proof
end

