-- ==== Sys2Proof/Decode.lean ====
section
/-! DEFINITION. Bit fields, and the encoding of thread instructions (R182 to R199); clauses are decoded in Machine/Clause.lean.
The opcode table gives no bits to any row, so no table word spells a command (R183's words are OPERANDS of the thread
rows, not the commands themselves). -/

namespace Sys2Proof

/-- The command a table word spells. The table gives bits to no row. -/
def decodeTableWord (_nbits _w : Nat) : Option Instr := none

/-- Bits [lo+len-1:lo] of a number. -/
def fld (w lo len : Nat) : Nat := (w >>> lo) % 2 ^ len

/-- One bit of a number. -/
def bit (w i : Nat) : Bool := w.testBit i

/-- `v` read as a signed number of `n` bits. -/
def sgn (v n : Nat) : Int := if v < 2 ^ (n - 1) then (v : Int) else (v : Int) - 2 ^ n

/-- An integer as `n` bits, modulo 2^n. -/
def wrapN (v : Int) (n : Nat) : Nat := (v % (2 ^ n : Nat)).toNat

/-- A number made of little-endian bytes. -/
def leNat : List Byte → Nat
  | [] => 0
  | b :: r => b.toNat + 256 * leNat r

/-- `n` little-endian bytes of a number. -/
def leBytes : Nat → Nat → List Byte
  | 0, _ => []
  | n + 1, v => BitVec.ofNat 8 v :: leBytes n (v / 256)

/-! ## Thread instructions -/

/-- Fields common to every format (R183). -/
def tOp (w : W64) : Nat := fld w.toNat 0 8
def tPg (w : W64) : Nat := fld w.toNat 8 3
def tPn (w : W64) : Bool := bit w.toNat 11
def tPe (w : W64) : Bool := bit w.toNat 12
def tDu (w : W64) : Bool := bit w.toNat 13
def tAu (w : W64) : Bool := bit w.toNat 14
def tX (w : W64) : Bool := bit w.toNat 15
/-- Formats R, I and M: d. -/
def tD (w : W64) : Nat := fld w.toNat 16 8
/-- Format R: a, b, c, mod; format M: base in the place of a. -/
def tA (w : W64) : Nat := fld w.toNat 24 9
def tB (w : W64) : Nat := fld w.toNat 33 9
def tC (w : W64) : Nat := fld w.toNat 42 9
def tMod (w : W64) : Nat := fld w.toNat 51 13
/-- Format I. -/
def tAi (w : W64) : Nat := fld w.toNat 24 8
def tImm (w : W64) : W32 := BitVec.ofNat 32 (fld w.toNat 32 32)
/-- Format M. -/
def tSize (w : W64) : Nat := fld w.toNat 33 3
def tSpace (w : W64) : Nat := fld w.toNat 36 1
def tScope (w : W64) : Nat := fld w.toNat 37 3
def tOrder (w : W64) : Nat := fld w.toNat 40 3
def tNc (w : W64) : Bool := bit w.toNat 43
def tOff (w : W64) : Int := sgn (fld w.toNat 48 16) 16
/-- Format B. -/
def tLink (w : W64) : Nat := fld w.toNat 16 6
def tTarget (w : W64) : Int := sgn (fld w.toNat 24 24) 24
def tReconv (w : W64) : Int := sgn (fld w.toNat 48 16) 16
/-- Format S. -/
def tConj (w : W64) : Nat := fld w.toNat 16 9
def tBar (w : W64) : Nat := fld w.toNat 25 6
def tVsrc (w : W64) : Bool := bit w.toNat 31
def tUa (w : W64) : Nat := fld w.toNat 32 6
def tImm24 (w : W64) : Nat := fld w.toNat 40 24

/-- Formats (R184). -/
inductive TeFmt | r | i | m | b | s
deriving DecidableEq, Repr

/-- Opcodes with a format-I form at 0x80 + op (R186, R187). MOV's is MOVI. -/
def immForm (op : Nat) : Bool :=
  [0x01, 0x02, 0x03, 0x04, 0x06, 0x07, 0x08, 0x09, 0x0A, 0x0B, 0x0C, 0x11, 0x20, 0x21, 0x22, 0x24, 0x25].contains op

/-- Format of an opcode; none where it is unassigned (R186, R187). -/
def teFmt (op : Nat) : Option TeFmt :=
  if op ≥ 0x80 then if immForm (op - 0x80) then some .i else none
  else if [0x13, 0x3C, 0x52, 0x55].contains op then some .i
  else if op = 0x40 ∨ op = 0x41 then some .m
  else if op = 0x50 ∨ op = 0x51 then some .b
  else if 0x60 ≤ op ∧ op ≤ 0x67 then some .s
  else if (0x01 ≤ op ∧ op ≤ 0x12) ∨ (0x20 ≤ op ∧ op ≤ 0x2E) ∨ op = 0x30 ∨ (0x38 ≤ op ∧ op ≤ 0x3B)
      ∨ op = 0x42 ∨ op = 0x43 ∨ op = 0x53 ∨ op = 0x54 ∨ op = 0x56 then some .r
  else none

/-- The operation of an opcode: its format-I form has the same. -/
def teBase (op : Nat) : Nat := if op ≥ 0x80 then op - 0x80 else op

/-- Register operands an opcode uses: d, a, b, c. The format-I form has no b and no c. -/
def teUses (op : Nat) : Bool × Bool × Bool × Bool :=
  if op = 0x05 ∨ op = 0x23 then (true, true, true, true)
  else if op = 0x12 ∨ op = 0x26 then (false, true, true, false)
  else if op = 0x13 ∨ op = 0x3C ∨ op = 0x91 then (true, false, false, false)
  else if op ≥ 0x80 then (true, true, false, false)
  else if (0x0D ≤ op ∧ op ≤ 0x0F) ∨ op = 0x11 ∨ (0x28 ≤ op ∧ op ≤ 0x2E) ∨ op = 0x30 ∨ op = 0x3B then
    (true, true, false, false)
  else if op = 0x38 ∨ op = 0x43 ∨ op = 0x53 ∨ op = 0x54 ∨ op = 0x55 ∨ op = 0x56 then (false, false, false, false)
  else if op = 0x39 then (true, false, false, false)
  else if op = 0x52 then (false, true, false, false)
  else (true, true, true, false)

/-- Whether x has a meaning (R187, R193, R195). -/
def teUsesX (op : Nat) : Bool := [0x04, 0x06, 0x07, 0x0C, 0x12, 0x40, 0x42].contains (teBase op)

/-- Floating-point and conversion groups: du = 1 is illegal (R185). -/
def teFloat (op : Nat) : Bool := 0x20 ≤ teBase op && teBase op ≤ 0x30

/-- A 9-bit operand names a register (R185); `u` asks for a uniform one. -/
def regOk (u : Bool) (f : Nat) : Bool := if f ≥ 256 then f < 256 + 64 else !u

/-- The mod bits an R opcode assigns hold a legal value and the others are zero (R187 to R191, R195, R196). -/
def modOk (op m : Nat) (du : Bool) : Bool :=
  if op = 0x10 then m < 8
  else if op = 0x12 then m < 256 && fld m 3 3 ≤ 5 && fld m 6 2 ≤ 2
  else if op = 0x26 then m < 256 && fld m 6 2 ≤ 2
  else if op = 0x38 then m < 4096
  else if op = 0x39 then m < 256 && (if fld m 0 2 = 2 then du else fld m 0 2 ≤ 1 && !du)
  else if op = 0x3A then m < 4
  else if op = 0x30 then fld m 0 4 ≤ 10 && fld m 4 4 ≤ 10
  else if op = 0x42 then
    (fld m 0 2 = 2 ∨ fld m 0 2 = 3) && fld m 3 3 ≤ 5 && 1 ≤ fld m 6 3 && fld m 6 3 ≤ 4 && fld m 9 4 ≤ 10
    && !(fld m 9 4 == 10 && fld m 0 2 == 3)
  else if op = 0x43 then m < 32 && fld m 0 3 ≤ 5
  else if 0x20 ≤ op ∧ op ≤ 0x2E then m < 128
  else m = 0

/-- LD and ST (R193, R194). -/
def memOk (w : W64) : Bool :=
  let st := tOp w == 0x41
  let sz := tSize w
  let o := tOrder w
  sz ≤ 4 && o ≤ 4 && tScope w ≤ 5 && fld w.toNat 44 4 == 0
  && regOk false (tA w)
  && (tSpace w == 1 || tA w ≥ 256 || tA w % 2 == 0)
  && (if st then (o == 0 || o == 1 || o == 3) && !tNc w && !tDu w && !tX w
      else (o == 0 || o == 1 || o == 2) && (!tNc w || tSpace w == 0))
  && (o != 0 || tScope w == 0)
  && (sz != 4 || (o == 0 && tScope w == 0))
  && (if tDu w then tA w ≥ 256 && sz ≤ 3 && tD w < 64
      else (sz != 3 || tD w % 2 == 0) && (sz != 4 || tD w % 4 == 0))

/-- ATOM's register operands (R185, R195). -/
def atomOk (w : W64) : Bool :=
  let m := tMod w
  let du := tDu w
  let wide := fld m 0 2 == 3
  let glob := bit m 2 == false
  let cas := fld m 9 4 == 9
  let pair (f : Nat) : Bool := f ≥ 256 || !wide || f % 2 == 0
  regOk du (tA w) && regOk du (tB w) && (!cas || regOk du (tC w)) && (cas || tC w == 0)
  && (tA w ≥ 256 || !glob || tA w % 2 == 0)
  && pair (tB w) && (!cas || pair (tC w))
  && (if tX w then tD w == 0 else if du then tD w < 64 else !wide || tD w % 2 == 0)

/-- The instruction word is legal (R182 to R197): otherwise the fetch of it traps with ILLEGAL. -/
def teLegal (w : W64) : Bool :=
  let op := tOp w
  let du := tDu w
  match teFmt op with
  | none => false
  | some f =>
    let (ud, ua, ub, uc) := teUses op
    (teUsesX op || !tX w)
    && (f == .i || !tAu w)
    && (!(du && teFloat op))
    && match f with
      | .r =>
        modOk op (tMod w) du
        && (if op = 0x42 then atomOk w else
          -- The register sources of an operation with a uniform destination are uniform, V2U apart (R185, R191).
          let us := du && op != 0x3B
          (if ua then regOk us (tA w) else tA w == 0)
          && (if ub then regOk us (tB w) else tB w == 0)
          && (if uc then regOk us (tC w) else tC w == 0)
          && (if ud then !du || tD w < 64 else tD w == 0 && !du)
          && (op != 0x10 || !du) && (op != 0x3A || !du) && (op != 0x3B || du)
          && (op != 0x39 || du || tD w == 0))
      | .i =>
        (if ua then (if tAu w then tAi w < 64 else !du && op != 0x52) else tAi w == 0 && !tAu w)
        && (if ud then !du || tD w < 64 else tD w == 0 && !du)
        && (op != 0x13 || du)
        && (op != 0x52 || !tPe w)
        && (op != 0x3C ||
            (match (tImm w).toNat with
             | 0 => !du
             | 1 | 2 => true
             | 3 | 4 | 5 => du
             | _ => false))
      | .m => memOk w
      | .b => !du && fld w.toNat 22 2 == 0 && (op != 0x51 || !tPe w)
      | .s => !du && fld w.toNat 38 2 == 0 && (op != 0x60 || !tPe w) && (op != 0x63 || !tVsrc w)
          && (!(op == 0x64 || op == 0x65) || tBar w ≤ 15)

/-- The word is one of the row's opcodes, or its opcode is assigned to no row (and then it traps, R182). -/
def teRow (ops : List Nat) (w : W64) : Bool := ops.contains (tOp w) || (teFmt (tOp w)).isNone

end Sys2Proof
end

