-- ==== Sys2Proof/Config.lean ====
section
/-! DEFINITION. What is fused or fixed per part, and the free values: constants WITHOUT A BODY, so that nothing can be
proved about a value the manual leaves open. The first argument of a free value is `State.freeIdx`, the plain counter
that every command advances; the second tells apart several free values of one command. -/

namespace Sys2Proof.Config

/-- Part type, fused (R95, R396): true is HLN32-A1W. -/
opaque partW : Bool
/-- Fused SHA-384 of the signing public key (R37 step 3). -/
opaque fusedKeyHash : BitVec 384
/-- Fused default gains of loop 0 to 4 as kp, ki, out_min, out_max (R50): 0 kp, 1 ki, 2 out_min, 3 out_max. -/
opaque fusedGain : Nat → Nat → Int

/-- The fused calibration of the power estimators (R36), by the word's number in the ESTIMATOR layout of R35. -/
opaque fusedCal : Nat → BitVec 32
/-- The energy in 1/65,536 LU that a calibration word gives a count of events of its class: the manual gives neither the
unit of the word nor the formula (R35, R59). -/
opaque estEnergy : BitVec 32 → Nat → Nat
/-- The code that the feed ADC's internal reference converts to (R81), which the manual does not give. -/
opaque refNominal : Nat

/-- A byte that the manual leaves undefined: HBM3E not written since the chip reset (R201), host memory not
written by the device. -/
opaque undefByte : Nat → Nat → Byte
/-- Whether a read of an HBM3E granule that was never written since the chip reset reports an error (R201): 0 none,
1 correctable, 2 uncorrectable. -/
opaque undefEcc : Nat → Nat → Nat
/-- A free 32-bit pattern: a result known only within an error bound (R189), a memory latency (R356), a number of IDLE
flits (R358). -/
opaque freeFp : Nat → Nat → W32
/-- A free choice between the old and the new of two allowed values: a translation before its invalidation ends
(R213), a descriptor read while it is rewritten (R241). -/
opaque freeBit : Nat → Nat → Bool

end Sys2Proof.Config
end

