-- ==== Sys2Proof/Machine/State.lean ====
section
/-! DEFINITION. The state of the block as plain data. Every field's default value is its value after power is first
applied (device state OFF); a chip reset (`chipReset` in Machine/Boot.lean) restores these values but for what R49 and
R377 keep. Energies are exact integers: 1 LU = 65,536 "units" (R58, R65). -/

namespace Sys2Proof.Machine

/-! ## Reasons to stop -/

/-- Why the model stops. -/
inductive Fault
  /-- Raised by `exec` on a command that spells no command of its row (WellFormed refuses it): a thread word of another
  opcode, a register offset outside BAR0, a list of readings of the wrong length. Safe: no such command exists. -/
  | illFormed (what : String)
deriving DecidableEq, Repr

/-- Why the model has no meaning for a command. -/
inductive Refusal
  /-- Raised by an arm of `exec` whose row has no meaning yet. Safe: nothing is claimed of the row. -/
  | notModelled (mnemonic : String)
deriving DecidableEq, Repr

/-! ## Start-up, pins and the sideband (02, 17) -/

/-- Device states (00, R44). -/
inductive DevState | off | strap | charterLoad | selftest | plantArm | ready | limp
deriving DecidableEq, Repr

/-- Reset causes (R49). -/
inductive ResetCause | powerOn | perst | sideband
deriving DecidableEq, Repr

/-- One copy of the Charter as the loader has seen it (R37, R38, R46). -/
structure CopySt where
  /-- Header read and steps 1 and 2 done; image read and hashed when they passed. -/
  seen : Bool := false
  /-- Signature block checked (steps 3, 4). -/
  sigDone : Bool := false
  /-- All seven steps have a verdict. -/
  finished : Bool := false
  /-- First failing step so far; 0 none. -/
  failStep : Nat := 0
  seq : W32 := 0
  len : Nat := 0
  digest : BitVec 384 := 0
  /-- The image as it streamed in; dropped when the load ends (R38). -/
  image : List Byte := []
deriving DecidableEq, Repr

/-- Gains and limits of one loop (R35 LOOP_GAINS): kp, ki signed Q16.16; out_min, out_max. -/
structure Gains where
  kp : Int := 0
  ki : Int := 0
  outMin : Int := 0
  outMax : Int := 0
deriving DecidableEq, Repr

/-- A TENANTS entry (R35). -/
structure Tenant where
  enable : Bool := false
  part : Nat := 0
  weight : Nat := 0
deriving DecidableEq, Repr

/-- LINK_TOPOLOGY (R35). -/
structure Topo where
  dims : Nat := 0
  sx : Nat := 0
  sy : Nat := 0
  sz : Nat := 0
  x : Nat := 0
  y : Nat := 0
  z : Nat := 0
  ports : W16 := 0
  dirs : List Nat := []
deriving DecidableEq, Repr

/-- The values of Charter origin in use (R35, R51): what the shadow holds (R56). -/
structure Charter where
  bunchPart : List Nat := []
  partCount : Nat := 0
  budget : List Nat := []
  slice : List Nat := []
  tenants : Tbl Tenant := {}
  feedCapW : Nat := 0
  clampTargetW : Nat := 0
  usableLu : Nat := 0
  socTarget : Nat := 0
  socFloor : Nat := 0
  dischargeMaxW : Nat := 0
  rechargeMaxW : Nat := 0
  clockMaxMhz : Nat := 0
  channelMask : W32 := 0
  /-- Eight entries: I3C static address and role. -/
  sensors : List (Nat × Nat) := []
  flowPpl : Nat := 0
  pumpMinPct : Nat := 100
  valveMode : Nat := 0
  regAddr : List Nat := []
  gains : List Gains := []
  thermal : List Nat := []
  outletTarget : Nat := 0
  topo : Option Topo := none
  /-- Route tables by table_index; each is destination to entry. -/
  routes : Tbl (Tbl W16) := {}
  dbgTrace : Bool := false
  dbgMonitors : Bool := false
  dbgHazard : Bool := false
  dbgStep : Bool := false
  dbgVf : Bool := false
  jtag : Nat := 0
  limpCapW : Nat := 0
  limpClockMhz : Nat := 0
  limpPumpPct : Nat := 0
  /-- The words of the ESTIMATOR record's calibration, as bytes (R35); none: the fused calibration is used (R36). -/
  estCal : Option (List Byte) := none
  /-- Whether the values stand for LIMP (R50, R51). -/
  isLimp : Bool := false
  /-- Whether register values have been loaded at all (R44 step 5). -/
  loaded : Bool := false
deriving DecidableEq, Repr

/-- The device's PCIe configuration: what the fuses hold (R41, R275) and what the device reports (R43, R233). The
Subsystem ID follows the part type (`subsystemId`). -/
structure PciCfg where
  vendor : W16 := 0x1F5A
  pfDevice : W16 := 0x4832
  vfDevice : W16 := 0x4833
  revision : Byte := 0xA1
  classCode : BitVec 24 := 0x120000
  subVendor : W16 := 0x1F5A
  lanes : Nat := 16
  /-- The fastest rate of the part, GT/s, and FLIT mode at that rate. -/
  maxGts : Nat := 64
  flit : Bool := true
  sriov : Bool := true
  /-- TotalVFs of the SR-IOV capability (R43). -/
  totalVfs : Nat := 0
  /-- BAR0 sizes of the PF and of a VF, MiB; both 64-bit and not prefetchable. -/
  pfBarMib : Nat := 64
  vfBarMib : Nat := 1
  /-- ACS capability of the PF: P2P Request Redirect, P2P Completion Redirect, Upstream Forwarding, P2P Egress
  Control. -/
  acs : List Bool := [true, true, true, true]
  ptm : Bool := true
  flr : Bool := true
  tenBitTags : Bool := true
  nonPosted : Nat := 768
  maxPayload : Nat := 512
  maxReadReq : Nat := 4096
  msixVectors : Nat := 64
  atomicReq : Bool := true
  /-- AER uncorrectable error status of each function (R233). -/
  aer : Tbl W32 := {}
deriving DecidableEq, Repr

/-- Drive of an output (R388, R391): undriven, a static level, a PWM duty, or what its interface sends. -/
inductive PinDrive | hiz | low | high | pwm | active
deriving DecidableEq, Repr

/-- The device's outputs (R388): the PCIe transmitters, the SPI flash, the SMBus sideband, the RES link, the I3C,
PMBus and AVSBus pins, the two PWM pins, the transmitters of a Garka port, FATAL_N, TDO. -/
inductive OutPin
  | pcieTx | spi | sideband | resLink | i3c | pmbus | avsbus | pumpPwm | valvePwm
  | garkaTx (g : Fin 16)
  | fatalN | tdo
deriving DecidableEq, Repr

/-- Start-up state. -/
structure Boot where
  dev : DevState := .off
  pwrgood : Bool := false
  /-- PERST# asserted (R386). -/
  perst : Bool := true
  /-- REFCLK100 present; when it stops, chip time holds (R391). -/
  refclk : Bool := true
  lref : Bool := true
  fatal : Option FatalCause := none
  straps : Straps := ⟨0, false, 0⟩
  cause : Option ResetCause := none
  /-- PCIe link up (R41); it comes up in STRAP and drops at a chip reset. -/
  link : Bool := false
  /-- PCIe link training runs (R41): from the start of STRAP until the link is up. -/
  training : Bool := false
  /-- The fastest link rate that the straps allow, GT/s, and the sideband address that they select (R40); zero before
  the straps are sampled. -/
  linkGts : Nat := 0
  smbAddress : Nat := 0
  /-- Chip time at which steps 2 to 5 of start-up began (R46). -/
  loadAt : Nat := 0
  pumpPin : PinDrive := .hiz
  valvePin : PinDrive := .hiz
  sfdpDone : Bool := false
  sfdp : Option Sfdp := none
  flashMode : FlashMode := .m111
  copyA : CopySt := {}
  copyB : CopySt := {}
  abandoned : Bool := false
  selected : Option Slot := none
  ambiguous : Bool := false
  hbmTrained : BitVec 8 := 0
  hbmDegraded : Bool := false
  sramClear : Bool := false
  armTach : Bool := false
  armInlet : Bool := false
  armFail : Bool := false
  i3cDone : Bool := false
  shadowLost : Bool := false
  bootMs : Nat := 0
  charter : Charter := {}
  /-- The two copies of the Charter shadow, and the registers whose entry in a copy no longer decodes, by address
  (R56, R57). -/
  sh1 : Charter := {}
  sh2 : Charter := {}
  bad1 : List Nat := []
  bad2 : List Nat := []
  /-- The last configuration request was answered with CRS (R42). -/
  crs : Bool := false
  /-- A CHIP_RESET request waits to be taken (R55), and its chip time. -/
  resetReq : Bool := false
  reqAt : Nat := 0
  /-- Chip time at which the start-up sequence began, and what had passed of it before chip time started from zero
  (R44): a sequence that a CHIP_RESET request started counts from the request. -/
  seqAt : Nat := 0
  seqLead : Nat := 0
  pci : PciCfg := {}
deriving DecidableEq, Repr

/-- The flash bridge of the sideband (R52-R54) and the last SMBus answer. -/
structure Sideband where
  addr : W32 := 0
  busy : Bool := false
  lastError : Bool := false
  refused : Bool := false
  unlocked : Bool := false
  /-- A command that changes the flash while busy: (address, bytes) to program, or (address, size) to erase. -/
  op : Option (Nat × List Byte ⊕ Nat × Nat) := none
  /-- The running operation belongs to the most recent command that last_error reports on (R52). -/
  opLast : Bool := false
  ack : Bool := false
  reply : List Byte := []
deriving DecidableEq, Repr

/-! ## Governors and plant (03, 04) -/

/-- A triplicated field (R354): three copies and the last value on which two agreed. -/
structure Trv where
  c0 : Nat := 0
  c1 : Nat := 0
  c2 : Nat := 0
  agreed : Nat := 0
deriving DecidableEq, Repr

/-- The control state of one governor (R72). Powers of the feed loop are in 2^-21 W, the integral and u in 2^-37 W,
duties and their integrals in 2^-20 %, the reservoir request and D_lim in 2^-16 W (its integral in 2^-32 W), the trims
in 2^-16 mV. -/
structure GovLoop where
  feedInt : Int := 0
  pFeed : Int := 0
  pPrev : Int := 0
  pFiltered : Int := 0
  /-- Consecutive samples above the cap, at most 2. -/
  overCnt : Nat := 0
  /-- PLT_EXCESS in 2^-21 W us (R98). -/
  excess : Nat := 0
  clamp : Bool := false
  /-- Clock stretch ratio k of 16 (R97). -/
  k : Nat := 16
  /-- Consecutive samples at or below the target while clamped. -/
  relCnt : Nat := 0
  target : Int := 0
  u : Int := 0
  powerTargetW : Nat := 1650
  ceilMhz : Nat := 400
  resInt : Int := 0
  cReq : Int := 0
  dLim : Int := 0
  pumpInt : Int := 0
  pumpDuty : Int := 104857600
  valveInt : Int := 0
  valveDuty : Int := 0
  voltInt : Tbl Int := {}
  trim : Tbl Int := {}
  nak : Tbl Nat := {}
  frame : Nat := 0
deriving DecidableEq, Repr

/-- One partition's account (R65, R67); spent and carry in units of 1/65,536 LU. -/
structure PartAcct where
  spent : Int := 0
  /-- Charges of a rollover tick, which belong to the new epoch. -/
  newSpent : Int := 0
  carry : Int := 0
  coreRem : Nat := 0
  /-- Charge of the last tick (R306). -/
  lastCharge : Int := 0
deriving DecidableEq, Repr

/-- The values of channels 0 to 3 that the device applies while a resynchronisation holds them (R73, R75): the clamp
and its stretch ratio, the power target, the clock ceiling, the exhausted flags. -/
structure Held where
  clamp : Bool := false
  k : Nat := 16
  targetW : Nat := 0
  ceilMhz : Nat := 0
  exhausted : Nat := 0
deriving DecidableEq, Repr

/-- Steps of a resynchronisation (R75). -/
inductive Resync | none | waiting | copying | restarting
deriving DecidableEq, Repr

/-- The governors, ledgers and epochs. Work energy is in units of 1/65,536 LU with a remainder in units of
1/16,384,000 of that (Q2.14 trim x 1,000 ticks of a window). -/
structure Gov where
  started : Bool := false
  tickNo : Nat := 0
  a : GovLoop := {}
  b : GovLoop := {}
  bHalted : Bool := false
  lost : Bool := false
  /-- Limp power in effect (R77), and whether through a lost comparator. -/
  limpPower : Bool := false
  resync : Resync := .none
  /-- Earliest chip time of the resynchronisation's next step (R75). -/
  resyncAt : Nat := 0
  lastResyncEnd : Option Nat := none
  held : Option Held := none
  /-- The channel-0-3 drive after a divergence in this tick. -/
  injA : Option Nat := none
  injB : Option Nat := none
  aOk : Bool := false
  bOk : Bool := false
  beats : Nat := 0
  skew : Trv := ⟨2, 2, 2, 2⟩
  feedCap : Trv := {}
  work : Nat := 0
  workFrac : Nat := 0
  workRem : Nat := 0
  feed : Nat := 0
  /-- In 2^-21 LU. -/
  feedRem : Nat := 0
  wrapDue : Bool := false
  trim : Nat := 0x4000
  frozen : Bool := false
  /-- Residual of the window before, in remainder units, spread over this window's 1,000 ticks; what is left of it. -/
  residual : Int := 0
  /-- Part of earlier residuals carried on (R60, R61). -/
  carried : Int := 0
  winTick : Nat := 0
  winEst : Nat := 0
  winLed : Int := 0
  winFeed : Nat := 0
  workW : Nat := 0
  feedW : Nat := 0
  /-- Work power of the last tick in 1/65,536 LU per tick. -/
  lastWork : Nat := 0
  epoch : Nat := 0
  epochStart : Nat := 0
  /-- Work-ledger units advanced since the epoch began, exact. -/
  adv : Nat := 0
  endDue : Bool := false
  earlyDue : Bool := false
  rollDue : Bool := false
  rollTick : Bool := false
  parts : Tbl PartAcct := {}
  thisEpochLatent : Nat := 0
  earlyCount : Nat := 0
  tickEnergy : Tbl Nat := {}
  snapReq : Bool := false
  /-- Chip time of the request: the capture is made at the next tick boundary. -/
  snapAt : Nat := 0
  snapValid : Bool := false
  lastDiverge : W32 := 0
  heldTick : Nat := 0
  divTick : Option Nat := none
deriving DecidableEq, Repr

/-- An I3C temperature sensor (R87). -/
structure Sensor where
  enumerated : Bool := false
  temp : Int := 0
  valid : Bool := false
  fails : Nat := 0
deriving DecidableEq, Repr

/-- Plant state besides the loops (04). -/
structure Plant where
  /-- The TRV fields of PLT_LIMITS (R103): 0 discharge_max_w, 1 recharge_max_w, 2 clamp_target_w, 3 soc_floor_pct,
  4 pump_min_pct (reset 100). -/
  lim0 : Trv := {}
  lim1 : Trv := {}
  lim2 : Trv := {}
  lim3 : Trv := {}
  lim4 : Trv := ⟨100, 100, 100, 100⟩
  sensV : Nat := 0
  sensI : Int := 0
  resV : Nat := 0
  resI : Int := 0
  /-- Consecutive overrange samples of the reservoir ADC (R102). -/
  resOver : Nat := 0
  /-- Consecutive overrange samples of the feed ADC, its last conversion of the internal reference, whether that was
  within 1 % of nominal, and since when it has been (R81, R102). -/
  feedOver : Nat := 0
  refCode : W16 := 0
  refBad : Bool := false
  refOkAt : Nat := 0
  /-- Since when the reservoir's power has been off its setpoint by more than R102 allows. -/
  convOff : Option Nat := none
  /-- Regulators whose telemetry the last window missed (R61). -/
  noTel : List Nat := []
  setpoint : Nat := 2048
  /-- The last frame sent on the RES link: 0b1010, then the setpoint (R84); zero before the first. -/
  frame : W16 := 0
  vFull : W16 := 0
  vEmpty : W16 := 0
  /-- Coulomb count in 1/65,536 LU (R100). -/
  coulomb : Nat := 0
  eVolt : Nat := 0
  convOk : Bool := false
  /-- Samples since |reservoir current| last reached 1 A, at 10 us each (R101). -/
  quiet : Nat := 0
  dueAt : Option Nat := none
  lastRec : Nat := 0
  sensors : Tbl Sensor := {}
  /-- Active loss responses (R102). -/
  active : List Loss := []
  rpm : W16 := 0
  mlMin : Nat := 0
  badGates : Nat := 0
  goodGates : Nat := 0
  /-- Core junctions in 1/16 C; none is an invalid reading. -/
  junction : Tbl (Option Int) := {}
  /-- Per-core junction ceiling, MHz (R94). -/
  jCeil : Tbl Nat := {}
  /-- Chip time of the core's last junction step, or of its first hot or cool reading. -/
  jStep : Tbl Nat := {}
  droop : Tbl Bool := {}
  overSince : Option Nat := none
  underSince : Option Nat := none
  inletOver : Bool := false
  clampAt : Nat := 0
  avsOk : Tbl Bool := {}
  pumpFull : Bool := false
  kStepAt : Nat := 0
deriving DecidableEq, Repr

/-! ## Engines (05, 06, 10) -/

/-- A resolved tensor descriptor (R236). -/
structure Noun where
  base : Nat := 0
  fmt : Nat := 0
  kind : Nat := 0
  rank : Nat := 1
  valid : Bool := false
  scale : W32 := 0
  ext : List Nat := [1, 1, 1, 1]
  stride : List Int := [0, 0, 0]
  scaleOff : Int := 0
  drop : Bool := false
  mean : Bool := false
  sketch : Nat := 0
  sketchOn : Bool := false
  log2Sets : Nat := 0
  presOn : Bool := false
  defaultRow : Nat := 0
  presTags : Nat := 0
  presRows : Nat := 0
  presStride : Nat := 0
deriving DecidableEq, Repr

/-- An address generator (R118, R119). -/
structure Agu where
  index : Bool := false
  start : W64 := 0
  addr : W64 := 0
  step0 : W64 := 0
  step1 : W64 := 0
  count0 : W16 := 0
  pos0 : W16 := 0
  /-- The index tensor. -/
  idx : Noun := {}
  rowBase : W64 := 0
  rowStride : W64 := 0
  pos : W32 := 0
deriving DecidableEq, Repr

/-- A fetched clause (R106, R107): its address, header and present slots in slot order. -/
structure Clause where
  addr : Nat := 0
  hdr : W64 := 0
  slots : List (Nat × W64) := []
  /-- Nouns resolved at fetch (R238), by handle. -/
  nouns : Tbl Noun := {}
deriving DecidableEq, Repr

/-- A write in flight (R121). -/
inductive Write
  | scal (d : Nat) (v : W64)
  /-- The fields of generator `n` that the AGU opcode `op` writes, taken from `v`. -/
  | gen (n : Nat) (op : Nat) (v : Agu)
  | lc (i : Nat) (v : W16)
  /-- An operand-buffer row: buffer 0 A0, 1 A1, 2 B0, 3 B1; its format; lane values (lane, scale and byte). -/
  | buf (b : Nat) (row : Nat) (fmt : Nat) (lanes : List (Nat × W16))
  | held (row : Nat) (fmt : Nat) (lanes : List (Nat × W16))
  /-- The held rows that a SHIFT leaves: those it read at its issue, shifted (R121, R141). -/
  | shift (rowFmt : Tbl Nat) (lanes : Tbl W16)
  /-- An accumulator bank from an MMA of the list `mmas`. -/
  | mma (id : Nat)
  | zero (bank : Nat)
  /-- Local-store bytes at window offset `off`. -/
  | ls (off : Nat) (bytes : List Byte)
  /-- A DRAIN row: its capture `id` and its row. -/
  | drain (id : Nat) (row : Nat)
deriving DecidableEq, Repr

/-- A write in flight with its landing cycle, its issue cycle and the slot that issued it. -/
structure Land where
  at_ : Nat
  issued : Nat
  slot : Nat
  w : Write
deriving DecidableEq, Repr

/-- An MMA that has not landed (R138, R139): captured operand rows, as (row x 512 + lane, value). -/
structure MmaRun where
  id : Nat := 0
  issued : Nat := 0
  k : Nat := 0
  /-- Buffer rows read before a later MMA took the array (R139). -/
  rows : Nat := 0
  bank : Nat := 0
  acc : Bool := false
  fmtA : Option Nat := none
  fmtB : Option Nat := none
  a : List (Nat × W16) := []
  b : List (Nat × W16) := []
  c : List (Nat × W32) := []
  reuse : Bool := false
deriving DecidableEq, Repr

/-- A DRAIN in flight: where its rows go, and per row the bank's tag (true integer) and its 256 elements as read. -/
structure DrainRun where
  id : Nat := 0
  issued : Nat := 0
  rows : Nat := 0
  bank : Nat := 0
  noun : Noun := {}
  base : Nat := 0
  cap : List (Bool × List W32) := []
deriving DecidableEq, Repr

/-- A release operation of a stream (R115). -/
inductive Release
  | sig (conj : Nat) (n : W32)
  | bw (bar : Nat)
  | gb (bar : Nat) (mask : W32)
deriving DecidableEq, Repr

/-- A release operation that waits for the writes issued up to cycle `upto` and for the transfers `xfers`; `pc` is its
clause. -/
structure RelWait where
  r : Release
  upto : Nat
  xfers : List Nat
  pc : Nat
deriving DecidableEq, Repr

/-- A write that hazard-watch tracks (R130): its resource, the part of it (rows or bytes [lo, hi)) and its landing
cycle. -/
structure HzW where
  res : Nat
  lo : Nat
  hi : Nat
  at_ : Nat
deriving DecidableEq, Repr

/-- A command named by function, queue and sequence number. -/
structure CmdRef where
  fn : Nat := 0
  q : Nat := 0
  seq : W32 := 0
deriving DecidableEq, Repr

/-- The synchronisation object of a wait or an arrival. -/
inductive Obj
  | conj (ctx n : Nat)
  | wire (n : Nat)
  | group (ctx n : Nat)
deriving DecidableEq, Repr

/-- Engine states of CORE_ENG_STATUS. -/
inductive EngSt | idle | issuing | held | parked
deriving DecidableEq, Repr

/-- A transfer of opcodes 0x01 to 0x07 that has yet to act (R242 to R248): its opcode and slot, whether its execution was
its clause's first and last, and its nouns and generators as they were at its issue. -/
structure XJob where
  op : Nat := 0
  slot : Nat := 0
  first : Bool := true
  last : Bool := true
  src : Noun := {}
  dst : Noun := {}
  sg : Agu := {}
  dg : Agu := {}
deriving DecidableEq, Repr

/-- An outstanding TX transfer (R111, R168, R326). -/
structure Xfer where
  id : Nat := 0
  cmd : CmdRef := {}
  ctx : Nat := 0
  sig : Bool := false
  conj : Nat := 0
  pc : Nat := 0
  /-- LINK.PUT or LINK.GET; GET waits for its response. -/
  isGet : Bool := false
  isPut : Bool := false
  tag : Nat := 0
  /-- The physical pieces that a GET's response is written to. -/
  pa : List (Nat × Nat) := []
  len : Nat := 0
  issuedAt : Nat := 0
  /-- Flits of a PUT not yet accepted or dropped at the first hop. -/
  flitsLeft : Nat := 0
  fault : Option Nat := none
  /-- Whether the transfer read host memory. -/
  host : Bool := false
  /-- Its requests that leave the core, by 128-byte lines (R168). -/
  reqs : Nat := 0
  /-- It used a translation that an invalidation in progress covers (R214). -/
  old : Bool := false
  /-- First virtual address of host memory that it reads. -/
  va : Nat := 0
  /-- What it has yet to do: a transfer that reads host memory, and those behind it (R243). -/
  job : Option XJob := none
deriving DecidableEq, Repr

/-- An MX or TX stream engine (R104 to R132). -/
structure ClEng where
  st : EngSt := .idle
  cmd : CmdRef := {}
  ctx : Nat := 0
  fn : Nat := 0
  pc : Nat := 0
  scal : Tbl W64 := {}
  lc : Tbl W16 := {}
  ag : Tbl Agu := {}
  clause : Option Clause := none
  /-- The wait of the fetched clause has been satisfied, or it has none. -/
  waitOk : Bool := false
  waiting : Option (Obj × W32) := none
  /-- Executions of the clause issued so far. -/
  done : Nat := 0
  /-- Slots of the issued execution that have not acted yet. -/
  issuing : List (Nat × W64) := []
  /-- Generators written by AGU slots of this execution (R120). -/
  aguSet : List Nat := []
  /-- Nominal cycle of the issued execution, and of the next one (R113). -/
  now : Nat := 0
  next : Nat := 0
  /-- Cycle of the current clause's first execution. -/
  first : Nat := 0
  taken : Bool := false
  branch : Option Nat := none
  inflight : List Land := []
  mmas : List MmaRun := []
  drains : List DrainRun := []
  fresh : Nat := 0
  ending : Bool := false
  releases : List RelWait := []
  stopPending : Bool := false
  /-- Stopped at a stop point and not yet copied, and the acc_live of its stop clause (R107, R125). -/
  stopped : Bool := false
  accLive : Nat := 0
  stopReqAt : Nat := 0
  /-- Object and generation of the most recent arrival (R267). -/
  arrival : Option (Obj × W32) := none
  faultCause : Option Nat := none
  aborting : Bool := false
  /-- Hazard-watch: the next clause issues unchecked (R131). -/
  unchecked : Bool := false
  /-- Writes that hazard-watch tracks, on the nominal schedule (R130). -/
  hz : List HzW := []
  /-- Core cycle at which the engine parked. -/
  parkedAt : Nat := 0
  gbHeld : Bool := false
deriving DecidableEq, Repr

/-- A tagged accumulator bank (R145): element m x 256 + n. -/
structure Bank where
  isInt : Bool := false
  el : Tbl W32 := {}
  /-- Poisoned elements (R231). -/
  bad : List Nat := []
deriving DecidableEq, Repr

/-- An operand buffer or the held rows (R137): key row x 512 + lane, value scale and byte. -/
structure OpBuf where
  fmt : Option Nat := none
  lanes : Tbl W16 := {}
  /-- Format code + 1 in which each row was loaded. -/
  rowFmt : Tbl Nat := {}
deriving DecidableEq, Repr

/-- A pooled row of EMBED.POOL (R248): its command and slot, the rows that contributed, its FP32 elements. -/
structure Pool where
  cmd : CmdRef := {}
  slot : Nat := 0
  n : Nat := 0
  row : List W32 := []
deriving DecidableEq, Repr

/-- A request's share of the engine cycles and the energy of its pass, in 1/65,536 LU (R155). -/
structure GlCharge where
  cmd : CmdRef := {}
  cyc : Nat := 0
  lu : Int := 0
deriving DecidableEq, Repr

/-- A gleaning request (R148). -/
structure GlReq where
  cmd : CmdRef := {}
  aNoun : Nat := 0
  oNoun : Nat := 0
  m : Nat := 0
  deadline : Nat := 0
  conj : Nat := 0
  sig : Bool := false
  /-- Its first bank row in the pass (R152). -/
  base : Nat := 0
deriving DecidableEq, Repr

/-- A gleaning window or pass (R150 to R155). -/
structure GlWin where
  fn : Nat := 0
  ctx : Nat := 0
  wNoun : Nat := 0
  reqs : List GlReq := []
  /-- Nouns of a pass, resolved when it started. -/
  nouns : Tbl Noun := {}
  /-- The pass's place (R152): its pair of N tiles, the K tiles of the pair that are accumulated, and the pair's
  elements, by row x 65,536 + N. -/
  pair : Nat := 0
  tile : Nat := 0
  acc : Tbl W32 := {}
  /-- Poisoned elements of its banks, 65,536 x bank + 256 x row + column (R231). -/
  bad : List Nat := []
  /-- Core cycle at which the pass started or resumed. -/
  startAt : Nat := 0
  /-- Engine cycles and energy of the pass so far, and the rows of each of its requests (R155). -/
  cyc : Nat := 0
  lu : Int := 0
  shares : List (CmdRef × Nat) := []
  /-- Preemption requested, the core cycle of the request, and whether the pass stands at a stop point (R154). -/
  stop : Bool := false
  stopAt : Nat := 0
  stopped : Bool := false
  /-- Bytes of a saved pass still in the preemption buffer, and its place in the order of copies (R313). -/
  bytes : Nat := 0
  stamp : Nat := 0
deriving DecidableEq, Repr

/-! ## Thread engine (07, 08) -/

/-- A reconvergence stack entry (R163). -/
structure Reconv where
  at_ : Nat := 0
  other : W32 := 0
  otherPc : Nat := 0
  /-- Lanes that have reached the join. -/
  joined : W32 := 0
  ran : Bool := false
deriving DecidableEq, Repr

/-- The register state of a punnet (R156): vector register r of lane l at key 32 r + l. -/
structure PunRegs where
  v : Tbl W32 := {}
  /-- Poisoned elements of the vector registers, by the keys of `v` (R231). -/
  bad : List Nat := []
  u : Tbl W64 := {}
  p : Tbl W32 := {}
  stack : List Reconv := []
  pc : Nat := 0
  active : W32 := 0
deriving DecidableEq, Repr

/-- A pending register write of an outstanding request: which registers the scoreboard holds (R157). -/
inductive Dest
  | vec (r : Nat)
  | uni (r : Nat)
deriving DecidableEq, Repr

/-- What an outstanding TE request does at home (R168). -/
inductive ReqKind | load | store | atom
deriving DecidableEq, Repr

/-- One lane's part of a request. -/
structure LaneAcc where
  lane : Nat := 0
  va : Nat := 0
  pa : Nat := 0
  size : Nat := 0
  data : Nat := 0
  cmp : Nat := 0
deriving DecidableEq, Repr

/-- An outstanding request of a core's TE: one 128-byte line of one instruction (R166, R168). -/
structure TeReq where
  id : Nat := 0
  slot : Nat := 0
  ctx : Nat := 0
  fn : Nat := 0
  kind : ReqKind := .load
  line : Nat := 0
  accs : List LaneAcc := []
  /-- Destination register base; none for a store or an atomic that returns nothing. -/
  dst : Option Dest := none
  regs : Nat := 1
  sext : Bool := false
  atomOp : Nat := 0
  /-- The request fills an L1 line on arrival (R226). -/
  fill : Bool := false
  /-- The line is kept when it arrives (R227). -/
  keep : Bool := true
  global : Bool := true
  /-- The requests, as (core, number), that are performed before it (R217 to R219, R226). -/
  behind : List (Nat × Nat) := []
  /-- A store or atomic that threads of its core, and of its bunch, may have observed already, through the L1 or a
  release at a scope below chip (R216, R219): their accesses to its bytes come after it. -/
  visCore : Bool := false
  visBunch : Bool := false
  /-- An acquire: later memory instructions of the punnet wait; a wide one invalidates the L1 (R227). -/
  acquire : Bool := false
  acqWide : Bool := false
  /-- Number of the instruction; lines of one instruction land together (R171). -/
  ins : Nat := 0
  /-- Performed at home; its results wait for the instruction's other lines. -/
  fin : Bool := false
  /-- Values read, by lane, and the lanes that met poison (R232). -/
  got : List (Nat × Nat) := []
  bad : W32 := 0
  issuedAt : Nat := 0
  /-- It used a translation that an invalidation in progress covers (R214). -/
  old : Bool := false
  /-- Punnet registers before the instruction, for a precise trap at completion (R171). -/
  ckpt : PunRegs := {}
deriving DecidableEq, Repr

/-- What a punnet is held on (R157). -/
inductive PunHold
  | none
  | bar (gen : Nat)
  | wait (o : Obj) (t : W32)
  | gb (g : Nat) (mask : W32)
deriving DecidableEq, Repr

/-- A trap's record in the slot (R173, R174). -/
structure TrapInfo where
  cause : Nat := 0
  double : Bool := false
  parked : Bool := false
  u63Written : Bool := false
  /-- What the fault record of the trap holds (R347): sub-cause, level, address, lanes. -/
  sub : Nat := 0
  level : Nat := 0
  va : Nat := 0
  mask : W32 := 0
deriving DecidableEq, Repr

/-- A punnet slot (R156). -/
structure Punnet where
  resident : Bool := false
  ended : Bool := false
  parked : Bool := false
  ctx : Nat := 0
  fn : Nat := 0
  cmd : CmdRef := {}
  block : Nat := 0
  idx : Nat := 0
  regs : PunRegs := {}
  /-- Initial active mask, and the lanes that have executed EXIT. -/
  init : W32 := 0
  exited : W32 := 0
  hold : PunHold := .none
  arrival : Option (Obj × W32) := none
  trap : TrapInfo := {}
  shadow : List Byte := []
  lastIssue : Nat := 0
  /-- A stored BAR.BLOCK arrival for the next generation (R165). -/
  nextArr : Bool := false
  /-- What a FENCE release at chip or system scope puts before the punnet's later stores and atomics, as (core,
  request) (R219). -/
  relSet : List (Nat × Nat) := []
  /-- Its memory instruction waits for request entries (R168). -/
  waitEnt : Bool := false
  /-- The punnet traps STEP when its instruction has completed (R178). -/
  stepDue : Bool := false
deriving DecidableEq, Repr

/-- A resident block (R160, R162, R165). -/
structure Block where
  b : Nat := 0
  cmd : CmdRef := {}
  ctx : Nat := 0
  region : Option Nat := none
  slots : List Nat := []
  gen : Nat := 0
  arrived : List Nat := []
deriving DecidableEq, Repr

/-- A TE command on one core (R158 to R161). -/
structure Grid where
  cmd : CmdRef := {}
  ctx : Nat := 0
  fn : Nat := 0
  entry : Nat := 0
  blocks : Nat := 0
  threads : Nat := 0
  granules : Nat := 0
  poolOff : Nat := 0
  poolSize : Nat := 0
  trapBase : Nat := 0
  trapSize : Nat := 0
  trapMode : Bool := false
  args : List W64 := []
  /-- Index of this core in the mask's list, and the list's length. -/
  ci : Nat := 0
  n : Nat := 1
  /-- Blocks of this core launched so far. -/
  launched : Nat := 0
  /-- The context has ended on this TE (R176), and the cause. -/
  stopped : Bool := false
  cause : Nat := 0
  /-- Core cycle of that end: traps of the same cycle still write their frames. -/
  cutAt : Nat := 0
deriving DecidableEq, Repr

/-- A line of the L1 (R224): its tag (virtual line address), page bypass is not held; 128 bytes. -/
structure L1Line where
  va : Nat := 0
  bytes : List Byte := []
deriving DecidableEq, Repr

/-- The L1 maintenance engine (R229). -/
structure L1Maint where
  busy : Bool := false
  op : Nat := 0
  va : Nat := 0
  size : Nat := 0
  /-- Lines resident at the start, and stores outstanding at the start. -/
  lines : List Nat := []
  stores : List Nat := []
deriving DecidableEq, Repr

/-- Saved TE work of a context on one core (R180, R181). -/
structure TeSave where
  ctx : Nat := 0
  fn : Nat := 0
  grid : Option Grid := none
  blocks : List Block := []
  punnets : Tbl Punnet := {}
  bytes : Nat := 0
  stamp : Nat := 0
deriving DecidableEq, Repr

/-- The thread engine of a core. -/
structure Te where
  grid : Option Grid := none
  blocks : List Block := []
  pun : Tbl Punnet := {}
  reqs : List TeReq := []
  fresh : Nat := 0
  lastCtx : Option Nat := none
  l1 : List L1Line := []
  /-- Core cycle + 1 of the last issue, for event 3 (R358). -/
  lastCyc : Nat := 0
  maint : L1Maint := {}
  stopPending : Bool := false
  u63Hi : W32 := 0
  saved : List TeSave := []
deriving DecidableEq, Repr

/-- A translation held by a TLB (R213): function, virtual page base, page size, leaf entry. -/
structure TlbEntry where
  fn : Nat := 0
  va : Nat := 0
  size : Nat := 0
  entry : W64 := 0
deriving DecidableEq, Repr

/-- A saved clause stream (R124, R312). -/
structure StreamSave where
  e : CE := .mx
  eng : ClEng := {}
  banks : Tbl Bank := {}
  /-- Bytes still in the preemption buffer, and its place in the order of copies (R313). -/
  bytes : Nat := 0
  stamp : Nat := 0
deriving DecidableEq, Repr

/-- A core. -/
structure Core where
  cycles : Nat := 0
  cycFrac : Nat := 0
  /-- The engines that executed a function's commands since the last governor tick (R316). -/
  ran : List (Eng × Nat) := []
  mx : ClEng := {}
  tx : ClEng := {}
  bufs : Tbl OpBuf := {}
  heldRows : OpBuf := {}
  banks : Tbl Bank := {}
  xfers : List Xfer := []
  /-- The rows that EMBED.POOL transfers are pooling. -/
  pools : List Pool := []
  xferNext : Nat := 0
  /-- The noun cache (R241): (context x 4096 + handle) to (descriptor, fill stamp). -/
  nouns : List (Nat × Noun × Nat) := []
  /-- Fill stamp at which each engine's current command started. -/
  nounMx : Nat := 0
  nounTx : Nat := 0
  nounStamp : Nat := 0
  /-- Open gleaning windows, one per merge key (R151). -/
  glean : List GlWin := []
  /-- Closed windows that wait for the MX. -/
  glQueue : List GlWin := []
  glPass : Option GlWin := none
  /-- The charges of the last pass that ended (R155). -/
  glCharge : List GlCharge := []
  glSaved : List GlWin := []
  te : Te := {}
  tlb : List TlbEntry := []
  streams : List StreamSave := []
  /-- Saved streams of aborted commands: their transfers and signals are still to complete (R300). -/
  quits : List StreamSave := []
  /-- Copies made so far. -/
  preNext : Nat := 0
deriving DecidableEq, Repr

/-! ## Synchronisation (11) -/

/-- Who signalled last (R252). -/
structure LastSig where
  valid : Bool := false
  eng : BitVec 7 := 0
  ctx : BitVec 12 := 0
  pc : BitVec 52 := 0
  chip : BitVec 10 := 0
  remote : Bool := false
deriving DecidableEq, Repr

/-- A conjunction (R252). -/
structure Conj where
  value : W32 := 0
  shortPending : Bool := false
  shortSeen : Bool := false
  saturated : Bool := false
  last : LastSig := {}
deriving DecidableEq, Repr

/-- A signal on its way to the unit (R253, R258). -/
structure Signal where
  ctx : Nat := 0
  conj : Nat := 0
  n : W32 := 0
  short : Bool := false
  src : LastSig := {}
  /-- Of a remote signal: the port and virtual channel that its message came by (R330). -/
  via : Option (Nat × Nat) := none
deriving DecidableEq, Repr

/-- A registered wait (R254, R255). -/
structure Waiter where
  obj : Obj
  target : W32
  eng : BitVec 7
  punnet : Nat
  ctx : Nat
  since : Nat
  /-- For barriers: satisfied at the object's next completion after registration (R267). -/
  anyNext : Bool := false
  bseen : W32 := 0
deriving DecidableEq, Repr

/-- States of a context slot (R262). -/
inductive SlotSt | empty | restoring | resident | saving
deriving DecidableEq, Repr

/-- A resident context slot (R262). -/
structure CtxSlot where
  st : SlotSt := .empty
  ctx : Nat := 0
  inbound : List Signal := []
deriving DecidableEq, Repr

/-- A barrier wire (R265, R266). -/
structure Wire where
  ctx : BitVec 12 := 0
  valid : Bool := false
  mask : W32 := 0
  raised : W32 := 0
  gen : W32 := 0
deriving DecidableEq, Repr

/-- A group barrier of a context (R269). -/
structure Group where
  gen : W32 := 0
  mask : W32 := 0
  arrived : W32 := 0
  inProgress : Bool := false
  mismatch : Bool := false
deriving DecidableEq, Repr

/-- One of the 64 trackers (R271). -/
structure Tracker where
  busy : Bool := false
  ctx : Nat := 0
  group : Nat := 0
  part : Nat := 0
deriving DecidableEq, Repr

/-- A group arrival held for a tracker (R271). -/
structure HeldArr where
  ctx : Nat
  group : Nat
  mask : W32
  core : Nat
  eng : BitVec 7
  punnet : Nat
  part : Nat
deriving DecidableEq, Repr

/-- The synchronisation unit. -/
structure Syn where
  /-- Conjunction c of context x at key 512 x + c. -/
  conj : Tbl Conj := {}
  groups : Tbl Group := {}
  wires : Tbl Wire := {}
  trackers : Tbl Tracker := {}
  slots : Tbl CtxSlot := {}
  transit : List Signal := []
  waiters : List Waiter := []
  heldArr : List HeldArr := []
  /-- SYN_SHORT events per context, for the dump (R274). -/
  shortEv : Tbl Nat := {}
  selValid : Bool := false
  dumpBusy : Bool := false
deriving DecidableEq, Repr

/-! ## Host queues and contexts (12) -/

/-- A consumed command that has not committed (R287 to R291). -/
structure Cmd where
  op : Byte := 0
  event : Bool := false
  serial : Bool := false
  ctx : Nat := 0
  seq : W32 := 0
  mask : W32 := 0
  eng : Nat := 0
  tag : W16 := 0
  words : List W64 := []
  started : Bool := false
  /-- Cores whose engine has still to start, and cores whose engine has still to end. -/
  toStart : List Nat := []
  toEnd : List Nat := []
  /-- Status decided (R294); the command is ready to commit when `ready`. -/
  status : Nat := 0
  detail : W32 := 0
  faultEng : Option (BitVec 7) := none
  saturated : Bool := false
  short : Bool := false
  aborting : Bool := false
  ready : Bool := false
  /-- Order of consumption over the whole device (R297), and the ring index of its first entry. -/
  order : Nat := 0
  at_ : Nat := 0
  firstIssue : Option Nat := none
  /-- A BEGIN of the command has come (R360). -/
  begun : Bool := false
deriving DecidableEq, Repr

/-- Queue states of Q_STATUS. -/
inductive QSt | disabled | active | quiescing
deriving DecidableEq, Repr

/-- Abort results of Q_ABORT_STATUS. -/
inductive AbSt | none | pending | aborted | done | notFound
deriving DecidableEq, Repr

/-- A queue (R280 to R285); its RW registers are in the register file. -/
structure Queue where
  st : QSt := .disabled
  error : Nat := 0
  dbError : Bool := false
  head : Nat := 0
  tail : Nat := 0
  cqTail : Nat := 0
  cqHead : Nat := 0
  phase : Bool := true
  nextSeq : W32 := 0
  slot : Option Nat := none
  /-- It lost its queue slot (R285). -/
  evicted : Bool := false
  cmds : List Cmd := []
  committed : Nat := 0
  abSt : AbSt := .none
  abSeq : W32 := 0
  abRefused : Bool := false
  doorAt : Nat := 0
deriving DecidableEq, Repr

/-- A resident queue slot (R285, R286). -/
structure QSlot where
  valid : Bool := false
  fn : Trv := {}
  q : Nat := 0
  lastUse : Nat := 0
  since : Nat := 0
deriving DecidableEq, Repr

/-- A context descriptor (R296, R297). -/
structure Ctx where
  live : Bool := false
  fn : Nat := 0
  nounTable : Nat := 0
  log : Nat := 0
  save : Nat := 0
  saveSize : Nat := 0
  winBase : Nat := 0
  winSize : Nat := 0
  closing : Bool := false
  faulted : Bool := false
  /-- Its synchronisation records (R264), and its local-store windows (R204), have been saved to its save area. -/
  saved : Bool := false
  winSaved : Bool := false
  /-- A save failed (R298): reset when next made resident. -/
  saveLost : Bool := false
deriving DecidableEq, Repr

/-- A 16-byte completion record as sent (R293), and an MSI-X message (R295). -/
structure Msg where
  fn : Nat
  vector : Nat
deriving DecidableEq, Repr

/-- The host queue block. -/
structure HostQ where
  /-- Queue q of function f at key 64 f + q. -/
  queues : Tbl Queue := {}
  qslots : Tbl QSlot := {}
  ctxs : Tbl Ctx := {}
  order : Nat := 0
  use : Nat := 0
  vfEnable : Bool := false
  ptmOn : Bool := true
  atomicOn : Bool := true
  /-- HQ_CTX_LIMIT and the allotment registers as the capability table was written (R278). -/
  capRegs : List (Nat × W32) := []
  msix : List Msg := []
  tlb : List TlbEntry := []
  /-- Invalidations in progress: function to (first page, pages). -/
  inv : Tbl (Option (Nat × Nat)) := {}
deriving DecidableEq, Repr

/-! ## Scheduler (13) -/

/-- A partition's slice (R307 to R311). -/
structure PartSched where
  holder : Option Nat := none
  /-- Tenant charged while a handover runs. -/
  outgoing : Option Nat := none
  /-- The last tenant that held the slice: its group-barrier trackers stand (R271). -/
  last : Option Nat := none
  /-- The precedence tenant woke for a takeover while the partition was exhausted (R310). -/
  takeDue : Bool := false
  /-- Charges since the grant, 1/65,536 LU (R307). -/
  used : Int := 0
  grants : Nat := 0
  takeovers : Nat := 0
  preempts : Nat := 0
deriving DecidableEq, Repr

/-- A function's scheduling account (R306, R315, R316): deficit and energies in 1/65,536 LU. -/
structure FnSched where
  deficit : Int := 0
  active : Bool := false
  mxCyc : Nat := 0
  txCyc : Nat := 0
  teCyc : Nat := 0
  mxLu : Nat := 0
  txLu : Nat := 0
  teLu : Nat := 0
  otherLu : Int := 0
  /-- What of the engines' trimmed energies is below a unit, 1/16,384 of it. -/
  mxRem : Nat := 0
  txRem : Nat := 0
  teRem : Nat := 0
  slices : Nat := 0
  preempted : Nat := 0
deriving DecidableEq, Repr

structure Sched where
  parts : Tbl PartSched := {}
  fns : Tbl FnSched := {}
  /-- SCH_BUNCH_MAP.part_b (R375). -/
  bunch : Tbl Trv := {}
deriving DecidableEq, Repr

/-! ## Garka links (14) -/

/-- Port states and causes (R338). -/
inductive PortSt | fenced | training | up | down
deriving DecidableEq, Repr

/-- What a CONTROL flit says (R332, R338 to R340). -/
inductive Ctl
  | ident
  | fence
  | chipFailed (failed reporter : Nat)
  | creditSync
deriving DecidableEq, Repr

/-- A sequenced flit to send (R322): its kind (1 DATA, 2 STUB, 3 CONTROL), its 240 body bytes, and what the chip keeps
with it: function, destination and source chip of its message (R333), the transfer of this chip that it belongs to
(R326), the input port and VC whose receive slot it holds (R332), and the arrival time of a transit first flit. -/
structure Flit where
  kind : Nat := 1
  vc : Nat := 0
  first : Bool := false
  last : Bool := false
  body : List Byte := []
  ctl : Option Ctl := none
  fn : Nat := 0
  dst : Nat := 0
  src : Nat := 0
  xfer : Option (Nat × Nat) := none
  origin : Option (Nat × Nat) := none
  arrived : Option Nat := none
deriving DecidableEq, Repr

/-- A flit in the retry buffer (R323): its sequence number and how often it was sent. -/
structure Sent where
  seq : Nat := 0
  flit : Flit := {}
  tries : Nat := 1
deriving DecidableEq, Repr

/-- Where the flits of an incoming message go (R335). -/
inductive Route
  | eject
  | out (port : Nat)
  | drop
deriving DecidableEq, Repr

/-- A message that arrives on one input virtual channel (R327 to R329, R334). -/
structure Rx where
  vc : Nat := 0
  route : Route := .drop
  /-- Its transaction header (R325). -/
  hdr : List Byte := []
  /-- Index of the next flit of the message. -/
  idx : Nat := 0
  short : Bool := false
  /-- Accepted by R327; its range translated by R328 to the physical pieces `pa`. -/
  ok : Bool := false
  pa : Option (List (Nat × Nat)) := none
  /-- Function of the range, and whether an invalidation in progress covers what translated it (R214). -/
  fn : Nat := 0
  old : Bool := false
deriving DecidableEq, Repr

/-- A message waiting for or using an output virtual channel: the flits not sent yet, and for a transit message the
input port and VC it still arrives on. -/
structure TxMsg where
  vc : Nat := 0
  flits : List Flit := []
  begun : Bool := false
  from_ : Option (Nat × Nat) := none
deriving DecidableEq, Repr

/-- A Garka port. -/
structure Port where
  st : PortSt := .fenced
  cause : Nat := 1
  degraded : Bool := false
  partner : Option (BitVec 10 × BitVec 4) := none
  /-- Since when the steward's fence drains the port (R339). -/
  fenceAt : Option Nat := none
  /-- From when the second of R340 counts. -/
  since : Nat := 0
  /-- Next sequence number expected, and whether a nak for the present gap has been sent. -/
  expect : Nat := 0
  nakSent : Bool := false
  nextSeq : Nat := 0
  retry : List Sent := []
  /-- Consecutive failed transmissions (R333). -/
  fails : Nat := 0
  avail : List Nat := [128, 128, 128, 128]
  heldSlots : List Nat := [0, 0, 0, 0]
  /-- The incoming message of each VC; key 4 is the loop of a chip to itself. -/
  rx : Tbl Rx := {}
  /-- Ejected messages whose last flit has arrived, oldest first. -/
  whole : List Rx := []
  outq : List TxMsg := []
  ctlq : List Flit := []
  /-- Lane registers: [7:0] snr, [8] locked, [9] adapting, [31:16] corrected (R341). -/
  lanes : Tbl W32 := {}
  retries : Nat := 0
  fecCorr : Nat := 0
  /-- Chip time from which R323's 1 us counts: when the oldest unacknowledged flit was last sent or became oldest. -/
  ackWait : Nat := 0
  /-- Chip time of the last sequenced flit in either direction (R332). -/
  seqAt : Nat := 0
deriving DecidableEq, Repr

structure Link where
  ports : Tbl Port := {}
  getTag : Nat := 0
deriving DecidableEq, Repr

/-! ## Errors, monitors, trace (15) -/

/-- A function fault record (R347). -/
structure FltRec where
  num : Nat := 0
  code : Nat := 0
  sub : Nat := 0
  level : Nat := 0
  double : Bool := false
  parked : Bool := false
  eng : Option (BitVec 7) := none
  slot : Nat := 0
  q : Option Nat := none
  ctx : Option Nat := none
  count : Nat := 1
  seq : W32 := 0
  time : Nat := 0
  ledger : Nat := 0
  pc : Nat := 0
  va : Nat := 0
  mask : W32 := 0
  detail : Nat := 0
  block : Nat := 14
  inst : Nat := 0
deriving DecidableEq, Repr

/-- A function's fault log (R346). -/
structure FltLog where
  recs : List FltRec := []
  next : Nat := 0
  notified : Bool := false
  valid : Bool := false
  empty : Bool := false
  mbx : List Byte := []
  /-- Latest record written per (code, block, instance): its time and number (R345). -/
  last : List (Nat × Nat × Nat × Nat × Nat) := []
deriving DecidableEq, Repr

/-- A chip RAS log entry (R351). -/
structure RasEntry where
  num : Nat := 0
  code : Nat := 0
  sub : Nat := 0
  count : Nat := 1
  time : Nat := 0
  ledger : Nat := 0
  block : Nat := 0
  inst : Nat := 0
  detail : Nat := 0
deriving DecidableEq, Repr

structure Ras where
  /-- The latest 1,024 entries, newest first. -/
  log : List RasEntry := []
  /-- Latest record per (code, block, instance): with its time and number (R345). -/
  last : List (Nat × Nat × Nat × Nat × Nat) := []
  next : Nat := 0
  overwritten : Nat := 0
  valid : Bool := false
  gone : Bool := false
  mbx : List Byte := []
  irqDue : Bool := false
  irqAt : Option Nat := none
  flt : Tbl FltLog := {}
  /-- Parity mismatches detected and not yet repaired (R353). -/
  parity : List ParityHit := []
  /-- Registers of Charter origin left with a value that no shadow copy could replace (R57), by address. -/
  keep : Tbl (Option W32) := {}
deriving DecidableEq, Repr

/-- One monitor's results (R357). -/
structure Mon where
  min : W32 := 0xFFFFFFFF
  max : W32 := 0
  skip : Nat := 0
  bins : Tbl Nat := {}
  events : Nat := 0
  lastAt : Option Nat := none
  sat : Bool := false
deriving DecidableEq, Repr

structure Mons where
  mons : Tbl Mon := {}
  cnt : Tbl Nat := {}
  cntHi : Tbl W32 := {}
  ovf : W64 := 0
  frozen : Bool := false
  /-- The armed freeze source 3 or 4 has fired (R360). -/
  fire : Bool := false
  frTime : Nat := 0
  frLedger : Nat := 0
deriving DecidableEq, Repr

/-- A trace record (R364). -/
structure TrcRec where
  kind : Nat := 0
  b1 : Nat := 0
  ctx : Nat := 0
  cycles : Nat := 0
  time : Nat := 0
  ledger : Nat := 0
  fn : Nat := 0
  q : Nat := 0
  seq : W32 := 0
  outcome : Nat := 0
  flags : Nat := 0
  tag : W16 := 0
deriving DecidableEq, Repr

structure Trc where
  active : Bool := false
  full : Bool := false
  error : Bool := false
  lostFlag : Bool := false
  write : Nat := 0
  wraps : Nat := 0
  dropped : Nat := 0
  /-- FIFO of core n, oldest first, and its records lost since the last LOST record. -/
  fifo : Tbl (List TrcRec) := {}
  lost : Tbl Nat := {}
  /-- Bit 30 of each core's cycle count at its last SYNC check (R365). -/
  bit30 : Tbl Bool := {}
  /-- Cores whose LOST record is written and whose SYNC record waits for space (R366). -/
  syncDue : Tbl Bool := {}
  /-- The buffer has wrapped since trace was enabled: it is full of records. -/
  wrapped : Bool := false
  stopped : Bool := false
deriving DecidableEq, Repr

/-! ## Memory (09) -/

/-- An embedding sketch slot (R249): counter r x 2048 + c. -/
structure Sketch where
  cnt : Tbl Nat := {}
  dropped : Nat := 0
  defaulted : Nat := 0
  lookups : Nat := 0
  hits : Nat := 0
  busy : Bool := false
deriving DecidableEq, Repr

structure State where
  /-- Chip time, ns, 64 bits (R58, R391). -/
  time : Nat := 0
  boot : Boot := {}
  sb : Sideband := {}
  /-- The SPI NOR flash (R27): bytes that are not 0xFF. -/
  flash : List Host.Cell := []
  /-- The register file: RW fields, counters and captured values of every 32-bit register, by canonical address
  (steward BAR0 offset; function page f at 0x4000_0000 + f x 0x10_0000); unlisted registers hold their reset value. -/
  regs : List (Nat × W32) := []
  /-- The device physical memory (R200): HBM3E, commons, local store and what the device wrote to host memory. -/
  mem : List Host.Cell := []
  /-- Poisoned granules, by first byte address (R231). -/
  poison : List Nat := []
  gov : Gov := {}
  plt : Plant := {}
  cores : Tbl Core := {}
  syn : Syn := {}
  hq : HostQ := {}
  sch : Sched := {}
  lnk : Link := {}
  ras : Ras := {}
  mon : Mons := {}
  trc : Trc := {}
  sketch : Tbl Sketch := {}
  /-- MODEL'S OWN: index of the next free value (Config.lean). -/
  freeIdx : Nat := 0
  /-- MODEL'S OWN: the commands that wait, first in first out. -/
  pending : List Instr := []
deriving DecidableEq, Repr

/-- The machine before power is applied: OFF, every register at its reset value, memory with nothing listed. -/
def State.reset : State := {}

end Sys2Proof.Machine
end

