-- ==== Sys2Proof/WellFormed.lean ====
section
/-! DEFINITION. Which operands spell a command of their row: lists have the lengths the manual gives, words belong to
the row's opcodes. `exec` answers the fault `illFormed` on the others. -/

namespace Sys2Proof

/-- Opcodes of a thread row: none where the command is no thread row (R187). -/
def rowOps : Instr → Option (List Nat × W64)
  | .iadd _ _ w => some ([0x01, 0x81], w)
  | .isub _ _ w => some ([0x02, 0x82], w)
  | .imul _ _ w => some ([0x03, 0x83], w)
  | .imulhi _ _ w => some ([0x04, 0x84], w)
  | .imad _ _ w => some ([0x05], w)
  | .imin _ _ w => some ([0x06, 0x86], w)
  | .imax _ _ w => some ([0x07, 0x87], w)
  | .teAnd _ _ w => some ([0x08, 0x88], w)
  | .teOr _ _ w => some ([0x09, 0x89], w)
  | .teXor _ _ w => some ([0x0A, 0x8A], w)
  | .teShl _ _ w => some ([0x0B, 0x8B], w)
  | .teShr _ _ w => some ([0x0C, 0x8C], w)
  | .popc _ _ w => some ([0x0D], w)
  | .clz _ _ w => some ([0x0E], w)
  | .brev _ _ w => some ([0x0F], w)
  | .sel _ _ w => some ([0x10], w)
  | .mov _ _ w => some ([0x11], w)
  | .teMovi _ _ w => some ([0x91], w)
  | .icmp _ _ w => some ([0x12], w)
  | .teMovhi _ _ w => some ([0x13], w)
  | .fadd _ _ w => some ([0x20, 0xA0], w)
  | .fsub _ _ w => some ([0x21, 0xA1], w)
  | .fmul _ _ w => some ([0x22, 0xA2], w)
  | .ffma _ _ w => some ([0x23], w)
  | .fmin _ _ w => some ([0x24, 0xA4], w)
  | .fmax _ _ w => some ([0x25, 0xA5], w)
  | .fcmp _ _ w => some ([0x26], w)
  | .fdiv _ _ w => some ([0x27], w)
  | .fsqrt _ _ w => some ([0x28], w)
  | .frcp _ _ w => some ([0x29], w)
  | .frsq _ _ w => some ([0x2A], w)
  | .fexp2 _ _ w => some ([0x2B], w)
  | .flog2 _ _ w => some ([0x2C], w)
  | .fsin _ _ w => some ([0x2D], w)
  | .fcos _ _ w => some ([0x2E], w)
  | .cvt _ _ w => some ([0x30], w)
  | .pcomb _ _ w => some ([0x38], w)
  | .lpoll _ _ w => some ([0x39], w)
  | .xlane _ _ w => some ([0x3A], w)
  | .v2u _ _ w => some ([0x3B], w)
  | .rdsr _ _ w => some ([0x3C], w)
  | .ld _ _ w => some ([0x40], w)
  | .st _ _ w => some ([0x41], w)
  | .atom _ _ w => some ([0x42], w)
  | .fence _ _ w => some ([0x43], w)
  | .bra _ _ w => some ([0x50], w)
  | .call _ _ w => some ([0x51], w)
  | .brx _ _ w => some ([0x52], w)
  | .exit _ _ w => some ([0x53], w)
  | .teNop _ _ w => some ([0x54], w)
  | .trap _ _ w => some ([0x55], w)
  | .brk _ _ w => some ([0x56], w)
  | .barBlock _ _ w => some ([0x60], w)
  | .cjSig _ _ w => some ([0x61], w)
  | .cjWait _ _ w => some ([0x62], w)
  | .cjRead _ _ w => some ([0x63], w)
  | .teBwArrive _ _ w => some ([0x64], w)
  | .teBwWait _ _ w => some ([0x65], w)
  | .teGbArrive _ _ w => some ([0x66], w)
  | .teGbWait _ _ w => some ([0x67], w)
  | _ => none

/-- A flit of 256 bytes of kind `k` (R322). -/
def wfFlit (k : Nat) (b : List Byte) : Bool := b.length == 256 && fld (b.getD 0 0).toNat 0 4 == k

/-- Held slots of the four VCs (R332): at most 128 each. -/
def wfHeld (h : List Nat) : Bool := h.length == 4 && h.all (fun n => n ≤ 128)

/-- The reports of the eight lanes of a port (R341). -/
def wfLanes (l : List LaneInfo) (codewords corrected : Nat) : Bool := l.length == 8 && corrected ≤ codewords

/-- The order of the places where the governors may differ: channels before state fields, each from the lowest (R73). -/
def divRank : DivAt → Nat
  | .channel n => n.val
  | .field k => 32 + k.val

/-- What differs in one tick: at least one place, each once, in order. -/
def wfPlaces (l : List DivAt) : Bool := !l.isEmpty && rising (l.map (fun d => (divRank d, ())))

/-- The differences of one tick: the places `p` where the governors differ, with the values of A and of B. -/
def diffsOf (p : List DivAt) (a b : List Nat) : List Diff := (p.zip (a.zip b)).map (fun z => ⟨z.1, z.2.1, z.2.2⟩)

/-- The operands spell a command of the row. -/
def Instr.wf (i : Instr) : Bool :=
  match i with
  | .flashWrite _ bytes => 1 ≤ bytes.length && bytes.length ≤ 32
  | .governorTick t => t.est.length == 32
  | .telemetryWindowEnd tel => tel.regs.length == 8
  | .comparatorDivergence p a b =>
    wfPlaces p && a.length == p.length && b.length == p.length && (diffsOf p a b).all (fun d => d.a != d.b)
  | .latentDivergence ds => wfPlaces ds
  | .sensorPoll rd => rd.length == 8
  | .junctionRead rd => rd.length == 32
  | .i3cEnumerationDone l => l.length == 8
  | .creditSync _ h => wfHeld h
  | .laneDegradeCheck _ l n k => wfLanes l n k
  | .dataFlitReceive _ b _ => wfFlit 1 b
  | .idleFlit _ b _ => wfFlit 0 b
  | .stubReceive _ b _ => wfFlit 2 b
  | .registerWrite _ off bytes => 1 ≤ bytes.length && off + bytes.length ≤ 0x4000000
  | .commandConsume _ _ ws => ws.length == 8 * (1 + fld (ws.getD 0 0).toNat 10 2)
  | .patrolScrub (.mem pa) _ => pa < 2 ^ 52
  | .parityScan hits => hits.all (fun h => h.addr % 4 == 0)
  | i => match rowOps i with
    | some (ops, w) => teRow ops w
    | none => true

end Sys2Proof
end

