-- ==== Sys2Proof/Machine/Ops.lean ====
section
/-! DEFINITION. Shared operations: answers, the register file, memory bytes, error counters and logs (R342 to R354),
MSI-X messages, monitors, counters and trace records. -/

namespace Sys2Proof.Machine

abbrev Out := Host.Outcome State Fault Refusal

/-- A command's answer: `t` is the state its meaning leaves from `s`. The queue, the flash, chip time, start-up and
the sideband stand as they were; the free-value counter moves on. Rows that change one of those answer through
`doneBoot`, `doneFlash` or `doneTime`. -/
def done (s t : State) : Out :=
  .next { t with pending := s.pending, flash := s.flash, time := s.time, boot := s.boot, sb := s.sb,
                 freeIdx := s.freeIdx + 1 }

/-- As `done`, for the rows of start-up, pins and the sideband bridge. -/
def doneBoot (s t : State) : Out :=
  .next { t with pending := s.pending, flash := s.flash, freeIdx := s.freeIdx + 1 }

/-- As `done`, for the row that changes the flash. -/
def doneFlash (s t : State) : Out :=
  .next { s with flash := t.flash, sb := t.sb, freeIdx := s.freeIdx + 1 }

/-- As `done`, for the governor tick, which moves chip time. -/
def doneTime (s t : State) : Out :=
  .next { t with pending := s.pending, flash := s.flash, boot := s.boot, sb := s.sb, freeIdx := s.freeIdx + 1 }

/-- The command's operands spell no command of its row. -/
def bad (mn : String) : Out := .fault (.illFormed mn)

/-! ## Register file -/

/-- Canonical address of offset `off` of core `n`'s window (R371). -/
def coreA (n off : Nat) : Nat := 0x01000000 + n * 0x40000 + off
/-- Canonical address of offset `off` of function `f`'s page (R372). -/
def fpA (f off : Nat) : Nat := 0x40000000 + f * 0x100000 + off
/-- Register `k` (a 4-byte step) of queue `q` of function `f` (R284). -/
def qA (f q k : Nat) : Nat := fpA f (0x10000 + 0x80 * q + 4 * k)

/-- Address of register k of sketch slot n (EMB), MMU page of f, allotment k of f, accounting of f. -/
def embA (n k : Nat) : Nat := 0x02001000 + 0x20 * n + 4 * k
def mmuA (f k : Nat) : Nat := 0x00200000 + 0x100 * f + 4 * k
def allotA (f k h : Nat) : Nat := 0x00208000 + 0x80 * f + 8 * k + 4 * h

/-- Reset value of a register kept in the register file (R377): zero but for TRC_SIZE, HQ_CTX_LIMIT (32), MSI-X vector control, which
is masked (PRESUMED, as PCIe states), and the enable of the L1 (R228). -/
def resetVal (a : Nat) : W32 :=
  if a = 0x00700010 then 16
  else if 0x00040200 ≤ a ∧ a < 0x00040400 then 32
  else if a ≥ 0x40000000 ∧ (a % 0x100000) / 0x400 = 0x100 ∧ a % 16 = 12 then 1
  else if 0x01000000 ≤ a ∧ a < 0x01800000 ∧ a % 0x40000 = 0x600 then 1
  else 0

/-- The value a register holds. -/
def rd (s : State) (a : Nat) : W32 := (look s.regs a).getD (resetVal a)

/-- The register file with `v` at `a`; a register at its reset value is not listed. -/
def putReg (r : List (Nat × W32)) (a : Nat) (v : W32) : List (Nat × W32) :=
  if v = resetVal a then delKey r a else addKey r a v

def wr (s : State) (a : Nat) (v : W32) : State := { s with regs := putReg s.regs a v }

/-- Field [lo+len-1:lo] of a register. -/
def rdF (s : State) (a lo len : Nat) : Nat := fld (rd s a).toNat lo len
def rdB (s : State) (a i : Nat) : Bool := (rd s a).toNat.testBit i

/-- A word with field [lo+len-1:lo] replaced. -/
def setFld (w lo len v : Nat) : Nat := w - (fld w lo len) * 2 ^ lo + (v % 2 ^ len) * 2 ^ lo

def wrF (s : State) (a lo len v : Nat) : State := wr s a (BitVec.ofNat 32 (setFld (rd s a).toNat lo len v))

/-- Adds `n` to a saturating field (R344). -/
def incF (s : State) (a lo len n : Nat) : State := wrF s a lo len (Nat.min (rdF s a lo len + n) (2 ^ len - 1))

/-- Adds one to a 16-bit error counter (R344). -/
def inc16 (s : State) (a : Nat) : State := incF s a 0 16 1

/-- Adds `n` to a 32-bit wrapping counter. -/
def inc32 (s : State) (a n : Nat) : State := wr s a (BitVec.ofNat 32 ((rd s a).toNat + n))

/-- Removes every register of a range from the file: each takes its reset value. -/
def clearRegs (s : State) (lo hi : Nat) : State :=
  { s with regs := s.regs.filter (fun p => !(lo ≤ p.1 && p.1 < hi)) }

/-- Two 32-bit registers as one number. -/
def rd64 (s : State) (lo hi : Nat) : Nat := (rd s lo).toNat + 2 ^ 32 * (rd s hi).toNat

/-! ## Parts of the state -/

def State.core (s : State) (c : Nat) : Core := s.cores.get {} c
def State.setCore (s : State) (c : Nat) (x : Core) : State := { s with cores := s.cores.put {} c x }
def State.eng (s : State) (c : Nat) (e : CE) : ClEng := match e with | .mx => (s.core c).mx | .tx => (s.core c).tx
def Core.setEng (x : Core) (e : CE) (y : ClEng) : Core := match e with | .mx => { x with mx := y } | .tx => { x with tx := y }
def Core.eng (x : Core) (e : CE) : ClEng := match e with | .mx => x.mx | .tx => x.tx
def State.setEng (s : State) (c : Nat) (e : CE) (y : ClEng) : State := s.setCore c ((s.core c).setEng e y)
def State.te (s : State) (c : Nat) : Te := (s.core c).te
def State.setTe (s : State) (c : Nat) (t : Te) : State := s.setCore c { s.core c with te := t }
def State.pun (s : State) (c p : Nat) : Punnet := (s.te c).pun.get {} p
def State.setPun (s : State) (c p : Nat) (x : Punnet) : State :=
  s.setTe c { s.te c with pun := (s.te c).pun.put {} p x }
def State.queue (s : State) (f q : Nat) : Queue := s.hq.queues.get {} (64 * f + q)
def State.setQueue (s : State) (f q : Nat) (x : Queue) : State :=
  { s with hq := { s.hq with queues := s.hq.queues.put {} (64 * f + q) x } }
def State.ctx (s : State) (x : Nat) : Ctx := s.hq.ctxs.get {} x
def State.setCtx (s : State) (x : Nat) (c : Ctx) : State := { s with hq := { s.hq with ctxs := s.hq.ctxs.put {} x c } }
def State.port (s : State) (g : Nat) : Port := s.lnk.ports.get {} g
def State.setPort (s : State) (g : Nat) (p : Port) : State := { s with lnk := { s.lnk with ports := s.lnk.ports.put {} g p } }
def State.fnS (s : State) (f : Nat) : FnSched := s.sch.fns.get {} f
def State.setFnS (s : State) (f : Nat) (x : FnSched) : State := { s with sch := { s.sch with fns := s.sch.fns.put {} f x } }
def State.partS (s : State) (p : Nat) : PartSched := s.sch.parts.get {} p
def State.setPartS (s : State) (p : Nat) (x : PartSched) : State := { s with sch := { s.sch with parts := s.sch.parts.put {} p x } }
def State.acct (s : State) (p : Nat) : PartAcct := s.gov.parts.get {} p
def State.setAcct (s : State) (p : Nat) (x : PartAcct) : State := { s with gov := { s.gov with parts := s.gov.parts.put {} p x } }
def State.conj (s : State) (x c : Nat) : Conj := s.syn.conj.get {} (512 * x + c)
def State.setConj (s : State) (x c : Nat) (v : Conj) : State :=
  { s with syn := { s.syn with conj := s.syn.conj.put {} (512 * x + c) v } }
def State.charter (s : State) : Charter := s.boot.charter

/-- The device takes work: READY or LIMP (R44, R50). -/
def State.isUp (s : State) : Bool := (s.boot.dev == .ready || s.boot.dev == .limp) && s.boot.fatal.isNone

/-- Engine identifier (R6). -/
def engId (c : Nat) (e : Eng) : BitVec 7 :=
  BitVec.ofNat 7 (4 * c + match e with | .mx => 0 | .tx => 1 | .te => 2)

def CE.eng : CE → Eng | .mx => .mx | .tx => .tx

/-- Bunch of core n (R15). -/
def bunchOf (c : Nat) : Nat := 4 * (c / 16) + (c % 8) / 2

/-- Folds `f` over the numbers below `n`. -/
def upTo {α : Type} (n : Nat) (a : α) (f : α → Nat → α) : α := (List.range n).foldl f a

/-- The work ledger's bits [47:0]. -/
def ledger (s : State) : Nat := s.gov.work % 2 ^ 48

/-! ## Memory bytes -/

/-- Commons and local stores: the on-package SRAM (R200). -/
def isSram (a : Nat) : Bool :=
  (0x4000000000 ≤ a && a < 0x4010000000) || (0x4100000000 ≤ a && a < 0x4120000000)
/-- HBM3E (R200). -/
def isHbm (a : Nat) : Bool := a < 0x3000000000
/-- Host memory (R200). -/
def isHost (a : Nat) : Bool := 0x8000000000000 ≤ a && a < 0x10000000000000
def isCommons (a : Nat) : Bool := 0x4000000000 ≤ a && a < 0x4010000000
def isLocal (a : Nat) : Bool := 0x4100000000 ≤ a && a < 0x4120000000

/-- The byte at a physical address. SRAM reads 0 where nothing is listed (it is cleared at start-up, R44 step 6); a byte
of HBM3E or host memory that is not listed is a free value (R201). -/
def memByte (s : State) (a : Nat) : Byte :=
  match look s.mem a with
  | some b => b
  | none => if isSram a then 0 else Config.undefByte s.freeIdx a

/-- The canonical form of the memory list: rising addresses, and no SRAM byte listed as 0. -/
def Memory.wf (m : List Host.Cell) : Bool := rising m && m.all (fun c => !(isSram c.1 && c.2 == 0))

/-- The memory list with byte `b` at `a`. -/
def Memory.put (m : List Host.Cell) (a : Nat) (b : Byte) : List Host.Cell :=
  if isSram a && b == 0 then delKey m a else addKey m a b

/-- `n` bytes from physical address `a` on. -/
def memBytes (s : State) (a n : Nat) : List Byte := (List.range n).map (fun i => memByte s (a + i))

/-- First byte of the protection granule of an address: 8 bytes in SRAM, 32 bytes in HBM3E (R231). -/
def granule (a : Nat) : Nat := if isSram a then a / 8 * 8 else a / 32 * 32
def granLen (a : Nat) : Nat := if isSram a then 8 else 32

/-- Some byte of the range lies in a poisoned granule (R231). -/
def poisoned (s : State) (a n : Nat) : Bool :=
  s.poison.any (fun g => g < a + n && a < g + granLen g)

/-- The granule of `x` is poisoned, and a write of `n` bytes at `a` does not cover it (R231). -/
def keepsPoison (s : State) (a n x : Nat) : Bool :=
  s.poison.contains (granule x) && !(a ≤ granule x && granule x + granLen x ≤ a + n)

/-- The memory list with the bytes of `bs` written that `skip` does not name. -/
def Memory.putsBut (skip : Nat → Bool) (m : List Host.Cell) (a : Nat) : List Byte → List Host.Cell
  | [] => m
  | b :: r => Memory.putsBut skip (if skip a then m else Memory.put m a b) (a + 1) r

/-- Writes bytes. A granule that the write covers completely is clean again; a poisoned granule covered only in part
stays poisoned and takes none of the bytes (R231, R232). -/
def memWrite (s : State) (a : Nat) (bs : List Byte) : State :=
  { s with mem := Memory.putsBut (keepsPoison s a bs.length) s.mem a bs,
           poison := s.poison.filter (fun g => !(a ≤ g && g + granLen g ≤ a + bs.length)) }

/-- Poisons the granules of a range (R231). -/
def poisonRange (s : State) (a n : Nat) : State :=
  { s with poison := (List.range n).foldl (fun l i =>
      if l.contains (granule (a + i)) then l else granule (a + i) :: l) s.poison }

/-! ## MSI-X (R295) -/

/-- Sends vector `v` of function `f`, or sets its pending bit where the vector is masked. -/
def msix (s : State) (f v : Nat) : State :=
  if rdB s (fpA f (0x40000 + 16 * v + 12)) 0 then wrF s (fpA f (0x41000 + 4 * (v / 32))) (v % 32) 1 1
  else { s with hq := { s.hq with msix := s.hq.msix ++ [⟨f, v⟩] } }

/-! ## Error counters and logs (R342 to R352) -/

/-- RAS_COUNT_code (R342). -/
def rasCount (s : State) (code : Nat) : State :=
  let a := 0x00800100 + 4 * (code - 0x40)
  let s1 := if rdF s a 0 16 + 1 ≥ 0xFFFF then wrF s 0x00800000 1 1 1 else s
  inc16 s1 a

/-- Milliseconds in nanoseconds. -/
def ms : Nat := 1000000

/-- Time and number of the latest record of a code, block and instance in a list of such. -/
def lastRec (l : List (Nat × Nat × Nat × Nat × Nat)) (code block inst : Nat) : Option (Nat × Nat) :=
  match l.find? (fun r => r.1 == code && r.2.1 == block && r.2.2.1 == inst) with
  | some r => some r.2.2.2
  | none => none

/-- The list with the latest record of a code, block and instance noted. -/
def noteRec (l : List (Nat × Nat × Nat × Nat × Nat)) (code block inst time num : Nat) :
    List (Nat × Nat × Nat × Nat × Nat) :=
  (code, block, inst, time, num) :: l.filter (fun r => !(r.1 == code && r.2.1 == block && r.2.2.1 == inst))

/-- An entry for the chip RAS log, with R345's coalescing (R351). -/
def chipEntry (s : State) (code sub block inst detail : Nat) : State :=
  let r := s.ras
  let fresh : State :=
    let e : RasEntry := { num := r.next, code := code, sub := sub, time := s.time, ledger := ledger s,
                          block := block, inst := inst, detail := detail }
    { s with ras := { r with
        log := (e :: r.log).take 1024
        next := (r.next + 1) % 2 ^ 32
        overwritten := if r.log.length ≥ 1024 then (r.overwritten + 1) % 2 ^ 32 else r.overwritten
        last := noteRec r.last code block inst s.time r.next
        irqDue := true } }
  match lastRec r.last code block inst with
  | some (t, n) =>
    if s.time ≤ t + ms then
      { s with ras := { r with log := r.log.map (fun e =>
          if e.num = n then { e with count := Nat.min (e.count + 1) 0xFFFF } else e) } }
    else fresh
  | none => fresh

/-- Counts an event of a chip code and writes its entry (R342). -/
def chipErr (s : State) (code sub block inst detail : Nat) : State :=
  chipEntry (rasCount s code) code sub block inst detail

def State.flt (s : State) (f : Nat) : FltLog := s.ras.flt.get {} f
def State.setFlt (s : State) (f : Nat) (l : FltLog) : State :=
  { s with ras := { s.ras with flt := s.ras.flt.put {} f l } }

/-- A record for function `f`'s fault log that takes a new number (R346, R350). -/
def fnNew (s : State) (f : Nat) (r : FltRec) : State :=
  let l := s.flt f
  let r' := { r with num := l.next, time := s.time, ledger := ledger s }
  let l1 := { l with next := (l.next + 1) % 65536,
                     last := noteRec l.last r.code r.block r.inst s.time l.next }
  if l.recs.length ≥ 64 then inc16 (s.setFlt f l1) (fpA f 0x20008)
  else
    let s1 := s.setFlt f { l1 with recs := l.recs ++ [r'] }
    if rdB s (fpA f 0x20000) 0 && !l.notified then
      msix (s1.setFlt f { l1 with recs := l.recs ++ [r'], notified := true }) f (rdF s (fpA f 0x20000) 8 6)
    else s1

/-- A record of a code that coalesces (R345). -/
def fnCoal (s : State) (f : Nat) (r : FltRec) : State :=
  let l := s.flt f
  match lastRec l.last r.code r.block r.inst with
  | some (t, n) =>
    if s.time ≤ t + ms then
      s.setFlt f { l with recs := l.recs.map (fun e =>
        if e.num = n ∧ e.code = r.code then { e with count := Nat.min (e.count + 1) 0xFFFF } else e) }
    else fnNew s f r
  | none => fnNew s f r

/-- The function error counter of an engine-fault code (R342): which FN_ERR register. -/
def fnErrA (f code : Nat) : Nat :=
  fpA f (if code = 0x02 then 0x30804 else if code = 0x03 then 0x30808 else 0x30800)

/-- Counts and records an engine fault (class F) of function `f` (R342, R345). TRANSLATION is also counted in the
function's MMU_FAULT_COUNT. -/
def engineFault (s : State) (f : Nat) (r : FltRec) : State :=
  let s1 := inc16 s (fnErrA f r.code)
  let s2 := if r.code = 0x02 then inc16 s1 (mmuA f 6) else s1
  fnNew s2 f r

/-! ## Plant losses (R102) -/

/-- Raises SENSOR_LOST for a loss whose bit of PLT_SENSOR_LOST is `b` (R48, R102). -/
def raiseLoss (s : State) (b : Nat) : State :=
  chipErr (inc16 (wrF s 0x00030004 b 1 1) 0x00030008) 0x44 0 2 0 0

/-- The bit of a loss in PLT_SENSOR_LOST. -/
def lossBit : Loss → Nat
  | .feedAdc => 0 | .resAdc => 1 | .conv => 2 | .pumpTach => 3 | .flow => 4 | .inletAll => 5 | .outletAll => 6
  | .temp _ => 7 | .pmbus _ => 8 | .avsbus _ => 9 | .junction _ => 10

/-- A loss is in effect. -/
def lossOn (s : State) (l : Loss) : Bool := s.plt.active.contains l

/-- Puts a loss response in effect. -/
def activate (s : State) (l : Loss) : State :=
  { s with plt := { s.plt with active := if s.plt.active.contains l then s.plt.active else s.plt.active ++ [l] } }

/-! ## Monitors, event counters (R355 to R359) -/

/-- The MON block runs: allowed by the Charter and not frozen. -/
def monRuns (s : State) : Bool := s.charter.dbgMonitors && !s.mon.frozen

/-- Adds `n` occurrences of an event to every counter that counts it (R358, R359). -/
def monEvent (s : State) (ev inst n : Nat) : State :=
  if !monRuns s then s else
  upTo 64 s (fun t k =>
    let cfg := rd t (0x00604000 + 0x10 * k)
    if cfg.toNat.testBit 31 && fld cfg.toNat 0 6 == ev && (cfg.toNat.testBit 15 || fld cfg.toNat 8 7 == inst) then
      let v := t.mon.cnt.get 0 k + n
      { t with mon := { t.mon with
          cnt := t.mon.cnt.put 0 k (v % 2 ^ 64)
          ovf := if v ≥ 2 ^ 64 then t.mon.ovf ||| (1#64 <<< k) else t.mon.ovf } }
    else t)

/-- The bin of a sample (R357). -/
def monBin (v sh : Nat) : Nat :=
  if v < 2 ^ sh then 0
  else (List.range 14).foldl (fun b i => if 2 ^ (i + 1 + sh) ≤ v then i + 2 else b) 1

/-- A monitor with sample `v` added (R357). -/
def Mon.add (m : Mon) (v sh : Nat) : Mon :=
  let w := BitVec.ofNat 32 (Nat.min v 0xFFFFFFFF)
  let b := monBin w.toNat sh
  let n := Nat.min (m.bins.get 0 b + 1) (2 ^ 48 - 1)
  { m with min := if w < m.min then w else m.min
           max := if m.max < w then w else m.max
           bins := m.bins.put 0 b n
           sat := m.sat || n == 2 ^ 48 - 1 }

/-- A sample of a source for every monitor that takes it (R356, R357). `level` sources take every sample; of an event
source a monitor considers each 2^d-th event, and one sample per two monitor-clock cycles (4 ns). -/
def monSample (s : State) (level : Bool) (src inst v : Nat) : State :=
  if !monRuns s then s else
  upTo 64 s (fun t k =>
    let cfg := rd t (0x00600000 + 0x100 * k)
    let one := src == 10 || src == 11
    if cfg.toNat.testBit 31 && fld cfg.toNat 0 6 == src && (one || fld cfg.toNat 8 7 == inst) then
      let m := t.mon.mons.get {} k
      let sh := fld cfg.toNat 24 5
      let m' : Mon :=
        if level then m.add v sh
        else
          let e := m.events + 1
          let m1 := { m with events := e % 2 ^ (fld cfg.toNat 16 3) }
          if e % 2 ^ (fld cfg.toNat 16 3) ≠ 0 then m1
          else if m.lastAt.any (fun t0 => s.time < t0 + 4) then { m1 with skip := (m1.skip + 1) % 2 ^ 64 }
          else { m1.add v sh with lastAt := some s.time }
      { t with mon := { t.mon with mons := t.mon.mons.put {} k m' } }
    else t)

/-! ## Freeze (R360, R361) and trace (R362 to R366) -/

/-- Trace runs: enabled, allowed by the Charter, not stopped by a freeze (R361, R362). -/
def trcRuns (s : State) : Bool :=
  rdB s 0x00700000 0 && s.charter.dbgTrace && !s.trc.stopped

/-- A record of core `c` enters its FIFO, or is lost (R366). COMMIT and FREEZE records belong to no core: they wait in a
list of their own, key 32, and none is lost (log entry 28). -/
def trcPush (s : State) (c : Nat) (r : TrcRec) : State :=
  let q := s.trc.fifo.get [] c
  if q.length ≥ 64 ∧ c < 32 then
    monEvent { s with trc := { s.trc with dropped := (s.trc.dropped + 1) % 2 ^ 64, lostFlag := true,
                                          lost := s.trc.lost.put 0 c (s.trc.lost.get 0 c + 1) } } 19 0 1
  else { s with trc := { s.trc with fifo := s.trc.fifo.put [] c (q ++ [r]) } }

/-- A SYNC record of core `c` (R364, R365). -/
def syncRec (s : State) (c : Nat) : TrcRec :=
  { kind := 6, b1 := c, cycles := (s.core c).cycles, time := s.time, ledger := ledger s,
    seq := BitVec.ofNat 32 ((s.core c).cycles / 2 ^ 32) }

/-- The function's trace bit is set (R363). -/
def trcFn (s : State) (f : Nat) : Bool := rdB s (0x00700040 + 4 * (f / 32)) (f % 32)

/-- Freezes the MON block (R361). -/
def freeze (s : State) : State :=
  if s.mon.frozen then s else
  let s1 := { s with mon := { s.mon with frozen := true, fire := false, frTime := s.time, frLedger := ledger s } }
  let s2 := wrF s1 0x00604800 3 1 0
  if rdB s2 0x00604800 7 then
    let s3 := if trcRuns s2 then
        trcPush s2 32 { kind := 8, time := s.time, ledger := ledger s }
      else s2
    { s3 with trc := { s3.trc with stopped := true } }
  else s2

/-- The armed freeze source `src` fires (R360); FREEZE_TRIGGER then freezes. -/
def freezeFrom (s : State) (src : Nat) : State :=
  if s.charter.dbgMonitors && rdB s 0x00604800 3 && rdF s 0x00604800 0 3 == src then
    { s with mon := { s.mon with fire := true } }
  else s


/-- `r` names the consumed command `c`, which is still running. -/
def CmdRef.hits (r : CmdRef) (c : Cmd) : Bool := c.seq == r.seq && !c.ready

/-- The consumed command that `r` names. -/
def CmdRef.find (s : State) (r : CmdRef) : Option Cmd := (s.queue r.fn r.q).cmds.find? r.hits

/-- Byte 0x1D of an END record: the command's short and saturated flags so far (R364). -/
def endFlags (s : State) (r : CmdRef) : Nat :=
  match r.find s with
  | some k => (if k.short then 1 else 0) + if k.saturated then 2 else 0
  | none => 0

/-- Notes that a BEGIN of the command has come; the first one of the matched command fires freeze source 3 (R360). -/
def noteBegin (s : State) (r : CmdRef) : State :=
  let q := s.queue r.fn r.q
  let s1 := s.setQueue r.fn r.q { q with cmds := q.cmds.map (fun k => if r.hits k then { k with begun := true } else k) }
  if rdF s 0x0060480C 0 7 = r.fn ∧ rdF s 0x0060480C 8 6 = r.q ∧ rd s 0x00604804 = r.seq
      ∧ !((r.find s).any (·.begun)) then freezeFrom s1 3
  else s1

/-- A BEGIN, END, SAVE, RESTORE record of a command on an engine (R363, R364). -/
def trcEng (s : State) (kind c : Nat) (e : Eng) (ctx : Nat) (r : CmdRef) (tag : W16) (outcome : Nat) : State :=
  let s1 :=
    if trcRuns s && trcFn s r.fn && rdB s 0x00700000 (2 + match e with | .mx => 0 | .tx => 1 | .te => 2) then
      trcPush s c { kind := kind, b1 := (engId c e).toNat + 128, ctx := ctx, cycles := (s.core c).cycles,
                    time := s.time, ledger := ledger s, fn := r.fn, q := r.q, seq := r.seq, outcome := outcome,
                    flags := if kind = 2 then endFlags s r else 0, tag := tag }
    else s
  if kind = 1 then noteBegin s1 r else s1

/-- A COMMIT record (R363). -/
def trcCommit (s : State) (ctx : Nat) (r : CmdRef) (tag : W16) (status flags : Nat) : State :=
  if trcRuns s && trcFn s r.fn && rdB s 0x00700000 5 then
    trcPush s 32 { kind := 5, ctx := ctx, time := s.time, ledger := ledger s, fn := r.fn, q := r.q, seq := r.seq,
                   outcome := status, flags := flags, tag := tag }
  else s

end Sys2Proof.Machine
end

