-- ==== Sys2Proof/Machine/SchedOps.lean ====
section
/-! DEFINITION. Partitions, tenants and activity (R15, R19, R303 to R305), the clock of each core (R96), shared by the
governors, the scheduler and the engines. -/

namespace Sys2Proof.Machine

/-- The value a triplicated field reads and has: the vote of its copies, or the last value two copies agreed on
(R354). -/
def Trv.vote (t : Trv) : Nat :=
  if t.c0 = t.c1 ∨ t.c0 = t.c2 then t.c0 else if t.c1 = t.c2 then t.c1 else t.agreed

/-- The partition of bunch `b`, voted (R375). -/
def bunchPart (s : State) (b : Nat) : Nat := (s.sch.bunch.get {} b).vote

def partOfCore (s : State) (c : Nat) : Nat := bunchPart s (bunchOf c)

/-- The cores of partition `p`. -/
def coresOf (s : State) (p : Nat) : List Nat := (List.range 32).filter (fun c => partOfCore s c == p)

def tenant (s : State) (f : Nat) : Tenant := s.charter.tenants.get {} f

/-- Function `f` is a tenant of partition `p` (R303). -/
def isTenant (s : State) (p f : Nat) : Bool := (tenant s f).enable && (tenant s f).part == p

/-- The tenants of partition `p` in function order. -/
def tenantsOf (s : State) (p : Nat) : List Nat :=
  (s.charter.tenants.entries.filter (fun k => k.2.enable && k.2.part == p)).map (·.1)

/-- Field [lo+len-1:lo] of a register of Charter origin: what the register holds where no shadow copy could repair it
(R57), else `v`. -/
def keptFld (s : State) (a lo len v : Nat) : Nat :=
  match s.ras.keep.get none a with | some w => fld w.toNat lo len | none => v

/-- The precedence tenant of partition `p`: the largest weight, then the lowest number (R304). -/
def precedence (s : State) (p : Nat) : Option Nat :=
  if (s.ras.keep.get none (0x00300000 + 0x20 * p)).isSome then some (keptFld s (0x00300000 + 0x20 * p) 8 7 0) else
  (tenantsOf s p).foldl (fun best f => match best with
    | none => some f
    | some g => if (tenant s g).weight < (tenant s f).weight then some f else best) none

def ClEng.busy (e : ClEng) : Bool := e.st != .idle

/-- The function whose command a TE executes, if any. -/
def Te.owner (t : Te) : Option Nat :=
  match t.grid with
  | some g => some g.fn
  | none => match t.blocks with
    | b :: _ => some b.cmd.fn
    | [] => none

/-- A punnet is resident (R315). -/
def Te.hasPunnet (t : Te) : Bool := (List.range 64).any (fun p => (t.pun.get {} p).resident)

/-- The function whose gleaning pass the core's MX runs, if any. -/
def Core.glOwner (x : Core) : Option Nat := x.glPass.map (·.fn)

/-- An engine of core `x` executes a command of function `f`. -/
def Core.runs (x : Core) (f : Nat) : Bool :=
  (x.mx.busy && x.mx.fn == f) || (x.tx.busy && x.tx.fn == f) || x.te.owner == some f || x.glOwner == some f

/-- An engine of core `x` executes some command. -/
def Core.busy (x : Core) : Bool := x.mx.busy || x.tx.busy || x.te.owner.isSome || x.glPass.isSome

/-- Preemption buffer content in bytes awaiting write-out (R313). -/
def Core.preUsed (x : Core) : Nat :=
  (x.streams.map (·.bytes)).sum + (x.te.saved.map (·.bytes)).sum + (x.glSaved.map (·.bytes)).sum

/-- Core `x` holds a saved stream of function `f` (R305). -/
def Core.saves (x : Core) (f : Nat) : Bool :=
  x.streams.any (fun v => v.eng.fn == f) || x.te.saved.any (fun v => v.fn == f) || x.glSaved.any (fun w => w.fn == f)

/-- One of function `f`'s queues has an unconsumed entry. -/
def hasUnconsumed (s : State) (f : Nat) : Bool :=
  s.hq.queues.entries.any (fun k => k.1 / 64 == f && k.2.st == .active && k.2.head != k.2.tail)

/-- A consumed command of function `f` has not started. -/
def hasWaiting (s : State) (f : Nat) : Bool :=
  s.hq.queues.entries.any (fun k => k.1 / 64 == f && k.2.cmds.any (fun c => !c.started))

/-- A gleaning request of function `f` waits on core `x` for its pass: a consumed command that no engine has started
(R305, R151). -/
def Core.gleans (x : Core) (f : Nat) : Bool :=
  x.glean.any (fun w => w.fn == f && !w.reqs.isEmpty) || x.glQueue.any (fun w => w.fn == f && !w.reqs.isEmpty)

/-- Function `f` is active (R305). -/
def isActive (s : State) (f : Nat) : Bool :=
  hasUnconsumed s f || hasWaiting s f
    || (List.range 32).any (fun c => (s.core c).runs f || (s.core c).saves f || (s.core c).gleans f)

/-- Partition `p` has a command waiting for dispatch or an engine executing (R68, GOV_PART_STAT.busy). DESIGN CHOICE (log
entry 117): a command waits for dispatch when it has been consumed and no engine has started it; entries not consumed,
gleaning requests in a window and saved streams keep no epoch open. -/
def partBusy (s : State) (p : Nat) : Bool :=
  (tenantsOf s p).any (hasWaiting s) || (coresOf s p).any (fun c => (s.core c).busy)

/-- Partition `p`'s budget in LU and its carry cap (R65). -/
def budgetOf (s : State) (p : Nat) : Nat := keptFld s (0x00020100 + 0x10 * p) 0 17 (s.charter.budget.getD p 0)
/-- Slice length of partition `p` in LU (R307). -/
def sliceLen (s : State) (p : Nat) : Nat := keptFld s (0x00300004 + 0x20 * p) 0 17 (s.charter.slice.getD p 0)
def carryCap (s : State) (p : Nat) : Nat := budgetOf s p / 4

/-- spent_p has reached the allowance (R66). -/
def exhaustedNow (s : State) (p : Nat) : Bool :=
  p < s.charter.partCount && (budgetOf s p : Int) * 65536 + (s.acct p).carry ≤ (s.acct p).spent

/-- Channel 3 of partition `p` as it stands: held during a resynchronisation (R75). DESIGN CHOICE (log entry 29): work that
runs when its partition becomes exhausted runs on (R66, R310); the edge case of 01 that holds it at its next boundary is
not followed. -/
def gateClosed (s : State) (p : Nat) : Bool :=
  exhaustedNow s p || match s.gov.held with | some h => h.exhausted.testBit p | none => false

/-- The tenant charged for partition `p`: the outgoing one while a handover runs (R311). -/
def chargedTenant (s : State) (p : Nat) : Option Nat :=
  match (s.partS p).outgoing with | some f => some f | none => (s.partS p).holder

/-- The tenant whose counts take a tick's charge (R316). DESIGN CHOICE (log entry 118): while nobody holds the slice, the last
tenant that did, and before the first grant the precedence tenant. -/
def accountedTenant (s : State) (p : Nat) : Option Nat :=
  match chargedTenant s p with
  | some f => some f
  | none => match (s.partS p).last with | some f => some f | none => precedence s p

/-! ## Clocks -/

/-- Bunch `b`'s core rail is not trimmed, or its trim is held: 1,500 MHz at most (R88, R89). -/
def railCapped (s : State) (b : Nat) : Bool := s.charter.regAddr.getD b 0 == 0 || 3 ≤ s.gov.a.nak.get 0 b

/-- The valid temperatures of a role's sensors. -/
def roleTemps (s : State) (role : Nat) : List Int :=
  (List.range 8).filterMap (fun i =>
    let x := s.plt.sensors.get {} i
    if (s.charter.sensors.getD i (0, 0)).2 == role && x.valid then some x.temp else none)

/-- The inlet temperature in use, 1/16 C: the maximum of the valid inlet sensors, 60 C in LIMP and where none is valid
(R51, R96, R102). -/
def inletUse (s : State) : Int :=
  match roleTemps s 1 with
  | [] => 960
  | t :: r => if s.charter.isLimp || s.plt.active.contains .inletAll then 960 else r.foldl max t

/-- The part's rated maximum inlet, 1/16 C (R95). -/
def inletRated : Int := if Config.partW then 960 else 800

/-- Whole degrees by which the inlet exceeds the part's rating (R95). -/
def overRating (s : State) : Nat := if inletRated < inletUse s then ((inletUse s - inletRated) / 16).toNat else 0

/-- Notes since when the inlet has been above, or at or below, the rating (R95). -/
def trackInlet (s : State) : State :=
  if inletRated < inletUse s then
    { s with plt := { s.plt with overSince := some (s.plt.overSince.getD s.time), underSince := none } }
  else { s with plt := { s.plt with underSince := some (s.plt.underSince.getD s.time), overSince := none } }

/-- The chip core clock ceiling, MHz: POWER, channel 2, inlet_over and limp (R77, R92, R95, R96); 400 until PLANT_ARM
completes (R45). -/
def chipMhz (s : State) : Nat :=
  if !s.isUp then Nat.min 400 (if s.boot.dev == .off || s.boot.fatal.isSome then 0 else 400)
  else
    let c := Nat.min s.charter.clockMaxMhz (match s.gov.held with | some h => h.ceilMhz | none => s.gov.a.ceilMhz)
    let c := if s.gov.limpPower then Nat.min c s.charter.limpClockMhz else c
    if s.plt.inletOver then Nat.min c (Nat.max 800 (s.charter.clockMaxMhz - 100 * overRating s)) else c

/-- The clock of core `c` before stretching, MHz (R96). -/
def coreMhz (s : State) (c : Nat) : Nat :=
  let m := Nat.min (chipMhz s) (s.plt.jCeil.get 1800 c)
  let m := if railCapped s (bunchOf c) then Nat.min m 1500 else m
  if s.plt.active.contains (.junction (BitVec.ofNat 5 c).toFin) then Nat.min m 800 else m

/-- The core clocks run: they stop when FATAL_N is asserted (R391). -/
def State.clocked (s : State) : Bool := s.boot.fatal.isNone

/-- The clamp stretch ratio k of 16 in effect (R97, R98): held during a resynchronisation (R75). -/
def stretchK (s : State) : Nat := match s.gov.held with | some h => h.k | none => s.gov.a.k

/-- Sixteenths of the clock a core runs at: the clamp's k, and during a droop stretch a free ratio (R93 gives none). -/
def ratio16 (s : State) (c : Nat) : Nat :=
  let k := if s.gov.started then stretchK s else 16
  if s.plt.droop.get false c then Nat.min k ((Config.freeFp s.freeIdx c).toNat % 17) else k

/-- Memory instructions that wait for request entries (R168, R358). -/
def Te.entWaits (t : Te) : Nat :=
  match t.grid with
  | some g => if g.stopped || t.stopPending then 0 else (t.pun.entries.filter (fun e => e.2.waitEnt)).length
  | none => 0

/-- Core `c` after `n` periods of 10 ns: its cycle count advances, and each engine's cycles are counted for its
function (R315) and by the event counters 1, 2, 9 and 17 (R358). -/
def tickCore (n : Nat) (s : State) (c : Nat) : State :=
  let x := s.core c
  let full := coreMhz s c
  let add := x.cycFrac + full * ratio16 s c * n
  let d := add / 1600
  let mxFn := if x.mx.busy then some x.mx.fn else x.glPass.map (·.fn)
  let teFn := x.te.owner
  let ran := (mxFn.map (fun f => (Eng.mx, f))).toList ++ (if x.tx.busy then [(Eng.tx, x.tx.fn)] else [])
    ++ (teFn.map (fun f => (Eng.te, f))).toList
  let s1 := s.setCore c { x with
    cycles := x.cycles + d, cycFrac := add % 1600
    ran := x.ran ++ ran.filter (fun k => !x.ran.contains k)
    glPass := x.glPass.map (fun w => if w.stopped then w else { w with cyc := w.cyc + d }) }
  let s2 := match mxFn with
    | some f => s1.setFnS f { s1.fnS f with mxCyc := (s1.fnS f).mxCyc + d }
    | none => s1
  let s3 := if x.tx.busy then s2.setFnS x.tx.fn { s2.fnS x.tx.fn with txCyc := (s2.fnS x.tx.fn).txCyc + d } else s2
  let s4 := match teFn with
    | some f => if x.te.hasPunnet then s3.setFnS f { s3.fnS f with teCyc := (s3.fnS f).teCyc + d } else s3
    | none => s3
  let s5 := if mxFn.isSome then monEvent s4 1 c d else s4
  let s6 := if x.tx.busy then monEvent s5 2 c d else s5
  let w := x.te.entWaits
  let s7 := if w = 0 then s6 else monEvent s6 9 c (w * d)
  if ratio16 s c < 16 then monEvent s7 17 c d else s7

/-- Chip time and core cycles after `n` periods of the 100 MHz reference (R391). -/
def advance (s : State) (n : Nat) : State :=
  let t := if s.boot.dev == .off || s.boot.fatal.isSome then s else upTo 32 s (tickCore n)
  { t with time := (s.time + 10 * n) % 2 ^ 64 }

/-! ## Entries of the core's memory path (R168) -/

/-- A request is not performed yet. -/
def TeReq.open_ (r : TeReq) : Bool := r.kind == .atom || !r.fin

/-- Entries that the TE's requests of core `c` hold: each is freed when its request completes. -/
def teEntries (s : State) (c : Nat) : Nat := ((s.te c).reqs.filter (·.open_)).length

/-- Entries that the TX transfers of core `c` hold: how many of their requests are outstanding at a moment is timing and
free, up to what the transfers have and the TE leaves; what finds no entry free waits inside the transfer unit (R168). -/
def txEntries (s : State) (c : Nat) : Nat :=
  let most := Nat.min (((s.core c).xfers.map (·.reqs)).sum) (2048 - teEntries s c)
  (Config.freeFp s.freeIdx (2 ^ 73)).toNat % (most + 1)

/-- Entries in use on core `c` (R168). -/
def entriesUsed (s : State) (c : Nat) : Nat := teEntries s c + txEntries s c

/-! ## Slices (R305 to R311) -/

/-! ## Group-barrier trackers (R271) -/

/-- Trackers that partition `p` may hold. -/
def trackerQuota (s : State) (p : Nat) : Nat :=
  let n := s.charter.partCount
  if n = 0 then 0 else 64 / n + (if p < 64 % n then 1 else 0)

/-- Tracker that holds group `g` of context `x`. -/
def trackerOf (s : State) (x g : Nat) : Option Nat :=
  (List.range 64).find? (fun t => let k := s.syn.trackers.get {} t; k.busy && k.ctx == x && k.group == g)

/-- Partition `p` may claim another tracker: its number. -/
def freeTracker (s : State) (p : Nat) : Option Nat :=
  let held := ((List.range 64).filter (fun t => let k := s.syn.trackers.get {} t; k.busy && k.part == p)).length
  if held < trackerQuota s p then (List.range 64).find? (fun t => !(s.syn.trackers.get {} t).busy) else none

def setTracker (s : State) (t : Nat) (k : Tracker) : State :=
  { s with syn := { s.syn with trackers := s.syn.trackers.put {} t k } }

/-- The groups in progress that `ok` picks, by context, are reloaded as trackers of partition `p` allow. -/
def reloadTrackers (s : State) (p : Nat) (ok : Nat → Bool) : State :=
  s.syn.groups.entries.foldl (fun t e =>
    let x := e.1 / 64
    let g := e.1 % 64
    if e.2.inProgress && ok x && (trackerOf t x g).isNone then
      match freeTracker t p with
      | some k => setTracker t k { busy := true, ctx := x, group := g, part := p }
      | none => t
    else t) s

/-- The trackers of partition `p` after its slice passed to function `f`: those of other tenants go back to their
group records, and the groups of `f` that are in progress are reloaded as trackers allow. -/
def switchTrackers (s : State) (p f : Nat) : State :=
  let s1 := upTo 64 s (fun t k =>
    let x := t.syn.trackers.get {} k
    if x.busy && x.part == p && (t.ctx x.ctx).fn != f then setTracker t k {} else t)
  reloadTrackers s1 p (fun x => (s1.ctx x).live && (s1.ctx x).fn == f)

/-- Requests preemption of the engines of partition `p` that execute function `f`'s commands (R311, R126). -/
def preemptFn (s : State) (p f : Nat) : State :=
  (coresOf s p).foldl (fun t c =>
    let x := t.core c
    let mark (e : ClEng) : ClEng :=
      if e.busy && e.fn == f && !e.stopPending then { e with stopPending := true, stopReqAt := x.cycles } else e
    let te := if x.te.owner == some f then { x.te with stopPending := true } else x.te
    let gl := x.glPass.map (fun w => if w.fn = f ∧ !w.stop then { w with stop := true, stopAt := x.cycles } else w)
    t.setCore c { x with mx := mark x.mx, tx := mark x.tx, te := te, glPass := gl }) s

/-- A tenant's open gleaning windows on partition `p` close: its slice ended (R151, R311). -/
def closeWindows (s : State) (p f : Nat) : State :=
  (coresOf s p).foldl (fun t c =>
    let x := t.core c
    t.setCore c { x with glean := x.glean.filter (fun w => w.fn != f),
                         glQueue := x.glQueue ++ x.glean.filter (fun w => w.fn == f) }) s

/-- The windows of the tenant whose slice of partition `p` ends close. -/
def endSlice (s : State) (p : Nat) : State :=
  match (s.partS p).holder with | some g => closeWindows s p g | none => s

/-- Grants partition `p`'s slice to function `f` (R308, R311). A tenant granted again preempts nothing. With nobody to stop,
the trackers pass at once (R271). -/
def grantTo (s : State) (p f : Nat) : State :=
  let x := s.partS p
  let s1 := endSlice (s.setFnS f { s.fnS f with slices := (s.fnS f).slices + 1 }) p
  let y : PartSched := { x with used := 0, grants := x.grants + 1, holder := some f, last := some f, takeDue := false }
  match x.holder with
  | some g =>
    if g = f then s1.setPartS p y
    else preemptFn (s1.setPartS p { y with outgoing := match x.outgoing with | some h => some h | none => some g }) p g
  | none =>
    if x.outgoing.isSome ∨ x.last = some f then s1.setPartS p y else switchTrackers (s1.setPartS p y) p f

/-- The active tenant of partition `p` with the largest deficit, lowest number first (R308). -/
def bestTenant (s : State) (p : Nat) : Option Nat :=
  ((tenantsOf s p).filter (isActive s)).foldl (fun best f => match best with
    | none => some f
    | some g => if (s.fnS g).deficit < (s.fnS f).deficit then some f else best) none

/-- Grants the slice by R308, unless the partition is exhausted (R310). With no active tenant nobody holds it. -/
def grantBest (s : State) (p : Nat) : State :=
  if gateClosed s p then s
  else match bestTenant s p with
    | some f => grantTo s p f
    | none => (endSlice s p).setPartS p { s.partS p with holder := none, takeDue := false }

/-- Precedence takeover of partition `p`'s slice by function `f` (R309). -/
def takeOver (s : State) (p f : Nat) : State :=
  grantTo (s.setPartS p { s.partS p with takeovers := (s.partS p).takeovers + 1 }) p f

/-- A takeover that an exhausted partition put off is due, and the precedence tenant is still active (R310). -/
def takeoverDue (s : State) (p : Nat) : Option Nat :=
  if (s.partS p).takeDue then match precedence s p with
    | some f => if isActive s f && (s.partS p).holder != some f then some f else none
    | none => none
  else none

/-- What an exhausted partition put off is made once its gate is open (R310): a takeover, or the grant of a slice that
nobody holds. -/
def regrant (s : State) (p : Nat) : State :=
  if gateClosed s p then s
  else match takeoverDue s p with
    | some f => takeOver s p f
    | none => if (s.partS p).holder.isNone && (bestTenant s p).isSome then grantBest s p else s

/-- Function `f`'s activity after an event: one that became inactive loses its credit (R306); one that became active
is granted a free slice (R308) or takes the slice over (R309), and while the partition is exhausted once it no longer is
(R310). -/
def refresh (s : State) (f : Nat) : State :=
  let now := isActive s f
  let old := (s.fnS f).active
  let p := (tenant s f).part
  let s1 := s.setFnS f { s.fnS f with active := now,
                                      deficit := if old && !now then min (s.fnS f).deficit 0 else (s.fnS f).deficit }
  if now && !old && (tenant s f).enable then
    match (s1.partS p).holder with
    | none => grantBest s1 p
    | some g =>
      if precedence s1 p = some f ∧ g ≠ f ∧ (s1.fnS f).deficit = 0 then
        if gateClosed s1 p then s1.setPartS p { s1.partS p with takeDue := true } else takeOver s1 p f
      else s1
  else s1

end Sys2Proof.Machine
end

