-- ==== Sys2Proof/Machine/Clock.lean ====
section
/-! DEFINITION. What passes while no command waits: chip time. -/

namespace Sys2Proof.Machine

/-- The reference runs: power is good and REFCLK100 is there (R391). After a FATAL_N for junction temperature chip time
keeps counting. -/
def clockRuns (s : State) : Bool := s.boot.pwrgood && s.boot.refclk

/-- DESIGN CHOICE (log entry 3): one idle step is one 10 ns period of the 100 MHz reference. While the governors run, chip
time waits at a tick boundary for that tick's GOVERNOR_TICK (R58, R59). -/
def idle (s : State) : State :=
  if !clockRuns s || (s.gov.started && (s.gov.tickNo + 1) * 1000 ≤ s.time) then s else advance s 1

end Sys2Proof.Machine
end

