-- ==== Sys2Proof/Machine/Crypto.lean ====
section
/-! DEFINITION. SHA-384 and ECDSA P-384 verification (R34, R37), by FIPS 180-4 and FIPS 186 (PRESUMED: the manual
names the algorithms and the standards give them). -/

namespace Sys2Proof.Machine

/-- Largest r of `k` bits with r^e ≤ n. -/
def rootBits (n e : Nat) : Nat → Nat → Nat
  | 0, r => r
  | k + 1, r => if (r + 2 ^ k) ^ e ≤ n then rootBits n e k (r + 2 ^ k) else rootBits n e k r

/-- The first 80 primes. -/
def primes80 : List Nat :=
  [2, 3, 5, 7, 11, 13, 17, 19, 23, 29, 31, 37, 41, 43, 47, 53, 59, 61, 67, 71] ++
  [73, 79, 83, 89, 97, 101, 103, 107, 109, 113, 127, 131, 137, 139, 149, 151, 157, 163, 167, 173] ++
  [179, 181, 191, 193, 197, 199, 211, 223, 227, 229, 233, 239, 241, 251, 257, 263, 269, 271, 277, 281] ++
  [283, 293, 307, 311, 313, 317, 331, 337, 347, 349, 353, 359, 367, 373, 379, 383, 389, 397, 401, 409]

/-- The round constants: the first 64 bits of the fractional parts of the cube roots of the first 80 primes. -/
def shaK : List W64 := primes80.map (fun p => BitVec.ofNat 64 (rootBits (p * 2 ^ 192) 3 70 0))

/-- SHA-384's initial value: the fractional parts of the square roots of the ninth to sixteenth primes. -/
def shaH0 : List W64 := (primes80.drop 8).take 8 |>.map (fun p => BitVec.ofNat 64 (rootBits (p * 2 ^ 128) 2 70 0))

def rotr (x : W64) (n : Nat) : W64 := x.rotateRight n

/-- The message schedule, newest word first, extended by `n` words. -/
def shaSched : Nat → List W64 → List W64
  | 0, w => w
  | n + 1, w =>
    let g (i : Nat) : W64 := w.getD i 0
    let s0 := rotr (g 14) 1 ^^^ rotr (g 14) 8 ^^^ (g 14 >>> 7)
    let s1 := rotr (g 1) 19 ^^^ rotr (g 1) 61 ^^^ (g 1 >>> 6)
    shaSched n ((s1 + g 6 + s0 + g 15) :: w)

/-- One round on (a, …, h). -/
def shaRound (v : List W64) (kw : W64 × W64) : List W64 :=
  match v with
  | [a, b, c, d, e, f, g, h] =>
    let t1 := h + (rotr e 14 ^^^ rotr e 18 ^^^ rotr e 41) + ((e &&& f) ^^^ (~~~e &&& g)) + kw.1 + kw.2
    let t2 := (rotr a 28 ^^^ rotr a 34 ^^^ rotr a 39) + ((a &&& b) ^^^ (a &&& c) ^^^ (b &&& c))
    [t1 + t2, a, b, c, d + t1, e, f, g]
  | v => v

/-- A number made of big-endian bytes. -/
def beNat (l : List Byte) : Nat := l.foldl (fun n b => n * 256 + b.toNat) 0

/-- One 128-byte block. -/
def shaBlock (h : List W64) (blk : List Byte) : List W64 :=
  let w0 := (List.range 16).map (fun i => BitVec.ofNat 64 (beNat ((blk.drop (8 * i)).take 8)))
  let w := (shaSched 64 w0.reverse).reverse
  (((shaK.zip w).foldl shaRound h).zip h).map (fun p => p.1 + p.2)

/-- `n` blocks. -/
def shaBlocks : Nat → List W64 → List Byte → List W64
  | 0, h, _ => h
  | n + 1, h, m => shaBlocks n (shaBlock h (m.take 128)) (m.drop 128)

/-- SHA-384 of a byte string. -/
def sha384 (m : List Byte) : BitVec 384 :=
  let z := (111 + 128 - m.length % 128) % 128
  let pad := [0x80#8] ++ List.replicate z 0#8 ++ List.replicate 8 0#8 ++
    (leBytes 8 (8 * m.length)).reverse
  let p := m ++ pad
  let h := shaBlocks (p.length / 128) shaH0 p
  BitVec.ofNat 384 ((h.take 6).foldl (fun n x => n * 2 ^ 64 + x.toNat) 0)

/-! ## P-384 -/

def pP : Nat := 2 ^ 384 - 2 ^ 128 - 2 ^ 96 + 2 ^ 32 - 1
def pN : Nat := 0xffffffffffffffffffffffffffffffffffffffffffffffffc7634d81f4372ddf581a0db248b0a77aecec196accc52973
def pB : Nat := 0xb3312fa7e23ee7e4988e056be3f82d19181d9c6efe8141120314088f5013875ac656398d8a2ed19d2a85c8edd3ec2aef
def pGx : Nat := 0xaa87ca22be8b05378eb1c71ef320ad746e1d3b628ba79b9859f741e082542a385502f25dbf55296c3a545e3872760ab7
def pGy : Nat := 0x3617de4a96262c6f5d9e98bf9292dc29f8f41dbd289a147ce9da3113b5f0b8c00a60b1ce1d7e819d7a431d7c90ea0e5f

/-- b^e mod m, over `k` bits of e. -/
def powMod (m : Nat) : Nat → Nat → Nat → Nat → Nat
  | 0, _, _, acc => acc
  | k + 1, b, e, acc => powMod m k (b * b % m) (e / 2) (if e % 2 = 1 then acc * b % m else acc)

def invMod (m a : Nat) : Nat := powMod m 385 (a % m) (m - 2) 1

/-- Addition of points; none is the point at infinity. -/
def ptAdd (u v : Option (Nat × Nat)) : Option (Nat × Nat) :=
  match u, v with
  | none, v => v
  | u, none => u
  | some (x1, y1), some (x2, y2) =>
    if x1 = x2 ∧ (y1 + y2) % pP = 0 then none
    else
      let l := if x1 = x2 then (3 * x1 * x1 + pP - 3) * invMod pP (2 * y1) % pP
               else (y2 + pP - y1) * invMod pP (x2 + pP - x1) % pP
      let x3 := (l * l + 2 * pP - x1 - x2) % pP
      some (x3, (l * (x1 + pP - x3) + pP - y1) % pP)

/-- k times a point, over `n` bits of k. -/
def ptMul : Nat → Nat → Option (Nat × Nat) → Option (Nat × Nat) → Option (Nat × Nat)
  | 0, _, _, acc => acc
  | n + 1, k, p, acc => ptMul n (k / 2) (ptAdd p p) (if k % 2 = 1 then ptAdd acc p else acc)

/-- The signature (r, s) over the digest verifies with the public key (x, y). -/
def ecdsaOk (x y r s : Nat) (digest : BitVec 384) : Bool :=
  x < pP && y < pP && (y * y) % pP == (x * x * x + (pP - 3) * x + pB) % pP
  && 0 < r && r < pN && 0 < s && s < pN
  && (let w := invMod pN s
      match ptAdd (ptMul 384 (digest.toNat * w % pN) (some (pGx, pGy)) none)
          (ptMul 384 (r * w % pN) (some (x, y)) none) with
      | none => false
      | some (px, _) => px % pN == r)

end Sys2Proof.Machine
end

