-- ==== Sys2Proof/Machine/CharterImage.lean ====
section
/-! DEFINITION. The Charter image: header, records, value rules (R32 to R37), the values it holds, and the values of
LIMP (R50, R51). -/

namespace Sys2Proof.Machine

def byteAt (l : List Byte) (i : Nat) : Nat := (l.getD i 0).toNat
def le16 (l : List Byte) (i : Nat) : Nat := byteAt l i + 256 * byteAt l (i + 1)
def le32 (l : List Byte) (i : Nat) : Nat := leNat ((l.drop i).take 4)
def les32 (l : List Byte) (i : Nat) : Int := sgn (le32 l i) 32

/-- First failing step of steps 1 and 2 on a header; 0 when both pass (R32, R37). -/
def headerStep (h : List Byte) : Nat :=
  if le32 h 0 ≠ 0x52484348 ∨ le16 h 4 ≠ 1 ∨ le16 h 6 ≠ 0x100 then 1
  else if le32 h 8 % 256 ≠ 0 ∨ le32 h 8 < 0x400 ∨ le32 h 8 > 0x400000 ∨ le32 h 12 < 1 ∨ le32 h 12 > 64
      ∨ le32 h 0x14 ≠ 0x4832 then 2
  else 0

/-- Steps 3 and 4 on an image (R34, R37): first failing step, or 0. -/
def signatureStep (img : List Byte) (digest : BitVec 384) : Nat :=
  let sb := img.drop (img.length - 256)
  let key := sb.take 97
  if sha384 key ≠ Config.fusedKeyHash then 3
  else if byteAt key 0 = 4
      ∧ ecdsaOk (beNat ((key.drop 1).take 48)) (beNat ((key.drop 49).take 48)) (beNat ((sb.drop 0x68).take 48))
          (beNat ((sb.drop 0x98).take 48)) digest then 0
  else 4

/-- The body length R35 gives a record type; none for the others. -/
def bodyLen (t : Nat) : Option Nat :=
  match t with
  | 0x0001 => some 16 | 0x0002 => some 64 | 0x0003 => some 512 | 0x0004 => some 32 | 0x0005 => some 64
  | 0x0006 => some 80 | 0x0007 => some 16 | 0x0008 => some 32 | 0x0009 => some 2056 | 0x000A => some 8
  | 0x000B => some 8 | 0x000C => some 1048576
  | _ => none

/-- The record walk of step 5: `n` records from the front of the record area (R33). -/
def recordWalk : Nat → List Byte → Option (List (Nat × List Byte))
  | 0, _ => some []
  | n + 1, l =>
    let len := le32 l 4
    if l.length < 8 ∨ byteAt l 2 ≠ 1 ∨ len % 8 ≠ 0 ∨ l.length < 8 + len ∨ (bodyLen (le16 l 0)).any (fun b => b != len) then none
    else match recordWalk n (l.drop (8 + len)) with
      | none => none
      | some r => some ((le16 l 0, (l.drop 8).take len) :: r)

def countTy (r : List (Nat × List Byte)) (t : Nat) : Nat := (r.filter (fun x => x.1 == t)).length
def bodyOf (r : List (Nat × List Byte)) (t : Nat) : List Byte :=
  match r.find? (fun x => x.1 == t) with | some x => x.2 | none => []
def bodiesOf (r : List (Nat × List Byte)) (t : Nat) : List (List Byte) := (r.filter (fun x => x.1 == t)).map (·.2)

/-- The list holds no value twice. -/
def noDup : List Nat → Bool
  | [] => true
  | x :: r => !r.contains x && noDup r

/-- Step 6 (R35, R37). -/
def presenceOk (r : List (Nat × List Byte)) : Bool :=
  [1, 2, 3, 4, 5, 6, 7, 0xB].all (fun t => countTy r t == 1)
  && [8, 0xA, 0xC].all (fun t => countTy r t ≤ 1)
  && countTy r 9 ≤ 4
  && noDup ((bodiesOf r 9).map (fun b => byteAt b 0))
  && r.all (fun x => x.1 ≥ 0x8000 || (bodyLen x.1).isSome)
  && (countTy r 9 == 0 || countTy r 8 == 1)

/-- The values of a set of records (R35, R36). -/
def charterOf (r : List (Nat × List Byte)) : Charter :=
  let pm := bodyOf r 1
  let sh := bodyOf r 2
  let te := bodyOf r 3
  let po := bodyOf r 4
  let pl := bodyOf r 5
  let lg := bodyOf r 6
  let th := bodyOf r 7
  let lt := bodyOf r 8
  let dp := byteAt (bodyOf r 0xA) 0
  let ll := bodyOf r 0xB
  { bunchPart := (List.range 8).map (byteAt pm)
    partCount := byteAt pm 8
    budget := (List.range 8).map (fun p => le32 sh (8 * p))
    slice := (List.range 8).map (fun p => le32 sh (8 * p + 4))
    tenants := upTo 128 {} (fun t f =>
      t.put {} f { enable := byteAt te (4 * f) == 1, part := byteAt te (4 * f + 1), weight := le16 te (4 * f + 2) })
    feedCapW := le16 po 0, clampTargetW := le16 po 2, usableLu := le32 po 4, socTarget := byteAt po 8
    socFloor := byteAt po 9, dischargeMaxW := le16 po 10, rechargeMaxW := le16 po 12, clockMaxMhz := le16 po 14
    channelMask := BitVec.ofNat 32 (le32 pl 0)
    sensors := (List.range 8).map (fun i => (byteAt pl (4 + 4 * i), byteAt pl (5 + 4 * i)))
    flowPpl := le16 pl 36, pumpMinPct := byteAt pl 38, valveMode := byteAt pl 39
    regAddr := (List.range 8).map (fun i => byteAt pl (40 + i))
    gains := (List.range 5).map (fun n => { kp := les32 lg (16 * n), ki := les32 lg (16 * n + 4),
                                             outMin := les32 lg (16 * n + 8), outMax := les32 lg (16 * n + 12) })
    thermal := (List.range 9).map (byteAt th)
    outletTarget := byteAt th 9
    topo := if lt = [] then none else some
      { dims := byteAt lt 0, sx := le16 lt 2, sy := le16 lt 4, sz := le16 lt 6, x := le16 lt 8, y := le16 lt 10,
        z := le16 lt 12, ports := BitVec.ofNat 16 (le16 lt 14), dirs := (List.range 16).map (fun i => byteAt lt (16 + i)) }
    routes := (bodiesOf r 9).foldl (fun t b =>
      ⟨addKey t.entries (byteAt b 0) (upTo 1024 {} (fun u d => u.put 0 d (BitVec.ofNat 16 (le16 b (8 + 2 * d)))))⟩) {}
    dbgTrace := dp.testBit 0, dbgMonitors := dp.testBit 1, dbgHazard := dp.testBit 2, dbgStep := dp.testBit 3
    dbgVf := dp.testBit 4, jtag := fld dp 5 2
    limpCapW := le16 ll 0, limpClockMhz := le16 ll 2, limpPumpPct := byteAt ll 4
    estCal := if countTy r 0xC = 1 then some (bodyOf r 0xC) else none
    isLimp := false, loaded := true }

/-- The table numbers of the ROUTE_TABLE records, as a mask. -/
def routeMask (r : List (Nat × List Byte)) : Nat := (bodiesOf r 9).foldl (fun m b => m ||| (1 <<< byteAt b 0)) 0

/-- Step 7: every value rule of R35. -/
def valuesOk (r : List (Nat × List Byte)) : Bool :=
  let c := charterOf r
  let te := bodyOf r 3
  let pc := c.partCount
  let ten (f : Nat) : Tenant := c.tenants.get {} f
  -- PARTITION_MAP
  1 ≤ pc && pc ≤ 8 && c.bunchPart.all (fun p => p < pc)
  && (List.range pc).all (fun p => c.bunchPart.contains p)
  -- SHARES
  && c.budget.foldl (· + ·) 0 == 65536
  && (List.range 8).all (fun p =>
      if p < pc then c.budget.getD p 0 ≥ 1024 && 256 ≤ c.slice.getD p 0 && c.slice.getD p 0 ≤ 65536
      else c.budget.getD p 0 == 0 && c.slice.getD p 0 == 0)
  -- TENANTS
  && (List.range 128).all (fun f => byteAt te (4 * f) ≤ 1
      && (!(ten f).enable || ((ten f).part < pc && 1 ≤ (ten f).weight)))
  && (ten 0).enable
  && (List.range pc).all (fun p => (List.range 128).any (fun f => (ten f).enable && (ten f).part == p))
  -- POWER
  && 400 ≤ c.feedCapW && c.feedCapW ≤ 1500 && 300 ≤ c.clampTargetW && c.clampTargetW ≤ c.feedCapW
  && (if c.usableLu = 0 then c.dischargeMaxW == 0 && c.rechargeMaxW == 0 else 1000 ≤ c.usableLu)
  && 20 ≤ c.socTarget && c.socTarget ≤ 100 && c.socFloor + 10 ≤ c.socTarget
  && c.dischargeMaxW ≤ 1250 && c.rechargeMaxW ≤ 1100 && 800 ≤ c.clockMaxMhz && c.clockMaxMhz ≤ 1800
  -- PLANT
  && c.sensors.all (fun x => x.2 ≤ 4) && c.sensors.any (fun x => x.2 == 1) && c.sensors.any (fun x => x.2 == 2)
  && c.flowPpl != 0 && 20 ≤ c.pumpMinPct && c.pumpMinPct ≤ 100 && c.valveMode ≤ 1
  -- LOOP_GAINS, THERMAL
  && c.gains.all (fun g => g.outMin < g.outMax)
  && c.thermal.all (fun t => t ≤ 110)
  && (List.range 8).all (fun i => c.thermal.getD (i + 1) 0 ≤ c.thermal.getD i 0)
  -- LINK_TOPOLOGY, ROUTE_TABLE
  && c.topo.all (fun t => (t.dims == 2 || t.dims == 3) && (t.dims == 3 || t.sz == 1) && t.sx * t.sy * t.sz ≤ 1024
      && t.x < t.sx && t.y < t.sy && t.z < t.sz && t.dirs.all (fun d => d ≤ 5 || d == 0xFF))
  && (bodiesOf r 9).all (fun b => byteAt b 0 ≤ 3)
  -- DEBUG_POLICY, LIMP_LIMITS
  && c.jtag ≤ 2
  && 200 ≤ c.limpCapW && c.limpCapW ≤ 350 && 400 ≤ c.limpClockMhz && c.limpClockMhz ≤ 800
  && 60 ≤ c.limpPumpPct && c.limpPumpPct ≤ 100

/-- The records of an image, where the walk of step 5 succeeds. -/
def imageRecords (img : List Byte) : Option (List (Nat × List Byte)) :=
  recordWalk (le32 img 12) ((img.drop 0x100).take (img.length - 512))

/-- Steps 5 to 7 on an image: first failing step, or 0. -/
def recordStep (img : List Byte) : Nat :=
  match imageRecords img with
  | none => 5
  | some r => if !presenceOk r then 6 else if !valuesOk r then 7 else 0

/-- Word `cls` of the calibration of core `c` at voltage point `v` and temperature bin `t` (R35): the ESTIMATOR record's,
else the fused one (R36). DEDUCED (log entry 107): the 16 x 8 x 64 words of a core follow each other in that order. -/
def calWord (ch : Charter) (c v t cls : Nat) : W32 :=
  let i := ((c * 16 + v) * 8 + t) * 64 + cls
  match ch.estCal with
  | some b => BitVec.ofNat 32 (le32 b (4 * i))
  | none => Config.fusedCal i

/-- The fused default gains (R50). -/
def fusedGains : List Gains :=
  (List.range 5).map (fun n => { kp := Config.fusedGain n 0, ki := Config.fusedGain n 1,
                                 outMin := Config.fusedGain n 2, outMax := Config.fusedGain n 3 })

/-- The values of Charter origin in LIMP (R50, R51, R303). -/
def limpCharter : Charter :=
  { bunchPart := List.replicate 8 0, partCount := 1, budget := [65536, 0, 0, 0, 0, 0, 0, 0]
    slice := [4096, 0, 0, 0, 0, 0, 0, 0]
    tenants := ⟨[(0, { enable := true, part := 0, weight := 1 })]⟩
    feedCapW := 350, clampTargetW := 300, usableLu := 0, socTarget := 0, socFloor := 0, dischargeMaxW := 0
    rechargeMaxW := 0, clockMaxMhz := 800, channelMask := 0x0000FFFF
    sensors := List.replicate 8 (0, 0), flowPpl := 0, pumpMinPct := 100, valveMode := 0
    regAddr := List.replicate 8 0, gains := fusedGains, thermal := List.replicate 9 95, outletTarget := 0
    limpCapW := 350, limpClockMhz := 800, limpPumpPct := 100, isLimp := true, loaded := true }

end Sys2Proof.Machine
end

