-- ==== Sys2Proof/Machine/Boot.lean ====
section
/-! DEFINITION. Power, pins, resets and the start-up sequence (R27 to R51, R56, R386 to R391). -/

namespace Sys2Proof.Machine

/-- A voted field whose three copies agree. -/
def Trv.of (v : Nat) : Trv := ⟨v, v, v, v⟩

/-- What a chip reset leaves (R49, R377, R201): every register and internal state at its reset value; the flash and its
running operation, the pins and what lies in host memory stand. DESIGN CHOICE (log entry 10): last_error and refused read
0 after it, and an operation that still runs reports to neither. A sequence that a CHIP_RESET request started counts
from the request (R44). -/
def chipReset (s : State) (cause : ResetCause) : State :=
  { flash := s.flash
    mem := s.mem.filter (fun c => isHost c.1)
    freeIdx := s.freeIdx
    pending := s.pending
    sb := { busy := s.sb.busy, op := s.sb.op }
    boot := { dev := .strap, pwrgood := s.boot.pwrgood, perst := s.boot.perst, refclk := s.boot.refclk,
              lref := s.boot.lref, straps := s.boot.straps, linkGts := s.boot.linkGts, smbAddress := s.boot.smbAddress,
              training := cause == .sideband, seqLead := if cause = .sideband then s.time - s.boot.reqAt else 0,
              cause := some cause, pumpPin := .high, valvePin := .low } }

/-- The byte at a flash address: an unlisted byte is erased. -/
def flashByte (fl : List Host.Cell) (a : Nat) : Byte := (look fl a).getD 0xFF

/-- The flash list with byte `b` at `a`; erased bytes (0xFF) are not listed. -/
def flashPut (fl : List Host.Cell) (a : Nat) (b : Byte) : List Host.Cell :=
  if b = 0xFF then delKey fl a else addKey fl a b

/-- Addresses of the flash wrap at 64 MiB (DESIGN CHOICE, log entry 103): R27 gives 64 MiB, R52 no end. -/
def flashMod (a : Nat) : Nat := a % 0x4000000

/-- The flash after an operation: all of it (`whole`), or a free part of its bytes. Programming clears bits only
(PRESUMED: NOR flash, log entry 8). DESIGN CHOICE (log entry 103): bytes past the end of a page go on into the next page. -/
def flashApply (n : Nat) (whole : Bool) (fl : List Host.Cell) (op : Nat × List Byte ⊕ Nat × Nat) : List Host.Cell :=
  match op with
  | .inl (a, bs) => upTo bs.length fl (fun f i =>
      let x := flashMod (a + i)
      if whole || Config.freeBit n i then flashPut f x (flashByte fl x &&& bs.getD i 0xFF) else f)
  | .inr (a, sz) => upTo sz fl (fun f i => if whole || Config.freeBit n i then flashPut f (a + i) 0xFF else f)

/-- The flash list holds rising addresses and no erased byte. -/
def flashWf (fl : List Host.Cell) : Bool := rising fl && fl.all (fun c => c.2 != 0xFF)

/-- As `doneBoot`, for PWRGOOD falling, which may cut off a flash operation. -/
def donePower (s t : State) : Out := .next { t with pending := s.pending, freeIdx := s.freeIdx + 1 }

/-- The fastest link rate that PCIE_RATE allows, GT/s (R40). -/
def strapGts (st : Straps) : Nat := if st.pcieRate then 32 else 64
/-- The sideband address that SMB_ADDR selects (R40). -/
def strapSmb (st : Straps) : Nat := 0x60 + st.smbAddr.toNat

/-- STRAP begins: the straps are sampled (R40), the PCIe link starts to train (R41). -/
def beginStrap (s : State) (st : Straps) : State :=
  { s with boot := { s.boot with dev := .strap, straps := st, linkGts := strapGts st, smbAddress := strapSmb st,
                                 training := true, seqAt := s.time, seqLead := 0 } }

/-- PWRGOOD_RISE (R386, R388, R391). STRAP begins at once where PERST# is not asserted. -/
def execPwrgoodRise (st : Straps) (s : State) : Out :=
  if s.boot.pwrgood then doneBoot s s
  else
    let t : State := { s with boot := { s.boot with pwrgood := true, refclk := true, cause := some .powerOn,
                                                     pumpPin := .high, valvePin := .low } }
    doneBoot s (if s.boot.perst then t else beginStrap t st)

/-- PWRGOOD_FALL (R387, R388): the device is OFF and drives nothing. An operation on the flash is cut off: which of
its bytes changed is free (17, edge cases). -/
def execPwrgoodFall (s : State) : Out :=
  donePower s
    { flash := match s.sb.op with | some op => flashApply s.freeIdx false s.flash op | none => s.flash
      mem := s.mem.filter (fun c => isHost c.1)
      boot := { perst := s.boot.perst, lref := s.boot.lref } }

/-- PERST_ASSERT (R49): a chip reset. After FATAL_N only the pin is noted: the device holds until PWRGOOD falls
(R391). -/
def execPerstAssert (s : State) : Out :=
  let t : State := { s with boot := { s.boot with perst := true } }
  if s.boot.perst || !s.boot.pwrgood || s.boot.fatal.isSome then doneBoot s t
  else doneBoot s (chipReset t .perst)

/-- PERST_DEASSERT (R386): STRAP begins, at the later of PWRGOOD rising and this edge. -/
def execPerstDeassert (st : Straps) (s : State) : Out :=
  let t : State := { s with boot := { s.boot with perst := false } }
  if !s.boot.perst || !s.boot.pwrgood || s.boot.fatal.isSome then doneBoot s t
  else doneBoot s (beginStrap t st)

/-- FATAL_N (R391). The clocks stop, the frames stop, the pump is driven high and the valve low. -/
def execFatalN (cause : FatalCause) (s : State) : Out :=
  if !s.boot.pwrgood || s.boot.fatal.isSome then doneBoot s s
  else doneBoot s { s with boot := { s.boot with fatal := some cause, pumpPin := .high, valvePin := .low,
                                                  refclk := s.boot.refclk && cause != .refclk } }

/-- STRAP_COMPLETE (R44 step 1, R41). -/
def execStrapComplete (s : State) : Out :=
  if s.boot.dev = .strap ∧ !s.boot.perst ∧ s.boot.fatal.isNone then
    doneBoot s { s with boot := { s.boot with dev := .charterLoad, link := true, training := false, loadAt := s.time } }
  else doneBoot s s

/-- Values of Charter origin take effect: registers and both copies of the shadow (R44 step 5, R51, R56, R78, R103,
R375). -/
def applyCharter (s : State) (ch : Charter) : State :=
  { s with
    boot := { s.boot with charter := ch, sh1 := ch, sh2 := ch, bad1 := [], bad2 := [] }
    gov := { s.gov with feedCap := Trv.of ch.feedCapW }
    plt := { s.plt with lim0 := Trv.of ch.dischargeMaxW, lim1 := Trv.of ch.rechargeMaxW, lim2 := Trv.of ch.clampTargetW,
                        lim3 := Trv.of ch.socFloor, lim4 := Trv.of ch.pumpMinPct }
    sch := { s.sch with bunch := upTo 8 {} (fun t b => t.put {} b (Trv.of (ch.bunchPart.getD b 0))) } }

/-- A copy after its key-hash and signature checks (R37 steps 3 and 4). -/
def checkCopy (c : CopySt) : CopySt :=
  if c.finished then { c with sigDone := true }
  else
    let st := signatureStep c.image c.digest
    { c with sigDone := true, failStep := st, finished := st != 0 }

/-- A copy after its record walk and value checks (R37 steps 5 to 7). -/
def walkCopy (c : CopySt) : CopySt :=
  if c.finished then c else { c with failStep := recordStep c.image, finished := true }

/-- More than 500 ms of steps 2 to 5 have passed (R46). -/
def loadOverdue (s : State) : Bool := s.boot.loadAt + 500 * ms < s.time

/-- How far a copy's checks had got when the load is abandoned: steps 3 and 4 may have ended once both copies are read
(`both`), steps 5 to 7 once the signatures are checked; whether they had is a free choice (log entry 108). -/
def reachedCopy (n k : Nat) (both : Bool) (c : CopySt) : CopySt :=
  if c.finished then c
  else if c.sigDone then (if Config.freeBit n k then walkCopy c else c)
  else if both && Config.freeBit n k then checkCopy c
  else c

/-- A copy's verdict when the load is abandoned: a verdict reached stands, a copy not finished reads 0xF (R46). -/
def abandonCopy (c : CopySt) : CopySt :=
  { c with image := [], failStep := if c.finished then c.failStep else 15, finished := true,
           seq := if c.seen ∧ c.failStep ≠ 1 ∧ c.failStep ≠ 2 then c.seq else 0 }

/-- The loader abandons the load: as if neither copy were valid (R46). -/
def abandonLoad (s : State) : State :=
  let t := applyCharter s limpCharter
  let both := s.boot.copyA.seen && s.boot.copyB.seen
  { t with boot := { t.boot with dev := .selftest, abandoned := true, selected := none,
                                 copyA := abandonCopy (reachedCopy s.freeIdx 0 both s.boot.copyA),
                                 copyB := abandonCopy (reachedCopy s.freeIdx 1 both s.boot.copyB) } }

/-- The read mode of R29. -/
def selectMode (sf : Sfdp) : FlashMode :=
  let best := [FlashMode.m111, .m114, .m144, .m118, .m188].foldl (fun m x => if sf.modes.contains x then x else m) .m111
  if (best = .m114 ∨ best = .m144) ∧ !sf.quadOk then .m111 else best

/-- SFDP_DISCOVERY_DONE (R29, R46). -/
def execSfdpDiscoveryDone (sf : Option Sfdp) (s : State) : Out :=
  if s.boot.dev ≠ .charterLoad ∨ s.boot.sfdpDone ∨ loadOverdue s ∨ s.boot.fatal.isSome then doneBoot s s
  else match sf with
    | none => doneBoot s (abandonLoad { s with boot := { s.boot with sfdpDone := true } })
    | some x => doneBoot s { s with boot := { s.boot with sfdpDone := true, sfdp := some x, flashMode := selectMode x } }

def slotBase : Slot → Nat | .a => 0 | .b => 0x400000

/-- A copy as it is after its header is read and, where steps 1 and 2 pass, its image streamed in (R37, R38). -/
def readCopy (fl : List Host.Cell) (k : Slot) : CopySt :=
  let hdr := (List.range 256).map (fun i => flashByte fl (slotBase k + i))
  let st := headerStep hdr
  if st ≠ 0 then { seen := true, finished := true, failStep := st }
  else
    let n := le32 hdr 8
    let img := (List.range n).map (fun i => flashByte fl (slotBase k + i))
    { seen := true, seq := BitVec.ofNat 32 (le32 hdr 0x10), len := n, image := img, digest := sha384 (img.take (n - 256)) }

def Boot.copy (b : Boot) : Slot → CopySt | .a => b.copyA | .b => b.copyB
def Boot.setCopy (b : Boot) (k : Slot) (c : CopySt) : Boot :=
  match k with | .a => { b with copyA := c } | .b => { b with copyB := c }

/-- COPY_READ_DONE (R37 steps 1 and 2, R38). -/
def execCopyReadDone (k : Slot) (s : State) : Out :=
  if s.boot.dev ≠ .charterLoad ∨ !s.boot.sfdpDone ∨ (s.boot.copy k).seen ∨ loadOverdue s ∨ s.boot.fatal.isSome then
    doneBoot s s
  else doneBoot s { s with boot := s.boot.setCopy k (readCopy s.flash k) }

/-- SIGNATURE_CHECK_DONE (R37 steps 3 and 4, R44 step 4). -/
def execSignatureCheckDone (s : State) : Out :=
  if s.boot.dev ≠ .charterLoad ∨ !s.boot.copyA.seen ∨ !s.boot.copyB.seen ∨ s.boot.copyA.sigDone ∨ loadOverdue s
      ∨ s.boot.fatal.isSome then doneBoot s s
  else doneBoot s { s with boot := { s.boot with copyA := checkCopy s.boot.copyA, copyB := checkCopy s.boot.copyB } }

def CopySt.valid (c : CopySt) : Bool := c.finished && c.failStep == 0

/-- COPY_SELECTION (R39): the copy to load, and whether the copies are ambiguous. -/
def selectCopy (a b : CopySt) : Option Slot × Bool :=
  if a.valid && b.valid then
    if a.seq < b.seq then (some .b, false)
    else if b.seq < a.seq then (some .a, false)
    else (some .a, a.digest != b.digest)
  else if a.valid then (some .a, false)
  else if b.valid then (some .b, false)
  else (none, false)

/-- CHARTER_LOAD_DONE (R39, R44 step 5, R56). -/
def execCharterLoadDone (s : State) : Out :=
  if s.boot.dev ≠ .charterLoad ∨ !s.boot.copyA.sigDone ∨ !s.boot.copyB.sigDone ∨ loadOverdue s ∨ s.boot.fatal.isSome then
    doneBoot s s
  else
    let a := walkCopy s.boot.copyA
    let b := walkCopy s.boot.copyB
    let sel := selectCopy a b
    let ch := match sel.1 with
      | none => limpCharter
      | some k => charterOf ((imageRecords (match k with | .a => a.image | .b => b.image)).getD [])
    let t := applyCharter s ch
    let t := { t with boot := { t.boot with dev := .selftest, selected := sel.1, ambiguous := sel.2,
                                            copyA := { a with image := [] }, copyB := { b with image := [] } } }
    doneBoot s (if sel.2 then chipErr t 0x43 0 0 0 0 else t)

/-- CHARTER_LOAD_TIMEOUT (R46): after 500 ms of steps 2 to 5. -/
def execCharterLoadTimeout (s : State) : Out :=
  if s.boot.dev ≠ .charterLoad ∨ !loadOverdue s ∨ s.boot.fatal.isSome then doneBoot s s else doneBoot s (abandonLoad s)

/-- SRAM_CLEAR_DONE (R44 step 6): commons and local stores read zero and are clean. -/
def execSramClearDone (s : State) : Out :=
  if s.boot.dev ≠ .selftest ∨ s.boot.sramClear ∨ s.boot.fatal.isSome then doneBoot s s
  else doneBoot s { s with boot := { s.boot with sramClear := true }
                           mem := s.mem.filter (fun c => !isSram c.1)
                           poison := s.poison.filter (fun g => !isSram g) }

/-- HBM_TRAINING_DONE (R47, R44 step 7). -/
def execHbmTrainingDone (trained : BitVec 8) (s : State) : Out :=
  if s.boot.dev ≠ .selftest ∨ !s.boot.sramClear ∨ s.boot.fatal.isSome then doneBoot s s
  else doneBoot s { s with boot := { s.boot with dev := .plantArm, hbmTrained := trained,
                                                  hbmDegraded := trained != 0xFF } }

/-- PUMP_TACH_WINDOW_EXPIRY (R48): the window closes without rotation. The loss's response applies (R102). -/
def execPumpTachWindowExpiry (s : State) : Out :=
  if s.boot.dev ≠ .plantArm ∨ s.boot.armTach ∨ s.boot.fatal.isSome then doneBoot s s
  else doneBoot s (activate (raiseLoss { s with boot := { s.boot with armTach := true, armFail := true } } 3) .pumpTach)

/-- I3C_ENUMERATION_DONE (R48, R87): which of the eight named sensors answered. In LIMP there is no enumeration
(R51). -/
def execI3cEnumerationDone (answered : List Bool) (s : State) : Out :=
  if answered.length ≠ 8 then bad "I3C_ENUMERATION_DONE"
  else if s.boot.dev ≠ .plantArm ∨ s.boot.i3cDone ∨ s.charter.isLimp ∨ s.boot.fatal.isSome then doneBoot s s
  else
    let named (i : Nat) : Bool := (s.charter.sensors.getD i (0, 0)).2 != 0
    let inlet (i : Nat) : Bool := (s.charter.sensors.getD i (0, 0)).2 == 1
    let t : State := { s with
      boot := { s.boot with i3cDone := true }
      plt := { s.plt with sensors := upTo 8 s.plt.sensors (fun t i =>
        t.put {} i { t.get {} i with enumerated := named i && answered.getD i false }) } }
    if (List.range 8).any (fun i => inlet i && answered.getD i false) then doneBoot s t
    else doneBoot s (activate (raiseLoss { t with boot := { t.boot with armInlet := true, armFail := true } } 5) .inletAll)

/-- Energy from the reservoir's voltage in 1/65,536 LU (R101): `v` in 1/32 V codes of the reservoir ADC, bounds in
10 mV. -/
def eVolt (usable v vFull vEmpty : Nat) : Nat :=
  -- V in 10 mV is v x 100 / 32; both squares in units of (10 mV / 8)^2
  let x : Int := ((25 * v) ^ 2 : Nat) - ((8 * vEmpty) ^ 2 : Nat)
  let d : Int := ((8 * vFull) ^ 2 : Nat) - ((8 * vEmpty) ^ 2 : Nat)
  if d ≤ 0 ∨ x ≤ 0 then 0
  else Nat.min (usable * 65536) ((usable * 65536 : Int) * x / d).toNat

/-- CONVERTER_HANDSHAKE (R85, R86). DESIGN CHOICE (log entry 110): an answer with v_full at or below v_empty is kept nowhere. -/
def handshake (s : State) (conv : Option ConvAnswer) (vCode : BitVec 12) : State :=
  if s.charter.usableLu = 0 then s
  else match conv with
    | some c =>
      if c.vEmpty < c.vFull then
        let e := eVolt s.charter.usableLu vCode.toNat c.vFull.toNat c.vEmpty.toNat
        { s with plt := { s.plt with vFull := c.vFull, vEmpty := c.vEmpty, convOk := true, coulomb := e, eVolt := e,
                                      resV := vCode.toNat, lastRec := s.time } }
      else activate (raiseLoss s 2) .conv
    | none => activate (raiseLoss s 2) .conv

/-- Ports at READY: an enabled port trains, the others stay fenced by the Charter (R338, R51). -/
def armPorts (s : State) : State :=
  match s.charter.topo with
  | none => s
  | some t => upTo 16 s (fun u g =>
      if t.ports.getLsbD g then u.setPort g { u.port g with st := .training, cause := 0, since := u.time } else u)

/-- The lowest route table present (R337). -/
def lowestTable (c : Charter) : Nat :=
  ((List.range 4).find? (fun k => (look c.routes.entries k).isSome)).getD 0

/-- A loss response that LIMP's plant still has a source for (R51): no sensor, flow gate, regulator or reservoir is
monitored there. -/
def limpLoss : Loss → Bool
  | .feedAdc | .conv | .pumpTach | .inletAll | .junction _ => true
  | .resAdc | .flow | .outletAll | .temp _ | .pmbus _ | .avsbus _ => false

/-- A governor's loops without a reservoir, regulators or a valve (R51, R86). -/
def limpLoops (g : GovLoop) : GovLoop :=
  { g with resInt := 0, cReq := 0, dLim := 0, valveInt := 0, valveDuty := 0, voltInt := {}, trim := {}, nak := {} }

/-- LIMP_ENTRY through R48: the LIMP values replace the Charter's, the plant is LIMP's, T is 1.0 without a residual, and
the partitions' books and the scheduler's start from zero (R48, R50, R51, R56, R61, R86). -/
def limpEntry (s : State) : State :=
  let t := applyCharter s limpCharter
  let t := clearRegs t 0x00020100 0x00020180
  let t : State := { t with
    gov := { t.gov with parts := {}, a := limpLoops t.gov.a, b := limpLoops t.gov.b, trim := 0x4000, frozen := false,
                        residual := 0, carried := 0 }
    plt := { t.plt with sensors := {}, active := t.plt.active.filter limpLoss, coulomb := 0, eVolt := 0, convOk := false,
                        vFull := 0, vEmpty := 0, dueAt := none, convOff := none, noTel := [], mlMin := 0, badGates := 0,
                        goodGates := 0 } }
  let t := upTo 8 t (fun u p => u.setPartS p { u.partS p with used := 0 })
  upTo 128 t (fun u f => u.setFnS f { u.fnS f with deficit := 0 })

/-- HQ_CTX_LIMIT and the allotment registers: what the capability table states of the register file (R278). -/
def inCap (a : Nat) : Bool := (0x00040200 ≤ a && a < 0x00040400) || (0x00208000 ≤ a && a < 0x0020C000)

/-- PLANT_ARM_DONE (R48, R85, R42 to R44): TotalVFs becomes 127 in READY, 0 in LIMP (R43), and the capability table is
written (R278). PLANT_ARM ends after its enumeration, the governors' start and a first comparator heartbeat. -/
def execPlantArmDone (conv : Option ConvAnswer) (vCode : BitVec 12) (s : State) : Out :=
  if s.boot.dev ≠ .plantArm ∨ !s.gov.started ∨ (s.gov.beats = 0 ∧ !s.gov.lost) ∨ (!s.boot.i3cDone ∧ !s.charter.isLimp)
      ∨ s.boot.fatal.isSome then doneBoot s s
  else
    let t := handshake s conv vCode
    let t := if t.boot.armFail && !t.charter.isLimp then limpEntry t else t
    let limp := t.charter.isLimp
    let t := { t with boot := { t.boot with dev := if limp then .limp else .ready, crs := false,
                                            bootMs := (t.time - t.boot.seqAt + t.boot.seqLead) / ms,
                                            pumpPin := .pwm, valvePin := .pwm,
                                            pci := { t.boot.pci with totalVfs := if limp then 0 else 127 } } }
    let t := { t with hq := { t.hq with capRegs := t.regs.filter (fun r => inCap r.1) } }
    doneBoot s (if limp then t else wrF (armPorts t) 0x00508004 0 2 (lowestTable t.charter))

/-- A configuration request is answered with CRS (R42). -/
def crsNow (s : State) : Bool := s.boot.link && s.boot.dev != .ready && s.boot.dev != .limp

/-- CONFIG_RETRY (R42): a configuration request before READY or LIMP completes with CRS. -/
def execConfigRetry (s : State) : Out :=
  doneBoot s { s with boot := { s.boot with crs := crsNow s } }

end Sys2Proof.Machine
end

