-- ==== Sys2Proof/Machine/Formats.lean ====
section
/-! DEFINITION. Number formats: exact values, rounding, and the encodings of R133 to R135, R146, R189 and R190. A
finite value is (-1)^neg x m x 2^e with a natural m. -/

namespace Sys2Proof.Machine

/-- An exact value. -/
inductive Fp
  | nan
  | inf (neg : Bool)
  | num (neg : Bool) (m : Nat) (e : Int)
deriving DecidableEq, Repr

/-- Rounding modes in the order of R189: nearest-even, toward zero, toward +infinity, toward -infinity. -/
inductive Rnd | ne | zero | up | down
deriving DecidableEq, Repr

def rndOf (n : Nat) : Rnd := if n = 0 then .ne else if n = 1 then .zero else if n = 2 then .up else .down

/-- Number of significant bits. -/
def bitLen (n : Nat) : Nat := if n = 0 then 0 else Nat.log2 n + 1

/-- n x 2^k for k >= 0, and floor for k < 0. -/
def shiftInt (n : Nat) (k : Int) : Nat := if k ≥ 0 then n <<< k.toNat else n >>> (-k).toNat

/-- A magnitude of `m` in units of which the low `sh` bits are cut off, rounded. -/
def roundCut (mode : Rnd) (neg : Bool) (m sh : Nat) : Nat :=
  let q := m >>> sh
  let r := m - (q <<< sh)
  let up := match mode with
    | .ne => 2 * r > 2 ^ sh || (2 * r == 2 ^ sh && q % 2 == 1)
    | .zero => false
    | .up => r > 0 && !neg
    | .down => r > 0 && neg
  if up then q + 1 else q

/-- Rounds m x 2^e to `p` significant bits and no bit below 2^lo: a mantissa and its exponent. -/
def roundFp (mode : Rnd) (neg : Bool) (m : Nat) (e : Int) (p : Nat) (lo : Int) : Nat × Int :=
  if m = 0 then (0, lo)
  else
    let q := max (e + bitLen m - p) lo
    if q ≤ e then (m <<< (e - q).toNat, q)
    else
      let r := roundCut mode neg m (q - e).toNat
      if r = 2 ^ p then (2 ^ (p - 1), q + 1) else (r, q)

/-- A binary format: exponent and mantissa bits, bias, and whether the top exponent stands for infinity and NaN. -/
structure Fmt where
  eb : Nat
  mb : Nat
  bias : Nat
  ieee : Bool
deriving DecidableEq, Repr

def f32 : Fmt := ⟨8, 23, 127, true⟩
def bf16 : Fmt := ⟨8, 7, 127, true⟩
def f16 : Fmt := ⟨5, 10, 15, true⟩
def e4m3 : Fmt := ⟨4, 3, 7, false⟩
def e5m2 : Fmt := ⟨5, 2, 15, true⟩
def e3m2 : Fmt := ⟨3, 2, 3, false⟩
def e2m3 : Fmt := ⟨2, 3, 1, false⟩
def e2m1 : Fmt := ⟨2, 1, 1, false⟩

/-- Largest finite pattern without its sign: E4M3 keeps its top pattern for NaN (R133). -/
def Fmt.maxFinite (f : Fmt) : Nat :=
  if f.ieee then (2 ^ f.eb - 1) * 2 ^ f.mb - 1
  else if f = e4m3 then 2 ^ (f.eb + f.mb) - 2
  else 2 ^ (f.eb + f.mb) - 1

/-- The value of a pattern. -/
def Fmt.decode (f : Fmt) (w : Nat) : Fp :=
  let neg := bit w (f.eb + f.mb)
  let x := fld w f.mb f.eb
  let m := fld w 0 f.mb
  if f.ieee && x == 2 ^ f.eb - 1 then (if m = 0 then .inf neg else .nan)
  else if f = e4m3 && x == 15 && m == 7 then .nan
  else if x = 0 then .num neg m (1 - (f.bias : Int) - f.mb)
  else .num neg (2 ^ f.mb + m) ((x : Int) - f.bias - f.mb)

/-- What an overflow becomes: infinity unless the rounding mode stops at the largest finite value, the largest finite
value, or infinity in every mode (R190). -/
inductive Over | inf | sat | hard
deriving DecidableEq, Repr

/-- The pattern of infinity (without sign). -/
def Fmt.infPat (f : Fmt) : Nat := (2 ^ f.eb - 1) * 2 ^ f.mb

/-- The canonical NaN of a format (R143, R190). -/
def Fmt.nanPat (f : Fmt) : Nat := if f.ieee then f.infPat + 2 ^ (f.mb - 1) else 2 ^ (f.eb + f.mb) - 1

/-- Overflow in a rounding mode: the modes that round toward zero on that side stop at the largest finite value. -/
def overPat (f : Fmt) (mode : Rnd) (neg : Bool) (o : Over) : Nat :=
  let toMax := match mode with | .ne => false | .zero => true | .up => neg | .down => !neg
  if o = .sat || (toMax && o = .inf) then f.maxFinite else f.infPat

/-- The pattern of a value rounded to a format. -/
def Fmt.encode (f : Fmt) (mode : Rnd) (o : Over) (v : Fp) : Nat :=
  let sign (neg : Bool) : Nat := if neg then 2 ^ (f.eb + f.mb) else 0
  match v with
  | .nan => f.nanPat
  | .inf neg => sign neg + (if o = .sat then f.maxFinite else f.infPat)
  | .num neg m e =>
    let r := roundFp mode neg m e (f.mb + 1) (1 - (f.bias : Int) - f.mb)
    let pat := if r.1 < 2 ^ f.mb then r.1
      else ((r.2 + f.mb + f.bias).toNat) * 2 ^ f.mb + (r.1 - 2 ^ f.mb)
    sign neg + (if f.maxFinite < pat then overPat f mode neg o else pat)

/-- FP32 bits of a value, rounded to nearest even. -/
def toF32 (v : Fp) : W32 := BitVec.ofNat 32 (f32.encode .ne .inf v)
def toF32m (mode : Rnd) (v : Fp) : W32 := BitVec.ofNat 32 (f32.encode mode .inf v)
def ofF32 (w : W32) : Fp := f32.decode w.toNat

/-- The canonical NaN (R143). -/
def canonNan : W32 := 0x7FC00000

def ofInt (v : Int) : Fp := .num (v < 0) v.natAbs 0

/-! ## Exact arithmetic -/

def Fp.neg : Fp → Fp
  | .nan => .nan
  | .inf n => .inf (!n)
  | .num n m e => .num (!n) m e

def Fp.abs : Fp → Fp
  | .nan => .nan
  | .inf _ => .inf false
  | .num _ m e => .num false m e

def Fp.mul : Fp → Fp → Fp
  | .nan, _ => .nan
  | _, .nan => .nan
  | .inf a, .inf b => .inf (a != b)
  | .inf a, .num b m _ => if m = 0 then .nan else .inf (a != b)
  | .num a m _, .inf b => if m = 0 then .nan else .inf (a != b)
  | .num a m e, .num b n g => .num (a != b) (m * n) (e + g)

/-- A finite value as a signed multiple of 2^lo, for lo at or below its exponent. -/
def scaled (neg : Bool) (m : Nat) (e lo : Int) : Int :=
  let v := (m <<< (e - lo).toNat : Nat)
  if neg then -(v : Int) else v

/-- The exact sum. A zero sum of opposite signs is +0, and -0 toward -infinity. -/
def Fp.add (mode : Rnd) : Fp → Fp → Fp
  | .nan, _ => .nan
  | _, .nan => .nan
  | .inf a, .inf b => if a = b then .inf a else .nan
  | .inf a, .num _ _ _ => .inf a
  | .num _ _ _, .inf b => .inf b
  | .num a m e, .num b n g =>
    let lo := min e g
    let t := scaled a m e lo + scaled b n g lo
    if t = 0 then
      if m = 0 ∧ n = 0 ∧ a = b then .num a 0 lo
      else .num (mode == .down && !(a == b && !a)) 0 lo
    else .num (t < 0) t.natAbs lo

/-- The order of two values that are no NaN: a < b, with -0 equal to +0. -/
def Fp.lt : Fp → Fp → Bool
  | .num a m e, .num b n g => scaled a m e (min e g) < scaled b n g (min e g)
  | .inf a, .inf b => a && !b
  | .inf a, .num _ _ _ => a
  | .num _ _ _, .inf b => !b
  | _, _ => false

def Fp.eq : Fp → Fp → Bool
  | .num a m e, .num b n g => scaled a m e (min e g) == scaled b n g (min e g)
  | .inf a, .inf b => a == b
  | _, _ => false

def Fp.isNan : Fp → Bool | .nan => true | _ => false
def Fp.isNeg : Fp → Bool | .nan => false | .inf n => n | .num n _ _ => n
def Fp.isZero : Fp → Bool | .num _ m _ => m == 0 | _ => false
def Fp.isInf : Fp → Bool | .inf _ => true | _ => false

/-- Quotient cut to enough bits, with a sticky bit. -/
def Fp.div : Fp → Fp → Fp
  | .nan, _ => .nan
  | _, .nan => .nan
  | .inf _, .inf _ => .nan
  | .inf a, .num b _ _ => .inf (a != b)
  | .num a _ _, .inf b => .num (a != b) 0 0
  | .num a m e, .num b n g =>
    if n = 0 then (if m = 0 then .nan else .inf (a != b))
    else if m = 0 then .num (a != b) 0 0
    else
      let k := 64 + bitLen n
      let q := (m <<< k) / n
      let st := if q * n = m <<< k then 0 else 1
      .num (a != b) (2 * q + st) (e - g - k - 1)

/-- Integer square root, by bits from the top. -/
def isqrtGo (n : Nat) : Nat → Nat → Nat
  | 0, r => r
  | b + 1, r => let c := r + 2 ^ b; isqrtGo n b (if c * c ≤ n then c else r)
def isqrt (n : Nat) : Nat := isqrtGo n (bitLen n / 2 + 1) 0

/-- Square root cut to enough bits, with a sticky bit. -/
def Fp.sqrt : Fp → Fp
  | .nan => .nan
  | .inf n => if n then .nan else .inf false
  | .num neg m e =>
    if m = 0 then .num neg 0 0
    else if neg then .nan
    else
      let k : Nat := 128 + (if (e % 2) = 0 then 0 else 1)
      let v := m <<< k
      let r := isqrt v
      let st := if r * r = v then 0 else 1
      .num false (2 * r + st) ((e - k) / 2 - 1)

/-- Value times 2^k. -/
def Fp.scale (k : Int) : Fp → Fp
  | .num n m e => .num n m (e + k)
  | v => v

/-- Rounds a value to an integer. -/
def Fp.toInt (mode : Rnd) : Fp → Int
  | .num neg m e =>
    let r : Nat := if e ≥ 0 then m <<< e.toNat else roundCut mode neg m (-e).toNat
    if neg then -(r : Int) else r
  | _ => 0

/-- Saturation of an integer. -/
def clampI (v lo hi : Int) : Int := if v < lo then lo else if hi < v then hi else v

/-- A value rounded to an integer and saturated; an infinity saturates with its sign and a NaN gives 0 (R146, R190). -/
def Fp.toSat (mode : Rnd) (lo hi : Int) : Fp → Int
  | .nan => 0
  | .inf neg => if neg then lo else hi
  | v => clampI (v.toInt mode) lo hi

/-! ## MX formats (R133 to R135, R239) -/

/-- Format codes of R133. -/
def isMx (c : Nat) : Bool := c == 5 || c == 6 || c == 7
def isIntFmt (c : Nat) : Bool := c == 8 || c == 9 || c == 10

/-- Width of an element in bits; MXFP6 elements take 6. -/
def elemBits (c : Nat) : Nat :=
  if c = 0 ∨ c = 10 then 32 else if c = 1 ∨ c = 2 then 16 else if c = 3 ∨ c = 4 ∨ c = 8 then 8
  else if c = 5 ∨ c = 6 then 6 else 4

/-- Packed length of a line of `n` elements (R239). -/
def lineBytes (c n : Nat) : Nat :=
  if c = 5 ∨ c = 6 then 3 * ((n + 3) / 4) else (n * elemBits c + 7) / 8

/-- The bytes that hold element `i` of a line: first byte and number (R239). -/
def elemSpan (c i : Nat) : Nat × Nat :=
  if c = 5 ∨ c = 6 then (3 * (i / 4), 3) else if elemBits c = 4 then (i / 2, 1) else (i * (elemBits c / 8), elemBits c / 8)

/-- Element `i` out of the bytes of its span. -/
def elemGet (c i : Nat) (b : List Byte) : Nat :=
  let w := leNat b
  if c = 5 ∨ c = 6 then fld w (6 * (i % 4)) 6 else if elemBits c = 4 then fld w (4 * (i % 2)) 4 else w

/-- The bytes of element `i`'s span with the element replaced. -/
def elemSet (c i v : Nat) (b : List Byte) : List Byte :=
  let w := leNat b
  if c = 5 ∨ c = 6 then leBytes 3 (setFld w (6 * (i % 4)) 6 v)
  else if elemBits c = 4 then leBytes 1 (setFld w (4 * (i % 2)) 4 v)
  else leBytes (elemBits c / 8) v

/-- The value of an element pattern; `sc` is its block's scale code for the MX formats (R133, R135). -/
def decodeElem (c w sc : Nat) : Fp :=
  let mx (f : Fmt) : Fp := if sc = 255 then .nan else (f.decode w).scale ((sc : Int) - 127)
  match c with
  | 0 => f32.decode w
  | 1 => bf16.decode w
  | 2 => f16.decode w
  | 3 => e4m3.decode w
  | 4 => e5m2.decode w
  | 5 => mx e3m2
  | 6 => mx e2m3
  | 7 => mx e2m1
  | 8 => ofInt (sgn w 8)
  | 9 => ofInt (sgn w 4)
  | _ => ofInt (sgn w 32)

/-- An FP32 value converted to a format that has no block scale (R146). -/
def encodeElem (c : Nat) (v : W32) : Nat :=
  let x := ofF32 v
  match c with
  | 0 => if x.isNan then canonNan.toNat else v.toNat
  | 1 => bf16.encode .ne .inf x
  | 2 => f16.encode .ne .inf x
  | 3 => e4m3.encode .ne .sat x
  | 4 => e5m2.encode .ne .inf x
  | 8 => wrapN (x.toSat .ne (-128) 127) 8
  | 9 => wrapN (x.toSat .ne (-8) 7) 4
  | _ => wrapN (x.toSat .ne (-(2 ^ 31)) (2 ^ 31 - 1)) 32

/-- The element format of an MX code and its e of R146. -/
def mxFmt (c : Nat) : Fmt × Int := if c = 5 then (e3m2, 4) else if c = 6 then (e2m3, 2) else (e2m1, 2)

/-- Magnitude order of two finite values. -/
def magLt (a b : Fp) : Bool := a.abs.lt b.abs

/-- floor(log2 |v|) of a finite value that is not zero. -/
def floorLog2 : Fp → Int
  | .num _ m e => e + bitLen m - 1
  | _ => 0

/-- The scale code and elements of one block of FP32 values (R146). -/
def encodeBlock (c : Nat) (vs : List W32) : Nat × List Nat :=
  let xs := vs.map ofF32
  if xs.any (fun x => x.isNan || x.isInf) then (255, vs.map (fun _ => 0))
  else
    let amax := xs.foldl (fun a x => if magLt a x then x else a) (.num false 0 0)
    let (f, e) := mxFmt c
    if amax.isZero then (0, xs.map (fun x => f.encode .ne .sat x))
    else
      let k := clampI (floorLog2 amax - e) (-127) 127
      ((k + 127).toNat, xs.map (fun x => f.encode .ne .sat (x.scale (-k))))

/-- FP32 value x scale, rounded to nearest even (R146). -/
def mulF32 (a b : W32) : W32 := toF32 ((ofF32 a).mul (ofF32 b))
def addF32 (a b : W32) : W32 := toF32 ((ofF32 a).add .ne (ofF32 b))
def divF32 (a b : W32) : W32 := toF32 ((ofF32 a).div (ofF32 b))

/-- An integer converted to FP32 with round-to-nearest-even. -/
def i32f (v : Int) : W32 := toF32 (ofInt v)

/-- An integer-tagged value drained to INT32 with scale `s` (R146). -/
def drainInt (v : Int) (s : W32) : Nat :=
  match ofF32 s with
  | .nan => 0
  | .inf n => if v = 0 then 0 else wrapN (if (v < 0) = n then 2 ^ 31 - 1 else -(2 ^ 31)) 32
  | x => wrapN (((ofInt v).mul x).toSat .ne (-(2 ^ 31)) (2 ^ 31 - 1)) 32

/-! ## FP32 neighbours and the approximate functions (R189) -/

/-- Position of a finite or infinite FP32 value on the number line, in steps of one ulp. -/
def f32Ord (w : W32) : Int := let m : Int := (w.toNat % 2 ^ 31 : Nat); if w.toNat.testBit 31 then -m else m

/-- The FP32 value at a position; a magnitude past infinity stays infinity. -/
def f32At (i : Int) : W32 :=
  let m := Nat.min i.natAbs f32.infPat
  BitVec.ofNat 32 (if i < 0 then 2 ^ 31 + m else m)

/-- A value within `n` ulp of the exact `v`, otherwise free: `c` chooses among the FP32 values that are certainly within
the bound. -/
def withinUlp (n : Nat) (v : Fp) (c : Nat) : W32 :=
  let lo := f32Ord (toF32m .down v)
  let hi := f32Ord (toF32m .up v)
  let a := hi - n
  let b := lo + n
  f32At (a + ((c % ((b - a).toNat + 1) : Nat) : Int))

/-- pi x 2^256, rounded down. -/
def piFix : Nat := 0x3243F6A8885A308D313198A2E03707344A4093822299F31D0082EFA98EC4E6C89

/-- Fixed-point sine or cosine series at x (scale 2^256): sums `n` terms t, -t x^2/((k)(k+1)), ... -/
def trigGo (x2 : Nat) : Nat → Nat → Int → Int → Int
  | 0, _, _, acc => acc
  | n + 1, k, t, acc => trigGo x2 n (k + 2) (-(t * x2 / 2 ^ 256) / ((k : Int) * (k + 1))) (acc + t)

/-- sin and cos of x / 2^256 for 0 <= x < 2^256. -/
def sinFix (x : Nat) : Int := trigGo (x * x / 2 ^ 256) 40 2 x 0
def cosFix (x : Nat) : Int := trigGo (x * x / 2 ^ 256) 40 1 (2 ^ 256) 0

/-- Sine and cosine of a finite value by octants of pi/4, from a fixed-point number of scale 2^256. -/
def trigFp (cosine : Bool) (neg : Bool) (m : Nat) (e : Int) : Fp :=
  let lead : Int := e + bitLen m
  if m = 0 then (if cosine then .num false 1 0 else .num neg 0 0)
  else if lead < -60 then
    -- sin x = x - x^3/6 and cos x = 1 - x^2/2, told from x and from 1 by a sticky bit
    if cosine then .num false (2 ^ 130 - 1) (-130) else .num neg (m * 2 ^ 130 - 1) (e - 130)
  else
    let x := shiftInt m (e + 256)
    let q := x / (piFix / 4)
    let r := x % (piFix / 4)
    let oct := q % 8
    let y := if oct % 2 = 1 then piFix / 4 - r else r
    let useSin := if cosine then oct % 4 = 1 ∨ oct % 4 = 2 else oct % 4 = 0 ∨ oct % 4 = 3
    let v := if useSin then sinFix y else cosFix y
    let flip := if cosine then 2 ≤ oct ∧ oct ≤ 5 else 4 ≤ oct
    .num (if cosine then flip else (decide flip != neg)) v.natAbs (-256)

/-- ln 2 x 2^256, rounded down. -/
def ln2Fix : Nat := 0xb17217f7d1cf79abc9e3b39803f2f6af40f343267298b62d8a0d175b8baafa2b

/-- The exponential series of y / 2^256. -/
def expGo (y : Nat) : Nat → Nat → Nat → Nat → Nat
  | 0, _, _, acc => acc
  | n + 1, k, t, acc => expGo y n (k + 1) (t * y / 2 ^ 256 / k) (acc + t)

/-- 2^v for a finite v: exact for an integer, else with a sticky bit. -/
def exp2Fp (neg : Bool) (m : Nat) (e : Int) : Fp :=
  if m = 0 then .num false 1 0
  else if e + bitLen m > 12 then (if neg then .num false 1 (-1000) else .num false 1 1000)
  else if e + bitLen m < -60 then
    if neg then .num false (2 ^ 130 - 1) (-130) else .num false (2 ^ 130 + 1) (-130)
  else
    let x : Int := (shiftInt m (e + 256) : Nat)
    let x := if neg then -x else x
    let n := x / 2 ^ 256
    let f := (x % 2 ^ 256).toNat
    if f = 0 then .num false 1 n
    else .num false (2 * expGo (f * ln2Fix / 2 ^ 256) 70 1 (2 ^ 256) 0 + 1) (n - 257)

/-- Bits of log2 z for z / 2^256 in [1, 2), by repeated squaring. -/
def log2Go : Nat → Nat → Nat → Nat
  | 0, _, acc => acc
  | n + 1, z, acc =>
    let w := z * z / 2 ^ 256
    if 2 ^ 257 ≤ w then log2Go n (w / 2) (2 * acc + 1) else log2Go n w (2 * acc)

/-- log2 of a positive finite value: exact for a power of two, else with a sticky bit. -/
def log2Fp (m : Nat) (e : Int) : Fp :=
  let l := bitLen m
  let i : Int := e + l - 1
  if m = 2 ^ (l - 1) then ofInt i
  else
    let t : Int := i * 2 ^ 121 + (2 * log2Go 120 (shiftInt m (257 - (l : Int))) 0 + 1 : Nat)
    .num (t < 0) t.natAbs (-121)

end Sys2Proof.Machine
end

