-- ==== Sys2Proof/Machine/Mem.lean ====
section
/-! DEFINITION. Memory access: the regions (R200 to R202), reads and writes with their checks and poison (R231, R232),
translation (R207 to R215), invalidation (R214), the sketch slots' dump (R250, R251) and the patrol scrubber (R234). -/

namespace Sys2Proof.Machine

/-! ## Regions -/

/-- Number of set bits below bit `n`. -/
def popTo (w n : Nat) : Nat := ((List.range n).filter (fun i => w.testBit i)).length

/-- T of R201. -/
def trained (s : State) : Nat := popTo s.boot.hbmTrained.toNat 8

/-- First byte past the populated HBM3E (R201). -/
def hbmTop (s : State) : Nat := trained s * (24 * 2 ^ 30)

/-- The address lies in a listed region (R200). -/
def inRegion (a : Nat) : Bool := isHbm a || isCommons a || isLocal a || isHost a

/-- The address is populated (R200, R201). -/
def populated (s : State) (a : Nat) : Bool := (isHbm a && a < hbmTop s) || isCommons a || isLocal a || isHost a

/-- Stack number of an HBM3E address (R201). -/
def stackOf (s : State) (a : Nat) : Nat :=
  let t := trained s
  if t = 0 then 0 else ((List.range 8).filter (fun i => s.boot.hbmTrained.toNat.testBit i)).getD (a / 1024 % t) 0

/-- Slice of a commons address (R202). -/
def sliceOf (a : Nat) : Nat := (a - 0x4000000000) / 1024 % 64

/-- Core of an aperture address (R200). -/
def apCore (a : Nat) : Nat := (a - 0x4100000000) / 0x1000000

/-- Instance that an event of a memory is reported with (R351). -/
def memInst (s : State) (a : Nat) : Nat :=
  if isHbm a then stackOf s a else if isCommons a then sliceOf a else if isLocal a then apCore a else 0

/-- The CE counter of an address's memory; its UE counter is the next register (R231). -/
def memCeA (a : Nat) : Nat := if isHbm a then 0x02000010 else if isCommons a then 0x02000018 else 0x02000020

/-! ## ECC (R231) -/

/-- A correctable error of a granule: corrected and counted. -/
def eccCorrect (s : State) (g : Nat) : State := chipErr (inc16 s (memCeA g)) 0x49 0 8 (memInst s g) g

/-- An uncorrectable error of a granule: counted, and the granule is poisoned. -/
def eccLose (s : State) (g : Nat) : State :=
  poisonRange (chipErr (inc16 s (memCeA g + 4)) 0x4A 0 8 (memInst s g) g) g 1

/-- The outcome of a check of granule `g`. An error of a granule that is poisoned already counts for nothing new. -/
def eccApply (s : State) (g : Nat) (r : Ecc) : State :=
  if isHost g || s.poison.contains g then s
  else match r with
    | .clean => s
    | .correctable => eccCorrect s g
    | .uncorrectable => eccLose s g

/-- No byte of the HBM3E granule has been written since the chip reset (R201). -/
def neverWritten (s : State) (g : Nat) : Bool :=
  isHbm g && (List.range 32).all (fun i => (look s.mem (g + i)).isNone)

/-- The check of a granule that a read meets: a granule that was never written may report any error (R201). -/
def checkGranule (s : State) (g : Nat) : State :=
  if neverWritten s g then
    match Config.undefEcc s.freeIdx g with
    | 0 => s
    | 1 => eccApply s g .correctable
    | _ => eccApply s g .uncorrectable
  else s

/-- First bytes of the granules that a range of `n` bytes touches. -/
def granulesOf (a n : Nat) : List Nat :=
  if n = 0 then [] else
    let z := granLen a
    (List.range ((a + n - 1) / z - a / z + 1)).map (fun i => (a / z + i) * z)

/-- The checks of the granules that a read of `n` bytes touches. -/
def checkRead (s : State) (a n : Nat) : State := (granulesOf a n).foldl checkGranule s

/-- Counts the bytes of an access for the event counters 10, 11 and 12 (R358). -/
def memEvents (s : State) (a n : Nat) (w : Bool) : State :=
  if !monRuns s || n = 0 then s else
  (List.range ((a + n - 1) / 1024 - a / 1024 + 1)).foldl (fun t i =>
    let lo := Nat.max a ((a / 1024 + i) * 1024)
    let hi := Nat.min (a + n) ((a / 1024 + i + 1) * 1024)
    if isHbm lo then monEvent t (if w then 11 else 10) (stackOf s lo) (hi - lo)
    else if isCommons lo then monEvent t 12 (sliceOf lo) (hi - lo)
    else t) s

/-- The latency samples of the line reads of `n` bytes at `a`, by source 1 or 2 (R356): free values (log entry 35). -/
def readSamples (s : State) (a n : Nat) : State :=
  if !monRuns s || n = 0 then s else
  (List.range ((a + n - 1) / 128 - a / 128 + 1)).foldl (fun t i =>
    let lo := Nat.max a ((a / 128 + i) * 128)
    let v := (Config.freeFp s.freeIdx (2 ^ 71 + lo)).toNat
    if isHbm lo then monSample t false 1 (stackOf s lo) v
    else if isCommons lo then monSample t false 2 (sliceOf lo) v
    else t) s

/-- A read of `n` bytes at home: none where a granule is poisoned (R232). -/
def readPa (s : State) (a n : Nat) : State × Option (List Byte) :=
  let s1 := readSamples (memEvents (checkRead s a n) a n false) a n
  if poisoned s1 a n then (s1, none) else (s1, some (memBytes s1 a n))

/-- A write at home. A granule covered only in part is read and checked first (R231). -/
def writePa (s : State) (a : Nat) (bs : List Byte) : State :=
  let n := bs.length
  let part := (granulesOf a n).filter (fun g => !(a ≤ g && g + granLen g ≤ a + n))
  memEvents (memWrite (part.foldl checkGranule s) a bs) a n true

/-! ## Translation (R207 to R215) -/

/-- Kinds of access (R210). -/
inductive Acc | read | write | fetch
deriving DecidableEq, Repr

/-- A failed access: cause code (R129, R171), sub-cause and level (R215), virtual address. -/
structure XF where
  code : Nat := 2
  sub : Nat := 0
  level : Nat := 0
  va : Nat := 0
deriving DecidableEq, Repr

/-- Outcome of a translation: the physical address, the page's bypass bit, and whether it came from a translation that
an invalidation in progress covers. -/
inductive Tr
  | ok (pa : Nat) (bypass old : Bool)
  | bad (sub level : Nat)
deriving DecidableEq, Repr

/-- The address lies inside a valid allotment of function `f` (R211). -/
def inAllot (s : State) (f a : Nat) : Bool :=
  (List.range 16).any (fun k =>
    let lo := (rd s (allotA f k 0)).toNat
    let base := fld lo 1 31 * 2 ^ 21
    bit lo 0 && base ≤ a && a < base + rdF s (allotA f k 1) 0 18 * 2 ^ 21)

/-- The checks of a table's address (R215 step 2). -/
def tableCheck (s : State) (f a : Nat) : Option Nat :=
  if !inRegion a then some 6
  else if isHost a || isLocal a then some 7
  else if !populated s a then some 6
  else if !inAllot s f a then some 5
  else none

/-- The checks of a page's address (R215 step 3). -/
def pageCheck (s : State) (f a : Nat) : Option Nat :=
  if !inRegion a || !populated s a then some 6
  else if (isHbm a || isCommons a) && !inAllot s f a then some 5
  else none

/-- Fields of a table entry (R208). -/
def eAddr (e : Nat) : Nat := fld e 8 44 * 256

/-- A valid entry at `level` is malformed (R208). -/
def eMalformed (e level : Nat) : Bool :=
  let leaf := bit e 1
  let perm := fld e 2 3 ≠ 0
  let align := if level = 3 then 4096 else if level = 2 then 65536 else if level = 0 then 65536
    else if leaf then 2 ^ 21 else 256
  fld e 5 3 ≠ 0 || fld e 52 12 ≠ 0
  || (if level ≥ 2 then leaf else if level = 0 then !leaf else false)
  || (!leaf && perm)
  || eAddr e % align ≠ 0

/-- Address bits that index the table at `level` (R207). -/
def vaIndex (va level : Nat) : Nat :=
  if level = 3 then fld va 43 9 else if level = 2 then fld va 34 9 else if level = 1 then fld va 21 13 else fld va 16 5

/-- Translations held by the TLB number `tl`: a core's, or the host queue block's for 32 and above. -/
def tlbOf (s : State) (tl : Nat) : List TlbEntry := if tl < 32 then (s.core tl).tlb else s.hq.tlb

def setTlb (s : State) (tl : Nat) (l : List TlbEntry) : State :=
  if tl < 32 then s.setCore tl { s.core tl with tlb := l } else { s with hq := { s.hq with tlb := l } }

/-- Holds an entry in a TLB: 1,024 translations, and beside them the walk cache's entries (size 0, R213). -/
def tlbAdd (s : State) (tl : Nat) (e : TlbEntry) : State :=
  let rest := (tlbOf s tl).filter (fun x => !(x.fn == e.fn && x.va == e.va && x.size == e.size))
  setTlb s tl ((e :: rest).take 2048)

/-- The entry at physical address `pa` of a table: the device may use the one its walk cache holds (R213). -/
def readEntry (s : State) (tl f pa : Nat) : State × Option Nat :=
  let held := (tlbOf s tl).find? (fun x => x.size == 0 && x.fn == f && x.va == pa)
  match held with
  | some x => if Config.freeBit s.freeIdx pa then (s, some x.entry.toNat)
    else let r := readPa s pa 8; (r.1, r.2.map leNat)
  | none => let r := readPa s pa 8; (r.1, r.2.map leNat)

/-- The walk from the table at `tab` of `level` down to a leaf (R209): the leaf entry and its page size, or the failing
check with its level. `fuel` bounds the levels. -/
def walk (s : State) (tl f va : Nat) : Nat → Nat → Nat → State × (Nat × Nat ⊕ Nat × Nat)
  | 0, _, level => (s, .inr (4, level))
  | fuel + 1, tab, level =>
    match tableCheck s f tab with
    | some c => (s, .inr (c, level))
    | none =>
      let pa := tab + 8 * vaIndex va level
      match readEntry s tl f pa with
      | (s1, none) => (s1, .inr (12, level))
      | (s1, some e) =>
        if !bit e 0 then (s1, .inr (1, level))
        else if eMalformed e level then (s1, .inr (4, level))
        else if bit e 1 then (s1, .inl (e, if level = 1 then 2 ^ 21 else 65536))
        else walk (tlbAdd s1 tl ⟨f, pa, 0, BitVec.ofNat 64 e⟩) tl f va fuel (eAddr e) (level - 1)

/-- The pages of an invalidation in progress overlap [va, va + n) (R214). -/
def invCovers (s : State) (f va n : Nat) : Bool :=
  match s.hq.inv.get none f with
  | some (v, pages) => pages == 0 || (v < va + n && va < v + pages * 65536)
  | none => false

/-- The aperture check of an access of context `x` (R205). -/
def windowOk (s : State) (x : Option Nat) (pa n : Nat) : Bool :=
  match x with
  | none => false
  | some c =>
    let k := s.ctx c
    let off := pa % 0x1000000
    partOfCore s (apCore pa) == (tenant s k.fn).part
      && k.winBase * 65536 ≤ off && off + n ≤ (k.winBase + k.winSize) * 65536

/-- Translates one request of `n` bytes of function `f`, in context `x` where there is one (R207 to R215). `tl` is the
TLB used. A held translation or a new walk may serve it (R213). -/
def translate (s : State) (tl f : Nat) (x : Option Nat) (va n : Nat) (acc : Acc) : State × Tr :=
  let lo := rd s (mmuA f 0)
  let hi := rdF s (mmuA f 1) 0 20
  if va ≥ 2 ^ 52 then (s, .bad 9 0)
  else if !bit lo.toNat 0 then (s, .bad 10 3)
  else
    let held := (tlbOf s tl).find? (fun e => e.size != 0 && e.fn == f && e.va ≤ va && va < e.va + e.size)
    let use := match held with | some e => if Config.freeBit s.freeIdx va then some e else none | none => none
    let r : State × (Nat × Nat ⊕ Nat × Nat) := match use with
      | some e => (s, .inl (e.entry.toNat, e.size))
      | none => walk (if tl < 32 then monEvent s 21 tl 1 else s) tl f va 4 (fld lo.toNat 12 20 * 4096 + hi * 2 ^ 32) 3
    match r with
    | (s1, .inr (c, l)) => (s1, .bad c l)
    | (s1, .inl (e, size)) =>
      let page := eAddr e
      let level := if size = 65536 then 0 else 1
      let pa := page + va % size
      match pageCheck s1 f page with
      | some c => (s1, .bad c level)
      | none =>
        let s2 := if use.isSome then s1 else tlbAdd s1 tl ⟨f, va - va % size, size, BitVec.ofNat 64 e⟩
        if acc == .write && !bit e 2 then (s2, .bad 2 0)
        else if acc == .fetch && !(bit e 3 && (isHbm page || isCommons page)) then (s2, .bad 3 0)
        else if isLocal page && !windowOk s2 x pa n then (s2, .bad 8 0)
        else (s2, .ok pa (bit e 4) (use.isSome && invCovers s2 f va n))

/-- The pieces of [va, va + n) that lie in one 64 KiB page each: (address, length). -/
def pieces (va n : Nat) : List (Nat × Nat) :=
  if n = 0 then [] else
    (List.range ((va + n - 1) / 65536 - va / 65536 + 1)).map (fun i =>
      let lo := Nat.max va ((va / 65536 + i) * 65536)
      (lo, Nat.min (va + n) ((va / 65536 + i + 1) * 65536) - lo))

/-- Translates a range: the physical pieces with their lengths, or the first failure. -/
def xlat (s : State) (tl f : Nat) (x : Option Nat) (va n : Nat) (acc : Acc) : State × (List (Nat × Nat) ⊕ XF) :=
  (pieces va n).foldl (fun r p => match r with
    | (t, .inr e) => (t, .inr e)
    | (t, .inl l) => match translate t tl f x p.1 p.2 acc with
      | (t1, .ok pa _ _) => (t1, .inl (l ++ [(pa, p.2)]))
      | (t1, .bad c lv) => (t1, .inr { sub := c, level := lv, va := p.1 })) (s, .inl [])

/-- Reads physical pieces. -/
def readPieces (s : State) (l : List (Nat × Nat)) : State × Option (List Byte) :=
  l.foldl (fun r p => match readPa r.1 p.1 p.2, r.2 with
    | (t, some b), some bs => (t, some (bs ++ b))
    | (t, _), _ => (t, none)) (s, some [])

/-- Reads `n` bytes at a virtual address. -/
def readVa (s : State) (tl f : Nat) (x : Option Nat) (va n : Nat) (acc : Acc) : State × (List Byte ⊕ XF) :=
  match xlat s tl f x va n acc with
  | (t, .inr e) => (t, .inr e)
  | (t, .inl l) => match readPieces t l with
    | (u, some bs) => (u, .inl bs)
    | (u, none) => (u, .inr { code := 3, va := va })

/-- Writes bytes to physical pieces in order. -/
def writePieces (s : State) : List (Nat × Nat) → List Byte → State
  | [], _ => s
  | (a, n) :: r, bs => writePieces (writePa s a (bs.take n)) r (bs.drop n)

/-- Writes bytes at a virtual address: what lies before the first request that fails is written (R200). -/
def writeVa (s : State) (tl f : Nat) (x : Option Nat) (va : Nat) (bs : List Byte) : State × Option XF :=
  (pieces va bs.length).foldl (fun r p => match r with
    | (t, some e) => (t, some e)
    | (t, none) => match translate t tl f x p.1 p.2 .write with
      | (t1, .ok pa _ _) => (writePa t1 pa ((bs.drop (p.1 - va)).take p.2), none)
      | (t1, .bad c lv) => (t1, some { sub := c, level := lv, va := p.1 })) (s, none)

/-- The whole range translates with write permission. -/
def canWrite (s : State) (tl f : Nat) (x : Option Nat) (va n : Nat) : State × Bool :=
  match xlat s tl f x va n .write with
  | (t, .inl _) => (t, true)
  | (t, .inr _) => (t, false)

/-! ## Local-store window (R203) -/

/-- Physical address of offset `off` of context `x`'s window on core `c`; none where [off, off + n) leaves it. -/
def lsAddr (s : State) (c x off n : Nat) : Option Nat :=
  let k := s.ctx x
  if off + n ≤ k.winSize * 65536 then some (0x4100000000 + c * 0x1000000 + k.winBase * 65536 + off) else none

/-! ## Residency -/

/-- Context slot that holds context `x`, if any (R262). -/
def slotOf (s : State) (x : Nat) : Option Nat :=
  (List.range 48).find? (fun k => (s.syn.slots.get {} k).st != .empty && (s.syn.slots.get {} k).ctx == x)

/-- Context `x` is in slot state RESIDENT. -/
def resident (s : State) (x : Nat) : Bool :=
  match slotOf s x with | some k => (s.syn.slots.get {} k).st == .resident | none => false

/-- Function `f` has a resident context: one that occupies a slot (R211, R212). -/
def fnResident (s : State) (f : Nat) : Bool :=
  (List.range 48).any (fun k => let c := s.syn.slots.get {} k; c.st != .empty && (s.ctx c.ctx).fn == f)

/-! ## MMU rows -/

/-- MMU_ROOT_WRITE (R212). -/
def mmuRootWriteOp (s : State) (f : Nat) (hi : Bool) (v : W32) : State :=
  if fnResident s f then wrF s (mmuA f 5) 0 1 1
  else wr s (mmuA f (if hi then 1 else 0)) (v &&& (if hi then 0xFFFFF else 0xFFFFF001))

def execMmuRootWrite (f : Fn) (hi : Bool) (v : W32) (s : State) : Out := done s (mmuRootWriteOp s f hi v)

/-- ALLOT_WRITE (R211). -/
def allotWriteOp (s : State) (f k : Nat) (hi : Bool) (v : W32) : State :=
  if fnResident s f then wrF s (mmuA f 5) 2 1 1
  else wr s (allotA f k (if hi then 1 else 0)) (if hi then v &&& 0x3FFFF else v)

def execAllotWrite (f : Fn) (k : Fin 16) (hi : Bool) (v : W32) (s : State) : Out := done s (allotWriteOp s f k hi v)

/-- Marks the outstanding accesses of function `f` whose translation the invalidation drops (R214). -/
def markOld (s : State) (f : Nat) : State :=
  upTo 32 s (fun t c =>
    let x := t.core c
    let reqs := x.te.reqs.map (fun r =>
      if r.fn = f ∧ r.global ∧ r.accs.any (fun a => invCovers t f a.va a.size) then { r with old := true } else r)
    let xf := x.xfers.map (fun y => if y.cmd.fn = f then { y with old := true } else y)
    t.setCore c { x with te := { x.te with reqs := reqs }, xfers := xf })
  |> fun t => upTo 16 t (fun t g =>
    let p := t.port g
    let mark (r : Rx) : Rx := if r.pa.isSome && r.fn == f then { r with old := true } else r
    t.setPort g { p with rx := ⟨p.rx.entries.map (fun e => (e.1, mark e.2))⟩ })

/-- A write of MMU_INV_CTRL (R214). -/
def mmuInvalidateOp (s : State) (f : Nat) (v : W32) : State :=
  let s1 := wr s (mmuA f 4) (v &&& 0xFFFFFF)
  if !bit v.toNat 24 then s1
  else if (s.hq.inv.get none f).isSome then wrF s1 (mmuA f 5) 1 1 1
  else
    let va := rdF s (mmuA f 2) 16 16 * 65536 + rdF s (mmuA f 3) 0 20 * 2 ^ 32
    markOld { s1 with hq := { s1.hq with inv := s1.hq.inv.put none f (some (va, fld v.toNat 0 24)) } } f

/-- MMU_INVALIDATE (R214). Until INVALIDATE_DONE the device may use what its TLBs hold. -/
def execMmuInvalidate (f : Fn) (v : W32) (s : State) : Out := done s (mmuInvalidateOp s f v)

/-- Drops the translations of `f` that `keep` refuses, and its walk-cache entries, from every TLB (R214). -/
def dropTlb (s : State) (f : Nat) (hit : TlbEntry → Bool) : State :=
  let cut (l : List TlbEntry) : List TlbEntry := l.filter (fun e => !(e.fn == f && (e.size == 0 || hit e)))
  let s1 := upTo 32 s (fun t c => t.setCore c { t.core c with tlb := cut (t.core c).tlb })
  { s1 with hq := { s1.hq with tlb := cut s1.hq.tlb } }

/-- An access that used a dropped translation is still outstanding. -/
def oldLeft (s : State) (f : Nat) : Bool :=
  (List.range 32).any (fun c =>
    (s.core c).te.reqs.any (fun r => r.fn == f && r.old) || (s.core c).xfers.any (fun y => y.cmd.fn == f && y.old))
  || (List.range 16).any (fun g => (s.port g).rx.entries.any (fun e => e.2.fn == f && e.2.old))

/-- INVALIDATE_DONE (R214). -/
def execInvalidateDone (f : Fn) (s : State) : Out :=
  if (s.hq.inv.get none f).isNone || oldLeft s f then done s s
  else
    let s1 := dropTlb s f (fun e => invCovers s f e.va e.size)
    done s { s1 with hq := { s1.hq with inv := s1.hq.inv.put none f none } }

/-! ## Patrol scrubber (R234) -/

/-- The granule of `pa` is scrubbed, and its check answers `r`. -/
def scrubMem (s : State) (pa : Nat) (r : Ecc) : State :=
  if !populated s pa || isHost pa then s
  else
    let g := granule pa
    eccApply (memEvents s g (granLen g) false) g r

/-- The check of a register element of core `c` answers `r` (R231): `held` says that the element is poisoned already,
`lose` poisons it. -/
def regEcc (s : State) (c : Nat) (r : Ecc) (held : Bool) (lose : State → State) : State :=
  if held then s
  else match r with
    | .clean => s
    | .correctable => chipErr (inc16 s 0x02000028) 0x49 0 8 c 0
    | .uncorrectable => lose (chipErr (inc16 s 0x0200002C) 0x4A 0 8 c 0)

/-- The check of element `i` of accumulator bank `b` of core `c`: of the gleaning pass that runs there, or of the
stream. -/
def bankEcc (s : State) (c b i : Nat) (r : Ecc) : State :=
  let x := s.core c
  match x.glPass with
  | some w => regEcc s c r (w.bad.contains (65536 * b + i)) (fun t =>
      t.setCore c { t.core c with glPass := some { w with bad := (65536 * b + i) :: w.bad } })
  | none =>
    let k := x.banks.get {} b
    regEcc s c r (k.bad.contains i) (fun t =>
      t.setCore c { t.core c with banks := (t.core c).banks.put {} b { k with bad := i :: k.bad } })

/-- The check of vector-register element `i` of slot `p` of core `c`. -/
def vregEcc (s : State) (c p i : Nat) (r : Ecc) : State :=
  regEcc s c r ((s.pun c p).regs.bad.contains i) (fun t =>
    let x := t.pun c p
    t.setPun c p { x with regs := { x.regs with bad := i :: x.regs.bad } })

/-- PATROL_SCRUB (R231, R234): the check of a granule, or of a register element, answers `r`. The scrubber itself reads
memories only; an error that a use of an accumulator or vector-register element finds, or a read of memory by an engine
other than a thread request, comes as this command just before the use (DESIGN CHOICE: log 116). -/
def execPatrolScrub (a : EccSite) (r : Ecc) (s : State) : Out :=
  match a with
  | .mem pa => done s (scrubMem s pa r)
  | .bank c b i => done s (bankEcc s c b i r)
  | .vreg c p i => done s (vregEcc s c p i r)

/-! ## Sketch slots (R249 to R251) -/

/-- Owner of sketch slot `k`, where it is assigned. -/
def embOwner (s : State) (k : Nat) : Option Nat :=
  if rdB s (0x02000800 + 4 * k) 7 then some (rdF s (0x02000800 + 4 * k) 0 7) else none

def State.sk (s : State) (k : Nat) : Sketch := s.sketch.get {} k
def State.setSk (s : State) (k : Nat) (x : Sketch) : State := { s with sketch := s.sketch.put {} k x }

/-- The image of a sketch slot's counters (R250). -/
def sketchImage (x : Sketch) : List Byte :=
  (List.range 8192).foldl (fun l i => l ++ leBytes 4 (x.cnt.get 0 i)) []

/-- A start of slot `k`'s dump through the page of function `f` (R250). -/
def embDumpOp (s : State) (f k : Nat) : State :=
  let own := rdF s (0x02000800 + 4 * k) 0 7
  if f ≠ 0 ∧ embOwner s k ≠ some f then s
  else if (s.sk k).busy then wrF s (embA k 2) 3 1 1
  else
    let va := rdF s (embA k 0) 15 17 * 32768 + rdF s (embA k 1) 0 20 * 2 ^ 32
    match canWrite s 32 own none va 32768 with
    | (s1, false) => inc16 (wrF s1 (embA k 2) 2 1 1) (mmuA own 6)
    | (s1, true) =>
      let s2 := (writeVa s1 32 own none va (sketchImage (s.sk k))).1
      s2.setSk k { s2.sk k with cnt := {}, busy := true }

/-- EMB_DUMP_START (R250). -/
def execEmbDumpStart (f : Fn) (k : Fin 64) (s : State) : Out := done s (embDumpOp s f k)

/-- EMB_DUMP_DONE (R250). -/
def execEmbDumpDone (k : Fin 64) (s : State) : Out := done s (s.setSk k { s.sk k with busy := false })

/-- EMB_SLOT_OWNER written (R251). -/
def embOwnerOp (s : State) (k : Nat) (v : W32) : State :=
  let a := 0x02000800 + 4 * k
  if (s.sk k).busy then s
  else
    let s1 := wr s a (v &&& 0xFF)
    if rd s a = v &&& 0xFF then s1 else s1.setSk k {}

/-- EMB_SLOT_OWNER_WRITE (R251). -/
def execEmbSlotOwnerWrite (k : Fin 64) (v : W32) (s : State) : Out := done s (embOwnerOp s k v)

end Sys2Proof.Machine
end

