-- ==== Sys2Proof/Machine/Syn.lean ====
section
/-! DEFINITION. The synchronisation unit: signals, waits and their release (R252 to R259), the deferred signal log
(R260, R261), context residency (R204, R262 to R264), barrier wires (R265 to R268), group barriers (R269 to R271), the
debugger view (R272) and the dump engine (R273, R274). -/

namespace Sys2Proof.Machine

/-! ## Commands named by reference -/

/-- Changes the consumed command `r` that is still running. -/
def modCmd (s : State) (r : CmdRef) (g : Cmd → Cmd) : State :=
  let q := s.queue r.fn r.q
  s.setQueue r.fn r.q { q with cmds := q.cmds.map (fun c => if r.hits c then g c else c) }

/-- The consumed command `r` that is still running. -/
def findCmd (s : State) (r : CmdRef) : Option Cmd := r.find s

/-! ## L1 invalidation by an acquire (R227) -/

/-- Empties a TE's L1. A fill in flight delivers its data and is not kept. -/
def l1Clear (t : Te) : Te := { t with l1 := [], reqs := t.reqs.map (fun r => { r with keep := false }) }

/-- L1 enabled on core `c` (R228). -/
def l1On (s : State) (c : Nat) : Bool := rdB s (coreA c 0x600) 0

/-- The acquire of R227 on core `c`: nothing while the L1 is disabled. -/
def l1Acquire (s : State) (c : Nat) : State := if l1On s c then s.setTe c (l1Clear (s.te c)) else s

/-! ## Waiters -/

def Syn.setWaiters (s : State) (l : List Waiter) : State := { s with syn := { s.syn with waiters := l } }

/-- The command of a waiter's engine. -/
def waiterCmd (s : State) (w : Waiter) : CmdRef :=
  let c := w.eng.toNat / 4
  if w.eng.toNat % 4 = 0 then (s.core c).mx.cmd
  else if w.eng.toNat % 4 = 1 then (s.core c).tx.cmd
  else (s.pun c w.punnet).cmd

/-- Releases one waiter's engine (R257): the clause may issue (R114), the punnet is ready (R157) after its acquire. -/
def releaseOne (s : State) (w : Waiter) : State :=
  let c := w.eng.toNat / 4
  let s1 := monSample s false 5 w.eng.toNat (s.time - w.since)
  if w.eng.toNat % 4 = 2 then
    let p := s1.pun c w.punnet
    l1Acquire (s1.setPun c w.punnet { p with hold := .none }) c
  else
    let e : CE := if w.eng.toNat % 4 = 0 then .mx else .tx
    let y := s1.eng c e
    s1.setEng c e { y with waitOk := true, waiting := none, st := if y.st = .held then .issuing else y.st }

/-- Releases the waiters that `sat` picks, in registration order; with `short`, reports each (R259). -/
def releaseAll (s : State) (sat : Waiter → Bool) (short : Bool) : State :=
  let l := s.syn.waiters.filter sat
  let s1 := Syn.setWaiters s (s.syn.waiters.filter (fun w => !sat w))
  l.foldl (fun t w =>
    let t1 := if short then modCmd t (waiterCmd t w) (fun k => { k with short := true }) else t
    releaseOne t1 w) s1

/-- The update of conjunction `n` of context `x` just made releases its waiters (R254, R257, R259). -/
def afterUpdate (s : State) (x n : Nat) : State :=
  let k := s.conj x n
  let sat (w : Waiter) : Bool := w.obj == .conj x n && w.target ≤ k.value
  if s.syn.waiters.any sat then
    let s1 := releaseAll s sat k.shortPending
    s1.setConj x n { s1.conj x n with shortPending := false }
  else s

/-- Freeze source 4 (R360). -/
def freezeConj (s : State) (x n : Nat) : State :=
  let m := (rd s 0x0060480C).toNat
  if slotOf s x = some (fld m 0 6) ∧ fld m 6 9 = n ∧ rd s 0x00604810 ≤ (s.conj x n).value then freezeFrom s 4 else s

/-- R253 on a conjunction record. -/
def Conj.add (k : Conj) (n : W32) : Conj :=
  if k.value.toNat + n.toNat > 0xFFFFFFFF then { k with value := 0xFFFFFFFF, saturated := true }
  else { k with value := k.value + n }

/-- A signal applied to a resident conjunction (R253, R258). -/
def applyConj (s : State) (g : Signal) : State :=
  let k := s.conj g.ctx g.conj
  let sat := k.value.toNat + g.n.toNat > 0xFFFFFFFF
  let k1 := { k.add g.n with last := g.src, shortPending := k.shortPending || g.short, shortSeen := k.shortSeen || g.short }
  let s1 := s.setConj g.ctx g.conj k1
  let s2 := if sat then inc16 s1 0x00400820 else s1
  freezeConj (afterUpdate s2 g.ctx g.conj) g.ctx g.conj

/-- A log entry after one more deferred signal (R260). -/
def logAdd (e : Nat) (g : Signal) : Nat :=
  let p := fld e 0 32 + g.n.toNat
  let sat := bit e 49 || p > 0xFFFFFFFF
  Nat.min p 0xFFFFFFFF + Nat.min (fld e 32 16 + 1) 0xFFFF * 2 ^ 32
    + (if bit e 48 || g.short then 2 ^ 48 else 0) + (if sat then 2 ^ 49 else 0)

/-- A signal that targets a context in the non-resident state (R261). -/
def deferSignal (s : State) (g : Signal) : State :=
  let x := s.ctx g.ctx
  match xlat s 32 x.fn (some g.ctx) (x.log + 8 * g.conj) 8 .write with
  | (t, .inr _) => inc16 t 0x00400828
  | (t, .inl l) => match readPieces t l with
    | (u, none) => inc16 u 0x00400828
    | (u, some bs) => writePieces u l (leBytes 8 (logAdd (leNat bs) g))

def State.slot (s : State) (k : Nat) : CtxSlot := s.syn.slots.get {} k
def State.setSlot (s : State) (k : Nat) (v : CtxSlot) : State := { s with syn := { s.syn with slots := s.syn.slots.put {} k v } }

/-- The slot of context `x` that holds its signals: RESTORING or SAVING (R262). -/
def heldIn (s : State) (x : Nat) : Option Nat :=
  match slotOf s x with
  | some k => if (s.slot k).st == .resident then none else some k
  | none => none

/-- The inbound queue of context `x`'s slot is full: a signal to it waits in the mesh (R262). -/
def inboundFull (s : State) (x : Nat) : Bool :=
  match heldIn s x with | some k => 64 ≤ (s.slot k).inbound.length | none => false

/-- A signal reaches the unit (R253, R258, R261). A slot that is being restored or saved holds it (R262). -/
def takeSignal (s : State) (g : Signal) : State :=
  let s1 := if g.short then
      { inc16 s 0x00400824 with syn := { s.syn with shortEv := s.syn.shortEv.put 0 g.ctx (s.syn.shortEv.get 0 g.ctx + 1) } }
    else s
  if !(s.ctx g.ctx).live then inc16 s1 0x00400828
  else match heldIn s g.ctx with
    | some k => s1.setSlot k { s1.slot k with inbound := (s1.slot k).inbound ++ [g] }
    | none => if resident s g.ctx then applyConj s1 g else deferSignal s1 g

/-- Sends a signal into the mesh. -/
def sendSignal (s : State) (g : Signal) : State := { s with syn := { s.syn with transit := s.syn.transit ++ [g] } }

/-- The context of `n` signals is gone: each is discarded and counted (R261). -/
def discardSignals (s : State) (n : Nat) : State := upTo n s (fun t _ => inc16 t 0x00400828)

/-- Context `x` is destroyed: its signals on their way, and those that its slot holds, are discarded; none reaches a
later context of its number (R2). -/
def dropTransit (s : State) (x : Nat) : State :=
  let held := match slotOf s x with | some k => (s.slot k).inbound.length | none => 0
  let gone := s.syn.transit.filter (fun g => g.ctx == x)
  let s1 := discardSignals { s with syn := { s.syn with transit := s.syn.transit.filter (fun g => g.ctx != x) } }
    (gone.length + held)
  match slotOf s x with
  | some k => s1.setSlot k { s1.slot k with inbound := [] }
  | none => s1

/-- The last-signaller record of engine `e` of core `c` (R252). -/
def sigSrc (c : Nat) (e : Eng) (x pc : Nat) : LastSig :=
  { valid := true, eng := engId c e, ctx := BitVec.ofNat 12 x, pc := BitVec.ofNat 52 pc }

/-- Signal `h` is applied before the later `g`: of one engine to one conjunction (R256), or of two messages of one stream that
took one way (R330). -/
def sigBefore (h g : Signal) : Bool :=
  (h.ctx == g.ctx && h.conj == g.conj && h.src.eng == g.src.eng && h.src.chip == g.src.chip && h.src.remote == g.src.remote)
  || (h.via.isSome && h.via == g.via && h.src.chip == g.src.chip && h.src.ctx == g.src.ctx)

/-- No signal that is applied before it is still on its way. -/
def inOrder (l : List Signal) (n : Nat) (g : Signal) : Bool := (l.take n).all (fun h => !sigBefore h g)

/-- SIGNAL_ARRIVAL (R253): the `n`-th signal on its way. The unit holds signals while a dump runs (R273), and a signal waits
in the mesh while its context's inbound queue is full (R262). -/
def execSignalArrival (n : Nat) (s : State) : Out :=
  match s.syn.transit[n]? with
  | none => done s s
  | some g =>
    if s.syn.dumpBusy || !inOrder s.syn.transit n g || inboundFull s g.ctx then done s s
    else done s (takeSignal { s with syn := { s.syn with transit := s.syn.transit.eraseIdx n } } g)

/-- Registers a wait on a conjunction, or finds it satisfied at once (R254, R255, R259). -/
def waitConj (s : State) (x n : Nat) (t : W32) (eng : BitVec 7) (pun : Nat) (r : CmdRef) : State × Bool :=
  let k := s.conj x n
  if t ≤ k.value then
    if k.shortPending then
      ((modCmd s r (fun c => { c with short := true })).setConj x n { k with shortPending := false }, true)
    else (s, true)
  else
    (Syn.setWaiters s (s.syn.waiters ++ [{ obj := .conj x n, target := t, eng := eng, punnet := pun, ctx := x,
                                           since := s.time }]), false)

/-! ## Barrier wires (R265 to R268) -/

def State.wire (s : State) (w : Nat) : Wire := s.syn.wires.get {} w
def State.setWire (s : State) (w : Nat) (x : Wire) : State := { s with syn := { s.syn with wires := s.syn.wires.put {} w x } }
def State.group (s : State) (x g : Nat) : Group := s.syn.groups.get {} (64 * x + g)
def State.setGroup (s : State) (x g : Nat) (v : Group) : State :=
  { s with syn := { s.syn with groups := s.syn.groups.put {} (64 * x + g) v } }

/-- Generation of a barrier. -/
def genOf (s : State) : Obj → W32
  | .wire w => (s.wire w).gen
  | .group x g => (s.group x g).gen
  | .conj x n => (s.conj x n).value

/-- Releases the waiters of a barrier that has just completed (R266, R267, R269). -/
def releaseBar (s : State) (o : Obj) : State :=
  releaseAll s (fun w => w.obj == o && (w.anyNext || w.bseen < genOf s o)) false

/-- The cores of a context's partition as a mask. -/
def partMask (s : State) (x : Nat) : Nat :=
  if (s.ctx x).live then ((coresOf s (tenant s (s.ctx x).fn).part).map (fun c => 2 ^ c)).sum else 0

/-- An arrival of core `c`, running context `x`, at wire `w` (R266): the state, and the generation it arrived in. -/
def bwArriveOp (s : State) (c x w : Nat) : State × Option W32 :=
  let v := s.wire w
  if !(v.valid && v.ctx.toNat == x && v.mask.toNat.testBit c) then (inc16 s 0x0040082C, none)
  else
    let r := v.raised ||| (1#32 <<< c)
    if r &&& v.mask = v.mask then (releaseBar (s.setWire w { v with raised := 0, gen := v.gen + 1 }) (.wire w), some v.gen)
    else (s.setWire w { v with raised := r }, some v.gen)

/-- Registers a wait on a barrier, or finds it satisfied (R267). `arr` is the engine's most recent arrival. -/
def waitBar (s : State) (o : Obj) (x : Nat) (arr : Option (Obj × W32)) (eng : BitVec 7) (pun : Nat) : State × Bool :=
  let foreign := match o with | .wire w => !((s.wire w).valid && (s.wire w).ctx.toNat == x) | _ => false
  if foreign then (inc16 s 0x0040082C, true)
  else
    let mine := match arr with | some (p, g) => if p = o then some g else none | none => none
    match mine with
    | some g =>
      if g < genOf s o then (s, true)
      else (Syn.setWaiters s (s.syn.waiters ++ [{ obj := o, target := 0, eng := eng, punnet := pun, ctx := x,
                                                  since := s.time, bseen := g }]), false)
    | none => (Syn.setWaiters s (s.syn.waiters ++ [{ obj := o, target := 0, eng := eng, punnet := pun, ctx := x,
                                                     since := s.time, anyNext := true, bseen := genOf s o }]), false)

/-- A write of SYN_BW_CFG or SYN_BW_MASK (R265). -/
def bwCfgOp (s : State) (w : Nat) (isMask : Bool) (v : W32) : State :=
  let x := s.wire w
  let y : Wire := if isMask then { x with mask := v }
    else { x with ctx := BitVec.ofNat 12 (fld v.toNat 0 12), valid := bit v.toNat 12 }
  let out := y.valid && (y.mask.toNat &&& partMask s y.ctx.toNat) != y.mask.toNat
  if x.raised ≠ 0 ∨ s.syn.waiters.any (fun z => z.obj == .wire w) ∨ out then wrF s 0x00400300 0 1 1
  else s.setWire w y

/-- BW_CFG_WRITE (R265). -/
def execBwCfgWrite (wire : Fin 16) (isMask : Bool) (v : W32) (s : State) : Out := done s (bwCfgOp s wire isMask v)

/-! ## Group barriers (R269 to R271) -/

/-- How a group arrival ends. -/
inductive GbRes | held | mismatch | arrived (gen : W32)
deriving DecidableEq, Repr

/-- An arrival of core `c` at group `g` of context `x` with member mask `m` (R269 to R271). -/
def gbArriveOp (s : State) (c x g : Nat) (m : W32) : State × GbRes :=
  let v := s.group x g
  let p := (tenant s (s.ctx x).fn).part
  let badMask := m == 0 || !m.toNat.testBit c || (m.toNat &&& partMask s x) != m.toNat
  if badMask || (v.inProgress && v.mask != m) then
    ((inc16 s 0x00400830).setGroup x g { v with mismatch := true }, .mismatch)
  else
    let claim : Option State := match trackerOf s x g with
      | some _ => some s
      | none => match freeTracker s p with
        | some t => some (setTracker s t { busy := true, ctx := x, group := g, part := p })
        | none => none
    match claim with
    | none => (s, .held)
    | some s1 =>
      let a := (if v.inProgress then v.arrived else 0) ||| (1#32 <<< c)
      if a = m then
        let s2 := match trackerOf s1 x g with | some t => setTracker s1 t {} | none => s1
        let s3 := s2.setGroup x g { v with gen := v.gen + 1, inProgress := false, mask := 0, arrived := 0 }
        (releaseBar s3 (.group x g), .arrived v.gen)
      else (s1.setGroup x g { v with inProgress := true, mask := m, arrived := a }, .arrived v.gen)

/-- Records an arrival at an engine (R267). -/
def noteArrival (s : State) (eng : BitVec 7) (pun : Nat) (o : Obj) (g : W32) : State :=
  let c := eng.toNat / 4
  if eng.toNat % 4 = 2 then s.setPun c pun { s.pun c pun with arrival := some (o, g) }
  else
    let e : CE := if eng.toNat % 4 = 0 then .mx else .tx
    s.setEng c e { s.eng c e with arrival := some (o, g) }

/-- A group arrival that its engine performs; it is held where no tracker is to be had (R271). -/
def gbPerform (s : State) (c x g : Nat) (m : W32) (eng : BitVec 7) (pun : Nat) : State × Bool :=
  match gbArriveOp s c x g m with
  | (t, .held) =>
    ({ t with syn := { t.syn with heldArr := t.syn.heldArr ++
        [{ ctx := x, group := g, mask := m, core := c, eng := eng, punnet := pun,
           part := (tenant t (t.ctx x).fn).part }] } }, false)
  | (t, .mismatch) => (t, true)
  | (t, .arrived k) => (noteArrival t eng pun (.group x g) k, true)

/-- Ends the hold of an engine whose held arrival has been performed. -/
def unholdGb (s : State) (eng : BitVec 7) (pun : Nat) : State :=
  let c := eng.toNat / 4
  if eng.toNat % 4 = 2 then s.setPun c pun { s.pun c pun with hold := .none }
  else
    let e : CE := if eng.toNat % 4 = 0 then .mx else .tx
    s.setEng c e { s.eng c e with gbHeld := false }

/-- GB_TRACKER_FREED (R271): the first held arrival of partition `p` that can be performed is. -/
def execGbTrackerFreed (p : PartId) (s : State) : Out :=
  if s.syn.dumpBusy then done s s else
  match s.syn.heldArr.find? (fun h => h.part == p.val) with
  | none => done s s
  | some h =>
    match gbArriveOp s h.core h.ctx h.group h.mask with
    | (_, .held) => done s s
    | (t, r) =>
      let t1 := { t with syn := { t.syn with heldArr := t.syn.heldArr.filter (fun k => k ≠ h) } }
      let t2 := match r with | .arrived k => noteArrival t1 h.eng h.punnet (.group h.ctx h.group) k | _ => t1
      done s (unholdGb t2 h.eng h.punnet)

/-! ## Records (R264, R271) -/

/-- Byte 0x4 of a conjunction record. -/
def conjFlags (k : Conj) : Nat :=
  (if k.shortPending then 1 else 0) + (if k.shortSeen then 2 else 0) + (if k.saturated then 4 else 0)
    + (if k.last.remote then 8 else 0)

/-- A conjunction record of 16 bytes. -/
def conjRec (k : Conj) : List Byte :=
  leBytes 4 k.value.toNat ++ leBytes 1 (conjFlags k) ++ leBytes 1 (k.last.eng.toNat + if k.last.valid then 128 else 0)
    ++ leBytes 2 k.last.ctx.toNat
    ++ leBytes 8 (k.last.pc.toNat + if k.last.remote then k.last.chip.toNat * 2 ^ 52 else 0)

/-- The conjunction that a record of 16 bytes holds. -/
def conjOf (b : List Byte) : Conj :=
  let f := leNat ((b.drop 4).take 1)
  let e := leNat ((b.drop 5).take 1)
  let p := leNat ((b.drop 8).take 8)
  { value := BitVec.ofNat 32 (leNat (b.take 4)), shortPending := bit f 0, shortSeen := bit f 1, saturated := bit f 2,
    last := { valid := bit e 7, eng := BitVec.ofNat 7 e, ctx := BitVec.ofNat 12 (leNat ((b.drop 6).take 2)),
              pc := BitVec.ofNat 52 p, chip := if bit f 3 then BitVec.ofNat 10 (fld p 52 10) else 0, remote := bit f 3 } }

/-- A group record of 16 bytes. -/
def groupRec (g : Group) : List Byte :=
  leBytes 4 g.gen.toNat ++ leBytes 4 g.mask.toNat ++ leBytes 4 g.arrived.toNat
    ++ leBytes 4 ((if g.inProgress then 1 else 0) + if g.mismatch then 2 else 0)

def groupOf (b : List Byte) : Group :=
  let f := leNat ((b.drop 12).take 1)
  { gen := BitVec.ofNat 32 (leNat (b.take 4)), mask := BitVec.ofNat 32 (leNat ((b.drop 4).take 4)),
    arrived := BitVec.ofNat 32 (leNat ((b.drop 8).take 4)), inProgress := bit f 0, mismatch := bit f 1 }

/-- The 9 KiB of a context's synchronisation state (R264). -/
def syncImage (s : State) (x : Nat) : List Byte :=
  (List.range 512).flatMap (fun c => conjRec (s.conj x c)) ++ (List.range 64).flatMap (fun g => groupRec (s.group x g))

/-- Loads context `x`'s synchronisation state from its image. -/
def loadSync (s : State) (x : Nat) (b : List Byte) : State :=
  let s1 := upTo 512 s (fun t c => t.setConj x c (conjOf ((b.drop (16 * c)).take 16)))
  upTo 64 s1 (fun t g => t.setGroup x g (groupOf ((b.drop (8192 + 16 * g)).take 16)))

/-! ## Context-domain reset (R13, R263) -/

/-- Zeroes the synchronisation state of context `x` and removes its waiters and held arrivals. -/
def clearSync (s : State) (x : Nat) : State :=
  { s with syn := { s.syn with
      conj := ⟨s.syn.conj.entries.filter (fun e => e.1 / 512 != x)⟩
      groups := ⟨s.syn.groups.entries.filter (fun e => e.1 / 64 != x)⟩
      trackers := ⟨s.syn.trackers.entries.filter (fun e => !(e.2.busy && e.2.ctx == x))⟩
      shortEv := s.syn.shortEv.put 0 x 0
      heldArr := s.syn.heldArr.filter (fun h => h.ctx != x)
      waiters := s.syn.waiters.filter (fun w => w.ctx != x) } }

/-- Zeroes the log entries of context `x` where they translate (R263). -/
def zeroLog (s : State) (x : Nat) : State :=
  (writeVa s 32 (s.ctx x).fn (some x) (s.ctx x).log (List.replicate 4096 0)).1

/-- A context-domain reset of context `x`: `log` says whether its log entries are zeroed as well (R263, R297). -/
def ctxDomainReset (s : State) (x : Nat) (log : Bool) : State :=
  let s1 := clearSync s x
  let s2 := if log then zeroLog s1 x else s1
  s2.setCtx x { s2.ctx x with winSaved := false, saved := false, saveLost := false, faulted := false }

/-! ## Save areas (R264, R296, R298)

DESIGN CHOICE (log entry 48): the synchronisation image stands first; then follows one part for each core of the partition,
in core order, of 2,696,192 bytes and the window. -/

/-- Offset of core `c`'s part in the save area of context `x`, and of its window in the part. -/
def savePart (s : State) (x c : Nat) : Nat :=
  let k := s.ctx x
  9216 + ((coresOf s (tenant s k.fn).part).takeWhile (fun n => n != c)).length * (2696192 + 65536 * k.winSize)
def saveWin : Nat := 2696192

/-- A poisoned granule of the range would be covered only in part by a write of it (R231). -/
def partPoison (s : State) (a n : Nat) : Bool :=
  s.poison.any (fun g => g < a + n && a < g + granLen g && !(a ≤ g && g + granLen g ≤ a + n))

/-- Writes bytes at offset `off` of context `x`'s save area: nothing where the range does not translate with write
permission or meets poison (R298). -/
def saveWrite (s : State) (x off : Nat) (bs : List Byte) : State × Option XF :=
  let va := (s.ctx x).save + off
  match xlat s 32 (s.ctx x).fn (some x) va bs.length .write with
  | (t, .inr e) => (t, some e)
  | (t, .inl l) => if l.any (fun p => partPoison t p.1 p.2) then (t, some { va := va }) else (writePieces t l bs, none)

/-- Writes pieces of state, each at its offset, up to the first that fails. -/
def saveAll (s : State) (x : Nat) (l : List (Nat × List Byte)) : State × Option XF :=
  l.foldl (fun r p => match r with
    | (t, some e) => (t, some e)
    | (t, none) => saveWrite t x p.1 p.2) (s, none)

/-- Reads `n` bytes at offset `off` of context `x`'s save area. -/
def saveRead (s : State) (x off n : Nat) : State × (List Byte ⊕ XF) :=
  readVa s 32 (s.ctx x).fn (some x) ((s.ctx x).save + off) n .read

/-! ## Residency (R204, R262) -/

/-- The windows of contexts `x` and `y` overlap. -/
def overlap (a b : Ctx) : Bool := a.winBase < b.winBase + b.winSize && b.winBase < a.winBase + a.winSize

/-- The window of `x` overlaps that of no resident context of another function (R204). -/
def windowFree (s : State) (x : Nat) : Bool :=
  (List.range 48).all (fun k =>
    let c := s.syn.slots.get {} k
    c.st == .empty || (s.ctx c.ctx).fn == (s.ctx x).fn || !overlap (s.ctx c.ctx) (s.ctx x))

/-- Physical range of context `x`'s window on core `c`. -/
def winRange (s : State) (x c : Nat) : Nat × Nat :=
  let k := s.ctx x
  (0x4100000000 + c * 0x1000000 + k.winBase * 65536, k.winSize * 65536)

/-- The address lies in context `x`'s window on a core of its partition. -/
def inWindow (s : State) (x a : Nat) : Bool :=
  isLocal a && partOfCore s (apCore a) == (tenant s (s.ctx x).fn).part &&
    (let r := winRange s x (apCore a); r.1 ≤ a && a < r.1 + r.2)

/-- Context `x`'s window reads as zero (R204). -/
def zeroWindow (s : State) (x : Nat) : State :=
  { s with mem := s.mem.filter (fun e => !inWindow s x e.1), poison := s.poison.filter (fun g => !inWindow s x g) }

/-- Context `x`'s windows on its partition's cores with their places in the save area. -/
def winPieces (s : State) (x : Nat) : List (Nat × List Byte) :=
  (coresOf s (tenant s (s.ctx x).fn).part).map (fun c =>
    (savePart s x c + saveWin, memBytes s (winRange s x c).1 (winRange s x c).2))

/-- Context `x`'s windows are read back from its save area (R204): up to the first read that fails. -/
def loadWindows (s : State) (x : Nat) : State × Option XF :=
  (coresOf s (tenant s (s.ctx x).fn).part).foldl (fun r c => match r with
    | (t, some e) => (t, some e)
    | (t, none) => match saveRead t x (savePart t x c + saveWin) (winRange t x c).2 with
      | (u, .inr e) => (u, some e)
      | (u, .inl bs) => (memWrite u (winRange u x c).1 bs, none)) (s, none)

/-- An engine executes a command of context `x`. -/
def ctxRuns (s : State) (x : Nat) : Bool :=
  (List.range 32).any (fun c =>
    let k := s.core c
    (k.mx.busy && k.mx.ctx == x) || (k.tx.busy && k.tx.ctx == x) || k.te.blocks.any (fun b => b.ctx == x)
      || (match k.te.grid with | some g => g.ctx == x | none => false)
      || (match k.glPass with | some w => w.ctx == x | none => false))

/-- The saved engine state of context `x`, wherever it is kept. -/
def dropSaved (s : State) (x : Nat) : State :=
  upTo 32 s (fun t c =>
    let k := t.core c
    t.setCore c { k with streams := k.streams.filter (fun v => v.eng.ctx != x),
                         te := { k.te with saved := k.te.saved.filter (fun v => v.ctx != x) },
                         glSaved := k.glSaved.filter (fun w => w.ctx != x) })

/-- The commands of context `x` that have saved state, each with its core and engine. -/
def savedCmds (s : State) (x : Nat) : List (CmdRef × Nat × Eng) :=
  (List.range 32).flatMap (fun c =>
    let k := s.core c
    (k.streams.filter (fun v => v.eng.ctx == x)).map (fun v => (v.eng.cmd, c, CE.eng v.e))
    ++ (k.te.saved.filter (fun v => v.ctx == x)).flatMap (fun v =>
        match v.grid with | some g => [(g.cmd, c, Eng.te)] | none => v.blocks.map (fun b => (b.cmd, c, Eng.te)))
    ++ (k.glSaved.filter (fun w => w.ctx == x)).flatMap (fun w => w.reqs.map (fun r => (r.cmd, c, Eng.mx))))

/-- Tag of a command. -/
def tagOf (s : State) (r : CmdRef) : W16 := match findCmd s r with | some k => k.tag | none => 0

/-- The command ends on core `c`; at its last core it is ready to commit (R291). A fault or an abort stands over OK. -/
def cmdEnd (s : State) (r : CmdRef) (c : Nat) : State :=
  modCmd s r (fun k =>
    let l := k.toEnd.filter (fun n => n != c)
    { k with toEnd := l, ready := k.ready || (k.started && l.isEmpty && k.toStart.isEmpty) })

/-- The command takes status FAULT with its first fault's cause and engine (R294), unless it is being aborted. -/
def cmdFault (s : State) (r : CmdRef) (cause : Nat) (eng : Option (BitVec 7)) : State :=
  modCmd s r (fun k => if k.status = 0 then
    { k with status := 2, detail := BitVec.ofNat 32 cause, faultEng := eng } else k)

/-- The saved work of context `x` is lost, and its commands end with FAULT: each has an END record of cause `code`
(R298, R363). -/
def loseSaved (s : State) (x code : Nat) : State :=
  (savedCmds s x).foldl (fun t p =>
    cmdEnd (trcEng (cmdFault t p.1 code none) 2 p.2.1 p.2.2 x p.1 (tagOf t p.1) code) p.1 p.2.1) (dropSaved s x)

/-- A save write of context `x` failed, or the read of its saved state did (R298, R233): the fault is in the function's log,
the state that could not be saved is discarded, and the context is reset when it is next made resident. -/
def saveFail (s : State) (x : Nat) (e : XF) (q : Option Nat) : State :=
  let k := s.ctx x
  let s1 := engineFault s k.fn { code := e.code, sub := e.sub, level := e.level, ctx := some x, q := q, va := k.save, inst := k.fn }
  let s2 := loseSaved s1 x e.code
  refresh (s2.setCtx x { s2.ctx x with faulted := true, saveLost := true, saved := false, winSaved := false }) k.fn

/-- Writes context `x`'s records and windows to its save area (R264, R204): none, or the failure. Poison in a window is
not saved. -/
def saveContext (s : State) (x : Nat) : State × Option XF :=
  match saveAll s x ((0, syncImage s x) :: winPieces s x) with
  | (t, some e) => (t, some e)
  | (t, none) => (t, if s.poison.any (inWindow s x) then some { va := (s.ctx x).save } else none)

/-- Slot `slot` is empty; the signals that it held go to the log (R262). -/
def emptySlot (s : State) (slot x : Nat) : State :=
  let g := (s.slot slot).inbound
  let t := { s with syn := { s.syn with
    slots := s.syn.slots.put {} slot {}
    trackers := ⟨s.syn.trackers.entries.filter (fun e => !(e.2.busy && e.2.ctx == x))⟩
    waiters := s.syn.waiters.filter (fun w => w.ctx != x) } }
  g.foldl deferSignal t

/-- CONTEXT_SAVE (R204, R262, R264, R298): the context of slot `slot` leaves residency, its save begun before or now. It
runs nowhere. -/
def execContextSave (slot : Fin 48) (s : State) : Out :=
  let v := s.slot slot
  let x := v.ctx
  if (v.st ≠ .resident ∧ v.st ≠ .saving) ∨ ctxRuns s x ∨ s.syn.dumpBusy then done s s
  else match saveContext s x with
    | (t, some e) => done s (saveFail (emptySlot (clearSync t x) slot x) x e none)
    | (t, none) => done s (emptySlot (clearSync (t.setCtx x { t.ctx x with winSaved := true, saved := true }) x) slot x)

/-- Merges log entry `c` of context `x` (R262 step 3). -/
def mergeLog (s : State) (x c : Nat) : State :=
  match xlat s 32 (s.ctx x).fn (some x) ((s.ctx x).log + 8 * c) 8 .write with
  | (t, .inr _) => t
  | (t, .inl l) => match readPieces t l with
    | (u, none) => u
    | (u, some bs) =>
      let e := leNat bs
      let k := u.conj x c
      let sat := k.value.toNat + fld e 0 32 > 0xFFFFFFFF
      let k1 := k.add (BitVec.ofNat 32 (fld e 0 32))
      let k2 := { k1 with shortPending := k.shortPending || bit e 48, shortSeen := k.shortSeen || bit e 48,
                          saturated := k1.saturated || bit e 49 }
      let u1 := writePieces u l (List.replicate 8 0)
      let u2 := u1.setConj x c k2
      freezeConj (if sat then inc16 u2 0x00400820 else u2) x c

/-- A slot that a context may take: the lowest empty one. -/
def freeCtxSlot (s : State) : Option Nat := (List.range 48).find? (fun k => (s.slot k).st == .empty)

/-- The slot of context `x` once its restore has begun (R262 step 1, R204): its own if it is RESTORING, else an empty one
that it takes. -/
def beginRestore (s : State) (x : Nat) : State × Option Nat :=
  match slotOf s x with
  | some k => (s, if (s.slot k).st == .restoring then some k else none)
  | none =>
    if !(s.ctx x).live || !windowFree s x then (s, none)
    else match freeCtxSlot s with
      | some k => (s.setSlot k { st := .restoring, ctx := x }, some k)
      | none => (s, none)

/-- A command of context `x` waits for residency (R262): its restore begins, or where no slot is empty the save of the
lowest slot whose context runs nothing (DESIGN CHOICE, log entry 47). -/
def wantResident (s : State) (x : Nat) : State :=
  if s.syn.dumpBusy || (slotOf s x).isSome || !(s.ctx x).live then s
  else match beginRestore s x with
    | (t, some _) => t
    | (t, none) =>
      if (freeCtxSlot s).isSome then t
      else match (List.range 48).find? (fun k => (t.slot k).st == .resident && !ctxRuns t (t.slot k).ctx) with
        | some k => t.setSlot k { t.slot k with st := .saving }
        | none => t

/-- The records and windows of context `x` are read from its save area; at its first residency both are zero (R204). -/
def loadContext (s : State) (x : Nat) : State × Option XF :=
  let s1 := zeroWindow s x
  let r : State × Option XF := if (s.ctx x).winSaved then loadWindows s1 x else (s1, none)
  match r with
  | (t, some e) => (t, some e)
  | (t, none) =>
    if (s.ctx x).saved then
      match saveRead t x 0 9216 with
      | (u, .inl bs) => (loadSync u x bs, none)
      | (u, .inr e) => (u, some e)
    else (t, none)

/-- Context `x` in slot `k` is RESIDENT: the signals that waited are applied in order of arrival (R262 step 4). -/
def nowResident (s : State) (k x : Nat) : State :=
  let g := (s.slot k).inbound
  g.foldl applyConj (s.setSlot k { st := .resident, ctx := x })

/-- Context `x` becomes resident, in the slot that it began to restore in or the lowest empty one; none where it cannot.
`lost` is a failure of the read of its saved state. The groups in progress of the slice holder are reloaded as trackers
allow (R271). A context whose saved state cannot be read starts from zero, faulted (DESIGN CHOICE, log entry 47). -/
def restoreContext (s : State) (x : Nat) (lost : Option XF) : Option State :=
  if s.syn.dumpBusy then none
  else match beginRestore s x with
    | (_, none) => none
    | (s0, some slot) =>
      let s1 := if (s0.ctx x).saveLost then
          let t := ctxDomainReset s0 x true
          t.setCtx x { t.ctx x with faulted := true }
        else s0
      let s2 : State := match (match lost with | some e => (s1, some e) | none => loadContext s1 x : State × Option XF) with
        | (t, none) => t
        | (t, some e) => let u := saveFail (zeroWindow t x) x e none; u.setCtx x { u.ctx x with saveLost := false }
      let s3 := s2.setCtx x { s2.ctx x with winSaved := false, saved := false }
      let s4 := nowResident (upTo 512 s3 (fun t c => mergeLog t x c)) slot x
      let p := (tenant s4 (s4.ctx x).fn).part
      some (if (s4.partS p).holder = some (s4.ctx x).fn then reloadTrackers s4 p (fun y => y == x) else s4)

/-- CONTEXT_RESTORE (R204, R262, R298). -/
def execContextRestore (ctx : BitVec 12) (s : State) : Out := done s ((restoreContext s ctx.toNat none).getD s)

/-! ## Debugger view (R272) -/

/-- SYN_SEL written (R272). -/
def synSelOp (s : State) (v : W32) : State :=
  let slot := fld v.toNat 0 6
  let cj := fld v.toNat 6 9
  let k := s.syn.slots.get {} slot
  let ok := slot < 48 && k.st == .resident
  let c : Conj := if ok then s.conj k.ctx cj else {}
  let ws := if ok then s.syn.waiters.filter (fun w => w.obj == .conj k.ctx cj) else []
  let a := 0x00400000
  let put (t : State) (o n : Nat) : State := wr t (a + o) (BitVec.ofNat 32 n)
  let s1 := put s 0 (fld v.toNat 0 15 + if ok then 2 ^ 31 else 0)
  let s2 := put s1 4 c.value.toNat
  let s3 := put s2 8 (conjFlags c + ws.length * 2 ^ 16)
  let s4 := put s3 12 (c.last.eng.toNat + (if c.last.valid then 128 else 0) + c.last.ctx.toNat * 2 ^ 8
    + (if c.last.remote then c.last.chip.toNat else 0) * 2 ^ 20)
  let s5 := put (put s4 0x10 (c.last.pc.toNat % 2 ^ 32)) 0x14 (c.last.pc.toNat / 2 ^ 32)
  let s6 := upTo 4 s5 (fun t i => match ws[i]? with
    | some w => put (put t (0x20 + 8 * i) (w.eng.toNat + (if w.eng.toNat % 4 = 2 then w.punnet * 128 else 0) + 2 ^ 15))
        (0x24 + 8 * i) w.target.toNat
    | none => put (put t (0x20 + 8 * i) 0) (0x24 + 8 * i) 0)
  { s6 with syn := { s6.syn with selValid := ok } }

/-- SYN_SEL_CAPTURE (R272). -/
def execSynSelCapture (v : W32) (s : State) : Out := done s (synSelOp s v)

/-! ## Dump engine (R273, R274) -/

/-- Object kind and index of a waiter. -/
def objKey : Obj → Nat × Nat
  | .conj _ n => (0, n)
  | .wire n => (1, n)
  | .group _ n => (2, n)

/-- The waiters of one context in dump order: object index, then registration. -/
def ctxWaiters (s : State) (x : Nat) : List Waiter :=
  let l := s.syn.waiters.filter (fun w => w.ctx == x)
  (List.range 512).flatMap (fun i => l.filter (fun w => (objKey w.obj).2 == i))

def waiterRec (s : State) (w : Waiter) : List Byte :=
  let k := objKey w.obj
  leBytes 1 w.eng.toNat ++ leBytes 1 (if w.eng.toNat % 4 = 2 then w.punnet else 0) ++ leBytes 2 k.1
    ++ leBytes 2 k.2 ++ leBytes 2 w.ctx ++ leBytes 4 (if k.1 = 0 then w.target.toNat else w.bseen.toNat)
    ++ leBytes 4 (Nat.min (s.time - w.since) 0xFFFFFFFF)

def wireRec (v : Wire) : List Byte :=
  leBytes 2 (v.ctx.toNat + if v.valid then 32768 else 0) ++ leBytes 2 0 ++ leBytes 4 v.mask.toNat
    ++ leBytes 4 v.raised.toNat ++ leBytes 4 v.gen.toNat

def slotCode : SlotSt → Nat
  | .empty => 0 | .restoring => 1 | .resident => 2 | .saving => 3

/-- The dump's part for the context in slot `k`. -/
def ctxImage (s : State) (k : Nat) : List Byte :=
  let v := s.syn.slots.get {} k
  leBytes 2 v.ctx ++ leBytes 1 k ++ leBytes 1 (s.ctx v.ctx).fn ++ leBytes 4 (slotCode v.st)
    ++ leBytes 8 (s.syn.shortEv.get 0 v.ctx % 2 ^ 32) ++ syncImage s v.ctx

/-- Slots in the scope of a dump that hold a context. -/
def dumpSlots (s : State) (all : Bool) (slot : Nat) : List Nat :=
  (List.range 48).filter (fun k => (all || k == slot) && (s.syn.slots.get {} k).st != .empty)

/-- The dump image (R274). -/
def dumpImage (s : State) (slots : List Nat) : List Byte :=
  let ws := slots.flatMap (fun k => ctxWaiters s (s.syn.slots.get {} k).ctx)
  let len := 320 + 9232 * slots.length + 16 * ws.length
  leBytes 4 0x444E5953 ++ leBytes 2 1 ++ leBytes 2 slots.length ++ leBytes 4 ws.length ++ leBytes 4 len
    ++ leBytes 8 s.time ++ leBytes 8 (ledger s) ++ List.replicate 32 0
    ++ (List.range 16).flatMap (fun w => wireRec (s.wire w))
    ++ slots.flatMap (ctxImage s) ++ ws.flatMap (waiterRec s)

/-- SYN_DUMP_CTRL written (R273). -/
def synDumpOp (s : State) (v : W32) : State :=
  let a := 0x0040080C
  let old := (rd s a).toNat
  let s1 := wr s a (BitVec.ofNat 32 ((old &&& 0xC &&& (0xC - (v.toNat &&& 0xC))) + (v.toNat &&& 0x3F10)))
  if !bit v.toNat 0 then s1
  else if s.syn.dumpBusy then wrF s1 a 3 1 1
  else
    let img := dumpImage s (dumpSlots s (bit v.toNat 4) (fld v.toNat 8 6))
    let va := rdF s 0x00400800 6 26 * 64 + rdF s 0x00400804 0 20 * 2 ^ 32
    if (rd s 0x00400808).toNat < img.length then wrF s1 a 2 1 1
    else match canWrite s1 32 0 none va img.length with
      | (t, false) => wrF t a 2 1 1
      | (t, true) =>
        let u := (writeVa t 32 0 none va img).1
        { u with syn := { u.syn with dumpBusy := true } }

/-- SYN_DUMP_START (R273). -/
def execSynDumpStart (v : W32) (s : State) : Out := done s (synDumpOp s v)

/-- SYN_DUMP_DONE (R273). -/
def execSynDumpDone (s : State) : Out := done s { s with syn := { s.syn with dumpBusy := false } }

end Sys2Proof.Machine
end

