-- ==== Sys2Proof/Machine/Nouns.lean ====
section
/-! DEFINITION. Tensor descriptors: their layout and rules (R235 to R238), the noun cache (R241), elements and scales in
memory (R239, R240), and the two address spaces of the clause engines (R112). -/

namespace Sys2Proof.Machine

/-! ## Address spaces (R112) -/

/-- Where an engine's addresses point: context `x`'s local-store window on core `c`, or device virtual addresses of
function `f`, used on core `c` in context `x`. -/
inductive Sp
  | ls (c x : Nat)
  | va (c f x : Nat)
deriving DecidableEq, Repr

def readSp (s : State) (p : Sp) (a n : Nat) : State × (List Byte ⊕ XF) :=
  match p with
  | .ls c x => match lsAddr s c x a n with
    | none => (s, .inr { sub := 8, va := a })
    | some pa => match readPa s pa n with
      | (t, some b) => (t, .inl b)
      | (t, none) => (t, .inr { code := 3, va := a })
  | .va c f x => readVa s c f (some x) a n .read

def writeSp (s : State) (p : Sp) (a : Nat) (bs : List Byte) : State × Option XF :=
  match p with
  | .ls c x => match lsAddr s c x a bs.length with
    | none => (s, some { sub := 8, va := a })
    | some pa => (writePa s pa bs, none)
  | .va c f x => writeVa s c f (some x) a bs

/-! ## Descriptors -/

/-- Little-endian field of a byte list. -/
def at_ (b : List Byte) (o n : Nat) : Nat := leNat ((b.drop o).take n)

/-- The descriptor that 128 bytes spell (R236). -/
def parseNoun (b : List Byte) : Noun :=
  let k := at_ b 9 1
  let sk := at_ b 0x42 1
  let pr := at_ b 0x43 1
  let emb := k = 1
  { base := at_ b 0 8 % 2 ^ 52, fmt := at_ b 8 1 % 16, kind := k, rank := at_ b 10 1, valid := bit (at_ b 11 1) 0,
    scale := BitVec.ofNat 32 (at_ b 12 4),
    ext := [at_ b 16 4, at_ b 20 4, at_ b 24 4, at_ b 28 4],
    stride := [sgn (at_ b 0x20 8) 64, sgn (at_ b 0x28 8) 64, sgn (at_ b 0x30 8) 64],
    scaleOff := sgn (at_ b 0x38 4) 32,
    drop := emb && at_ b 0x40 1 == 1, mean := emb && at_ b 0x41 1 == 1,
    sketch := sk % 64, sketchOn := emb && bit sk 7, log2Sets := pr % 32, presOn := emb && bit pr 7,
    defaultRow := at_ b 0x44 4, presTags := at_ b 0x48 8, presRows := at_ b 0x50 8, presStride := at_ b 0x58 4 }

/-- The bytes meet R236 and R237, and valid is set (R238). -/
def nounOk (b : List Byte) : Bool :=
  let n := parseNoun b
  let zero (o k : Nat) : Bool := at_ b o k == 0
  fld (at_ b 0 8) 52 12 == 0 && at_ b 8 1 ≤ 10 && n.kind ≤ 1 && 1 ≤ n.rank && n.rank ≤ 4 && at_ b 11 1 == 1
  && (List.range 4).all (fun d => if d < n.rank then n.ext.getD d 0 ≠ 0 else n.ext.getD d 0 = 1)
  && (isMx n.fmt || zero 0x38 4) && zero 0x3C 4
  && (if n.kind = 0 then zero 0x40 64
      else n.rank == 2 && [0, 1, 2, 3, 4, 8].contains n.fmt && n.ext.getD 0 0 ≤ 4096
        && at_ b 0x40 1 ≤ 1 && at_ b 0x41 1 ≤ 1 && !bit (at_ b 0x42 1) 6 && fld (at_ b 0x43 1) 5 2 == 0
        && n.log2Sets ≤ 18 && n.defaultRow < n.ext.getD 1 0 && n.presTags % 16 == 0
        && lineBytes n.fmt (n.ext.getD 0 0) ≤ n.presStride && zero 0x5C 36)

/-- The cause CLAUSE_ILLEGAL (R129). -/
def illegalXF : XF := { code := 0x10 }

/-- Key of a descriptor in the noun cache. -/
def nounKey (x h : Nat) : Nat := 4096 * x + h

/-- Reads the descriptor of handle `h` of context `x` at home (R235). -/
def fillNoun (s : State) (c x h : Nat) : State × (Noun ⊕ XF) :=
  let k := s.ctx x
  match readVa s c k.fn (some x) (k.nounTable + 128 * h) 128 .read with
  | (t, .inr e) => (t, .inr e)
  | (t, .inl b) =>
    let t1 := monEvent (inc32 t (coreA c 0x700) 1) 20 c 1
    if nounOk b then
      let y := t1.core c
      let n := parseNoun b
      let key := nounKey x h
      (t1.setCore c { y with nounStamp := y.nounStamp + 1
                             nouns := ((key, n, y.nounStamp + 1) :: y.nouns.filter (fun e => e.1 != key)).take 256 },
       .inl n)
    else (t1, .inr illegalXF)

/-- Resolves handle `h` for a command of context `x` that started at fill stamp `stamp` on core `c` (R238, R241). A held
descriptor may have been replaced: then it is filled again. -/
def resolveNoun (s : State) (c x h stamp : Nat) : State × (Noun ⊕ XF) :=
  match (s.core c).nouns.find? (fun e => e.1 == nounKey x h && stamp < e.2.2) with
  | some e => if Config.freeBit s.freeIdx (nounKey x h) then (s, .inl e.2.1) else fillNoun s c x h
  | none => fillNoun s c x h

/-- Resolves a list of handles into a table. -/
def resolveAll (s : State) (c x stamp : Nat) : List Nat → Tbl Noun → State × (Tbl Noun ⊕ XF)
  | [], t => (s, .inl t)
  | h :: r, t => match resolveNoun s c x h stamp with
    | (s1, .inr e) => (s1, .inr e)
    | (s1, .inl n) => resolveAll s1 c x stamp r (t.put {} h n)

/-! ## Elements (R239, R240) -/

def Noun.e (n : Noun) (d : Nat) : Nat := n.ext.getD d 1

/-- Number of elements. -/
def Noun.count (n : Noun) : Nat := n.e 0 * n.e 1 * n.e 2 * n.e 3

/-- A 64-bit address from an integer. -/
def wrapA (v : Int) : Nat := wrapN v 64

/-- Address of the dimension-0 line at coordinates 1 to 3, from address `r` of the first (R239). -/
def Noun.line (n : Noun) (r i1 i2 i3 : Nat) : Nat :=
  let s (d : Nat) : Int := if d < n.rank then n.stride.getD (d - 1) 0 else 0
  wrapA ((r : Int) + s 1 * i1 + s 2 * i2 + s 3 * i3)

/-- Coordinates of position `p` in linear order (R242, R244). -/
def Noun.coords (n : Noun) (p : Nat) : Nat × Nat × Nat × Nat :=
  (p % n.e 0, p / n.e 0 % n.e 1, p / (n.e 0 * n.e 1) % n.e 2, p / (n.e 0 * n.e 1 * n.e 2))

/-- Element `i` of the line at `a`: its pattern. -/
def readPat (s : State) (p : Sp) (fmt a i : Nat) : State × (Nat ⊕ XF) :=
  let (o, k) := elemSpan fmt i
  match readSp s p (wrapA (a + o)) k with
  | (t, .inl b) => (t, .inl (elemGet fmt i b))
  | (t, .inr e) => (t, .inr e)

/-- Scale code of the block of element `i` of the line at `a`; 127 (a scale of 1) for a format without scales. -/
def readScale (s : State) (p : Sp) (n : Noun) (a i : Nat) : State × (Nat ⊕ XF) :=
  if isMx n.fmt then
    match readSp s p (wrapA ((a : Int) + n.scaleOff + (i / 32 : Nat))) 1 with
    | (t, .inl b) => (t, .inl (leNat b))
    | (t, .inr e) => (t, .inr e)
  else (s, .inl 127)

/-- Element `i` of the line at `a` with its scale code. -/
def readElem (s : State) (p : Sp) (n : Noun) (a i : Nat) : State × ((Nat × Nat) ⊕ XF) :=
  match readPat s p n.fmt a i with
  | (t, .inr e) => (t, .inr e)
  | (t, .inl w) => match readScale t p n a i with
    | (u, .inl sc) => (u, .inl (w, sc))
    | (u, .inr e) => (u, .inr e)

/-- Elements 0 to `k - 1` of the line at `a`. -/
def readLine (s : State) (p : Sp) (n : Noun) (a k : Nat) : State × (List (Nat × Nat) ⊕ XF) :=
  (List.range k).foldl (fun r i => match r with
    | (t, .inr e) => (t, .inr e)
    | (t, .inl l) => match readElem t p n a i with
      | (u, .inl v) => (u, .inl (l ++ [v]))
      | (u, .inr e) => (u, .inr e)) (s, .inl [])

/-- The packed bytes of a line of `m` elements of which the first `vs` are `vs`; padding and the rest are zero. -/
def packLine (fmt m : Nat) (vs : List Nat) : List Byte :=
  (List.range (Nat.min m vs.length)).foldl (fun b i =>
    let (o, k) := elemSpan fmt i
    b.take o ++ elemSet fmt i (vs.getD i 0) ((b.drop o).take k) ++ b.drop (o + k)) (List.replicate (lineBytes fmt m) 0)

/-- Writes elements `vs` at the start of the line at `a` of noun `n`, keeping the other elements that share a byte or
group with them; bits that no element of the line uses are written as zero (R239). -/
def writeElems (s : State) (p : Sp) (n : Noun) (a : Nat) (vs : List Nat) : State × Option XF :=
  let k := Nat.min vs.length (n.e 0)
  if k = 0 then (s, none) else
    let (o, z) := elemSpan n.fmt (k - 1)
    let len := o + z
    -- The last byte or group is shared with elements past k - 1: it is read first.
    let shared := elemBits n.fmt % 8 ≠ 0 ∧ (elemSpan n.fmt k).1 = o ∧ k < n.e 0
    match (if shared then readSp s p (wrapA (a + o)) z else (s, .inl (List.replicate z 0))) with
    | (t, .inr e) => (t, some e)
    | (t, .inl old) =>
      -- Padding past the line's extent is zero.
      let clean := (List.range 4).foldl (fun b j =>
        let i := if elemBits n.fmt = 4 then (k - 1) / 2 * 2 + j else (k - 1) / 4 * 4 + j
        if elemBits n.fmt % 8 ≠ 0 ∧ (elemSpan n.fmt i).1 = o ∧ n.e 0 ≤ i then elemSet n.fmt i 0 b else b) old
      let start := List.replicate o (0 : Byte) ++ clean
      let bs := (List.range k).foldl (fun b i =>
        let (q, y) := elemSpan n.fmt i
        b.take q ++ elemSet n.fmt i (vs.getD i 0) ((b.drop q).take y) ++ b.drop (q + y)) start
      writeSp t p a (bs.take len)

/-- Writes the scale bytes of blocks 0 on of the line at `a` (R240). -/
def writeScales (s : State) (p : Sp) (n : Noun) (a : Nat) (scs : List Nat) : State × Option XF :=
  if isMx n.fmt then writeSp s p (wrapA ((a : Int) + n.scaleOff)) (scs.map (BitVec.ofNat 8)) else (s, none)

/-- Consecutive blocks of 32. -/
def blocks32 {α : Type} : Nat → List α → List (List α)
  | 0, _ => []
  | n + 1, l => match l with | [] => [] | _ => l.take 32 :: blocks32 n (l.drop 32)

/-- Writes FP32 values, converted to the noun's format, at the start of the line at `a` (R146, R242). -/
def writeConv (s : State) (p : Sp) (n : Noun) (a : Nat) (vs : List W32) : State × Option XF :=
  let vs := vs.take (n.e 0)
  if isMx n.fmt then
    let bl := (blocks32 (vs.length / 32 + 1) vs).map (encodeBlock n.fmt)
    match writeElems s p n a (bl.flatMap (·.2)) with
    | (t, some e) => (t, some e)
    | (t, none) => writeScales t p n a (bl.map (·.1))
  else writeElems s p n a (vs.map (encodeElem n.fmt))

/-- An element's value as FP32 bits before the per-tensor scale: an integer is converted with round-to-nearest-even
(R146, R242, R248). -/
def elemF32 (n : Noun) (v : Nat × Nat) : W32 :=
  if n.fmt = 0 then (if (ofF32 (BitVec.ofNat 32 v.1)).isNan then canonNan else BitVec.ofNat 32 v.1)
  else toF32 (decodeElem n.fmt v.1 v.2)

end Sys2Proof.Machine
end

