-- ==== Sys2Proof/Machine/Hostq.lean ====
section
/-! DEFINITION. Queues, doorbells, the checks and starts of commands, completion, contexts and abort (12). -/

namespace Sys2Proof.Machine

/-! ## Rings -/

/-- Entries of the submission and completion rings (R280). -/
def sqSize (s : State) (f q : Nat) : Nat := 2 ^ rdF s (qA f q 4) 0 5
def cqSize (s : State) (f q : Nat) : Nat := 2 ^ rdF s (qA f q 4) 8 5

/-- Entries of a ring from `a` to `b`. -/
def ringDist (a b size : Nat) : Nat := (b + size - a % size) % size

/-- Submission entries available (R282). -/
def available (s : State) (f q : Nat) : Nat :=
  let x := s.queue f q
  if x.st == .active then ringDist x.head x.tail (sqSize s f q) else 0

/-- Sequence number a precedes b (R292). -/
def seqBefore (a b : W32) : Bool := 1 ≤ (b - a).toNat && (b - a).toNat < 2 ^ 31

/-! ## Queue slots (R285, R286) -/

def State.qslot (s : State) (k : Nat) : QSlot := s.hq.qslots.get {} k
def State.setQslot (s : State) (k : Nat) (x : QSlot) : State := { s with hq := { s.hq with qslots := s.hq.qslots.put {} k x } }

/-- Queue slot of a queue takes note of its use. -/
def touchSlot (s : State) (k : Nat) : State :=
  let u := s.hq.use + 1
  { s.setQslot k { s.qslot k with lastUse := u } with hq := { (s.setQslot k { s.qslot k with lastUse := u }).hq with use := u } }

/-- Gives slot `k` to queue `q` of function `f`, taking it from the queue that holds it. -/
def giveSlot (s : State) (k f q : Nat) : State :=
  let o := s.qslot k
  let s1 := if o.valid then
      let v := s.queue o.fn.vote o.q
      s.setQueue o.fn.vote o.q { v with slot := none, evicted := true }
    else s
  let u := s1.hq.use + 1
  let s2 := s1.setQslot k { valid := true, fn := ⟨f, f, f, f⟩, q := q, lastUse := u, since := u }
  let s3 := { s2 with hq := { s2.hq with use := u } }
  s3.setQueue f q { s3.queue f q with slot := some k, evicted := false }

/-- The slot with the smallest key among those that `ok` admits. -/
def pickSlot (s : State) (ok : QSlot → Bool) (key : QSlot → Nat) : Option Nat :=
  (List.range 64).foldl (fun best k =>
    if ok (s.qslot k) then match best with
      | none => some k
      | some b => if key (s.qslot k) < key (s.qslot b) then some k else best
    else best) none

/-- Makes a queue resident (R285). -/
def assignSlot (s : State) (f q : Nat) : State :=
  if (s.queue f q).slot.isSome then s
  else match (List.range 64).find? (fun k => !(s.qslot k).valid) with
    | some k => giveSlot s k f q
    | none =>
      match pickSlot s (fun x => available s x.fn.vote x.q == 0) (·.lastUse) with
      | some k => giveSlot s k f q
      | none => match pickSlot s (fun _ => true) (·.since) with
        | some k => giveSlot s k f q
        | none => s

/-- Slot `k` is free: a queue that has unconsumed commands and no slot takes it (R285). -/
def offerSlot (s : State) (k : Nat) : State :=
  let s1 := s.setQslot k {}
  match s1.hq.queues.entries.find? (fun e => e.2.slot.isNone && available s1 (e.1 / 64) (e.1 % 64) != 0) with
  | some e => giveSlot s1 k (e.1 / 64) (e.1 % 64)
  | none => s1

/-- Frees a queue's slot. -/
def freeSlot (s : State) (f q : Nat) : State :=
  match (s.queue f q).slot with
  | none => s
  | some k => offerSlot (s.setQueue f q { s.queue f q with slot := none }) k

/-- The queue is made resident and its slot notes the use. -/
def useSlot (s : State) (f q : Nat) : State :=
  let t := assignSlot s f q
  match (t.queue f q).slot with | some k => touchSlot t k | none => t

/-! ## Enable and disable (R280, R281) -/

/-- The first check of R280 that fails; 0 none. -/
def enableCheck (s : State) (f q : Nat) : Nat :=
  let x := s.queue f q
  let sq := rdF s (qA f q 4) 0 5
  let cq := rdF s (qA f q 4) 8 5
  if !(tenant s f).enable then 1
  else if rd64 s (qA f q 0) (qA f q 1) % 4096 ≠ 0 ∨ rd64 s (qA f q 2) (qA f q 3) % 4096 ≠ 0 ∨
      2 ^ 51 ≤ rd64 s (qA f q 0) (qA f q 1) ∨ 2 ^ 51 ≤ rd64 s (qA f q 2) (qA f q 3) then 2
  else if sq < 4 ∨ 16 < sq ∨ cq < 4 ∨ 16 < cq then 3
  else if x.st = .quiescing then 4
  else 0

/-- A queue whose pending abort finds it empty (R299), and a quiescing queue with nothing left (R281). -/
def settleQueue (s : State) (f q : Nat) : State :=
  let x := s.queue f q
  let x1 := if x.st = .quiescing ∧ x.cmds = [] then { x with st := .disabled } else x
  let s1 := s.setQueue f q x1
  let s2 := if x1.st = .disabled then freeSlot s1 f q else s1
  let y := s2.queue f q
  if y.abSt = .pending ∧ y.cmds = [] ∧ available s2 f q = 0 then s2.setQueue f q { y with abSt := .notFound } else s2

/-- Q_CTRL written (R280, R281). -/
def qCtrlOp (s : State) (f q : Nat) (v : W32) : State :=
  let x := s.queue f q
  let s1 := wrF s (qA f q 5) 8 6 (fld v.toNat 8 6)
  if bit v.toNat 0 then
    if x.st = .active then s1
    else
      let e := if x.st = .quiescing then 4 else enableCheck s f q
      if e ≠ 0 then s1.setQueue f q { x with error := e }
      else s1.setQueue f q { x with st := .active, error := 0, head := 0, tail := 0, cqTail := 0, cqHead := 0,
                                    phase := true, nextSeq := rd s (qA f q 7), evicted := false }
  else if x.st = .active then
    refresh (settleQueue (s1.setQueue f q { x with st := .quiescing }) f q) f
  else s1

/-- QUEUE_ENABLE (R280). -/
def execQueueEnable (f : Fn) (q : Qid) (v : W32) (s : State) : Out :=
  done s (if bit v.toNat 0 then qCtrlOp s f q v else s)

/-- QUEUE_DISABLE (R281). -/
def execQueueDisable (f : Fn) (q : Qid) (v : W32) (s : State) : Out :=
  done s (if bit v.toNat 0 then s else qCtrlOp s f q v)

/-! ## Doorbell (R282) -/

/-- The submission tail written. -/
def sqDoor (s : State) (f q : Nat) (v : W32) : State :=
  let x := s.queue f q
  if sqSize s f q ≤ v.toNat then s.setQueue f q { x with dbError := true }
  else if v.toNat = x.tail then s
  else
    let s1 := s.setQueue f q { x with tail := v.toNat, doorAt := s.time }
    if x.st = .active then useSlot s1 f q else s1

/-- The completion head written. -/
def cqDoor (s : State) (f q : Nat) (v : W32) : State :=
  let x := s.queue f q
  let n := cqSize s f q
  if n ≤ v.toNat ∨ ringDist x.cqHead x.cqTail n < ringDist x.cqHead v.toNat n then s.setQueue f q { x with dbError := true }
  else s.setQueue f q { x with cqHead := v.toNat }

/-- A doorbell write; a disabled queue ignores it. One that had lost its slot is resident again (R285), and one that the
write leaves empty answers an abort that waits (R299). -/
def doorbellOp (s : State) (f q : Nat) (tail head : Option W32) : State :=
  if (s.queue f q).st = .disabled then s
  else
    let s1 := match tail with | some v => sqDoor s f q v | none => s
    let s2 := match head with | some v => cqDoor s1 f q v | none => s1
    let s3 := if (s2.queue f q).evicted && (s2.queue f q).st == .active then useSlot s2 f q else s2
    refresh (settleQueue s3 f q) f

/-- DOORBELL (R282, R285, R309). -/
def execDoorbell (f : Fn) (q : Qid) (tail head : Option W32) (s : State) : Out := done s (doorbellOp s f q tail head)

/-! ## Commit (R291 to R295) -/

/-- Engine type of a completion record: 0 MX, 1 TX, 2 TE, 3 none. -/
def Cmd.engType (c : Cmd) : Nat :=
  if c.op = 1 then c.eng % 2 else if c.op = 2 then 2 else if c.op = 3 then 0 else 3

/-- Status of a command at its commit: an abort stands over everything (R300). -/
def Cmd.finalStatus (c : Cmd) : Nat := if c.aborting then 1 else c.status
def Cmd.finalDetail (c : Cmd) : Nat := if c.aborting then 0 else c.detail.toNat

/-- The completion record (R293). -/
def Cmd.record (c : Cmd) (q : Nat) (phase : Bool) : List Byte :=
  let b (x : Bool) (n : Nat) : Nat := if x then n else 0
  leBytes 4 c.seq.toNat ++ leBytes 1 c.finalStatus
    ++ leBytes 1 (b phase 1 + b c.saturated 2 + b c.short 4 + b c.event 8) ++ leBytes 2 c.tag.toNat
    ++ leBytes 2 (c.ctx + c.engType * 4096)
    ++ leBytes 1 (if c.finalStatus = 2 then (match c.faultEng with | some e => e.toNat + 128 | none => 0) else 0)
    ++ leBytes 1 q ++ leBytes 4 c.finalDetail

/-- The commit point of command `c` of a queue: its record enters the completion write queue and is written. -/
def commitCmd (s : State) (f q : Nat) (c : Cmd) : State :=
  let x := s.queue f q
  let n := cqSize s f q
  let base := rd64 s (qA f q 2) (qA f q 3)
  let s1 := writePa s (2 ^ 51 + (base + 16 * x.cqTail) % 2 ^ 51) (c.record q x.phase)
  let tail := (x.cqTail + 1) % n
  let s2 := s1.setQueue f q { x with
    cmds := x.cmds.filter (fun d => d.order != c.order)
    cqTail := tail
    phase := if tail = 0 then !x.phase else x.phase
    committed := (x.committed + 1) % 2 ^ 64
    abSt := if x.abSt = .pending ∧ x.abSeq = c.seq then (if c.aborting then .aborted else .done) else x.abSt }
  let s3 := if c.event then msix s2 f (rdF s (qA f q 5) 8 6) else s2
  let s4 := if c.finalStatus = 2 ∧ (s3.ctx c.ctx).live then s3.setCtx c.ctx { s3.ctx c.ctx with faulted := true } else s3
  let s5 := trcCommit (monEvent s4 15 f 1) c.ctx ⟨f, q, c.seq⟩ c.tag c.finalStatus
    ((if c.short then 1 else 0) + if c.saturated then 2 else 0)
  let s6 := match c.firstIssue with | some t => monSample s5 false 7 f (s.time - t) | none => s5
  refresh (settleQueue s6 f q) f

/-- Commands complete: no CHIP_RESET request waits to be taken (R55). -/
def completes (s : State) : Bool := !s.boot.resetReq

/-- COMMAND_COMMIT (R291): the queue's command `seq` that has ended commits. None does between a CHIP_RESET request and
the reset (R55). -/
def execCommandCommit (f : Fn) (q : Qid) (seq : W32) (s : State) : Out :=
  if !completes s then done s s else match (s.queue f q).cmds.find? (fun c => c.ready && c.seq == seq) with
  | some c => done s (commitCmd s f q c)
  | none => done s s

/-! ## Consuming a command (R283, R284, R287 to R289) -/

/-- Number of argument words' entries an opcode takes: smallest and largest ext (R288). -/
def extRange (op : Nat) : Option (Nat × Nat) :=
  if op = 1 then some (0, 3) else if op = 2 then some (1, 3)
  else if op = 3 ∨ op = 4 ∨ op = 0x10 ∨ op = 0x11 ∨ op = 0x12 then some (0, 0) else none

/-- The command that submission entries spell (R287). -/
def parseCmd (w : List W64) : Cmd :=
  let h0 := (w.getD 0 0).toNat
  let h1 := (w.getD 1 0).toNat
  { op := BitVec.ofNat 8 h0, event := bit h0 8, serial := bit h0 9, ctx := fld h0 16 12, seq := BitVec.ofNat 32 (fld h0 32 32),
    mask := BitVec.ofNat 32 h1, eng := fld h1 32 8, tag := BitVec.ofNat 16 (fld h1 48 16), words := w.drop 2 }

/-- ext of the first submission entry. -/
def cmdExt (w : List W64) : Nat := fld (w.getD 0 0).toNat 10 2

/-- The reserved bits, ext, engine and context fields of R287 and R288 (step 2 of R289). -/
def headerOk (w : List W64) : Bool :=
  let h0 := (w.getD 0 0).toNat
  let h1 := (w.getD 1 0).toNat
  let op := fld h0 0 8
  match extRange op with
  | none => false
  | some (a, b) => a ≤ cmdExt w && cmdExt w ≤ b && fld h0 12 4 == 0 && fld h0 28 4 == 0 && fld h1 40 8 == 0
      && (if op = 1 then fld h1 32 8 ≤ 1 else fld h1 32 8 == 0) && (op != 0x10 || fld h0 16 12 == 0)

def Cmd.w (c : Cmd) (i : Nat) : Nat := (c.words.getD i 0).toNat

/-- Cores of a mask in increasing order. -/
def maskCores (m : Nat) : List Nat := (List.range 32).filter (fun c => m.testBit c)

/-- A partition's cores as a mask. -/
def fnMask (s : State) (f : Nat) : Nat :=
  if (tenant s f).enable then ((coresOf s (tenant s f).part).map (fun c => 2 ^ c)).sum else 0

/-- The formats of two nouns are compatible (R134): same kind and buffer rows per K-value. -/
def fmtGroup (c : Nat) : Nat :=
  if c = 0 then 0 else if c = 1 ∨ c = 2 then 1 else if 3 ≤ c ∧ c ≤ 6 then 2 else if c = 7 then 3 else if c = 8 then 4
  else if c = 9 then 5 else 6
def compatible (a b : Nat) : Bool := fmtGroup a == fmtGroup b && fmtGroup a != 6

/-- Fields of a CTX_CREATE (R288). -/
def Cmd.ctxRec (c : Cmd) (f : Nat) : Ctx :=
  { live := true, fn := f, nounTable := fld (c.w 0) 0 52, log := fld (c.w 1) 0 52, save := fld (c.w 2) 0 52,
    saveSize := fld (c.w 3) 0 40, winBase := fld (c.w 4) 0 8, winSize := fld (c.w 4) 8 9 }

/-- The alignment, window and save_size conditions of R296. -/
def ctxArgsOk (s : State) (k : Ctx) : Bool :=
  k.nounTable % 4096 == 0 && k.log % 4096 == 0 && k.save % 4096 == 0 && 1 ≤ k.winSize && k.winSize ≤ 256
  && k.winBase + k.winSize ≤ 256
  && 9216 + (coresOf s (tenant s k.fn).part).length * (2696192 + 65536 * k.winSize) ≤ k.saveSize

/-- Contexts that function `f` holds. -/
def ctxUsed (s : State) (f : Nat) : Nat := (s.hq.ctxs.entries.filter (fun e => e.2.live && e.2.fn == f)).length

/-- Lowest free context number. -/
def freeCtx (s : State) : Option Nat := (List.range 4096).find? (fun x => !(s.ctx x).live)

/-- The NO_CONTEXT detail that applies, if any (R294). -/
def noContext (s : State) (f : Nat) : Option Nat :=
  if rdF s (0x00040200 + 4 * f) 0 13 ≤ ctxUsed s f then some 0
  else if (freeCtx s).isNone then some 1 else none

/-- R159. -/
def launchOk (s : State) (c : Cmd) : Bool :=
  let g := fld (c.w 1) 41 11
  let off := fld (c.w 2) 0 13
  let size := fld (c.w 2) 16 13
  off + size ≤ 16 * (s.ctx c.ctx).winSize && !(g != 0 && size / g == 0) && (fld (c.w 1) 32 9 + 31) / 32 ≤ 16
  && (maskCores c.mask.toNat).length * 65536 ≤ fld (c.w 2) 32 32 && fld (c.w 1) 0 32 != 0

/-- Fields of a GLEAN (R148, R288). -/
def Cmd.glW (c : Cmd) : Nat := fld (c.w 0) 0 12
def Cmd.glA (c : Cmd) : Nat := fld (c.w 0) 12 12
def Cmd.glO (c : Cmd) : Nat := fld (c.w 0) 24 12
def Cmd.glM (c : Cmd) : Nat := fld (c.w 0) 36 6
def Cmd.glConj (c : Cmd) : Nat := fld (c.w 0) 42 9
def Cmd.glSig (c : Cmd) : Bool := bit (c.w 0) 51
def Cmd.glWait (c : Cmd) : Nat := fld (c.w 1) 0 16

/-- R149. A noun that does not resolve fails the pass, not this check. -/
def gleanOk (s : State) (c : Cmd) : State × Bool :=
  if (maskCores c.mask.toNat).length ≠ 1 ∨ c.glM < 1 ∨ 32 < c.glM then (s, false)
  else
    let k := s.ctx c.ctx
    let get (t : State) (h : Nat) : State × Option Noun :=
      match readVa t 32 k.fn (some c.ctx) (k.nounTable + 128 * h) 128 .read with
      | (u, .inl b) => (u, if nounOk b then some (parseNoun b) else none)
      | (u, .inr _) => (u, none)
    match get s c.glA with
    | (t, a) => match get t c.glW, a with
      | (u, some w), some a => (u, compatible a.fmt w.fmt)
      | (u, _), _ => (u, true)

/-- How a checked command goes on: to dispatch, or to its completion with a status and detail. -/
inductive Chk
  | ok
  | fail (status detail : Nat)
deriving DecidableEq, Repr

/-- Steps 3 to 8 of R289 for a command of function `f`. -/
def checkArgs (s : State) (f : Nat) (c : Cmd) : State × Chk :=
  let op := c.op.toNat
  let eng := op = 1 ∨ op = 2 ∨ op = 3
  let named := op ≠ 4 ∧ op ≠ 0x10
  let k := s.ctx c.ctx
  let m := c.mask.toNat
  if named ∧ !(k.live && k.fn == f) then (s, .fail 5 0)
  else if named ∧ k.closing then (s, .fail 6 0)
  else if eng ∧ k.faulted then (s, .fail 7 0)
  else if (eng ∧ (m = 0 ∨ m &&& fnMask s f ≠ m)) then (s, .fail 8 (m - (m &&& fnMask s f)))
  else if (¬ eng ∧ m ≠ 0) then (s, .fail 8 (m - (m &&& fnMask s f)))
  else if op = 2 then (s, if launchOk s c then .ok else .fail 9 0)
  else if op = 3 then match gleanOk s c with | (t, b) => (t, if b then .ok else .fail 9 0)
  else if op = 0x10 then
    if !ctxArgsOk s (c.ctxRec f) then (s, .fail 9 0)
    else match noContext s f with | some d => (s, .fail 10 d) | none => (s, .ok)
  else (s, .ok)

/-- The checks of R289 in order. -/
def checkCmd (s : State) (f q : Nat) (w : List W64) : State × Chk :=
  let c := parseCmd w
  let x := s.queue f q
  if c.seq ≠ x.nextSeq then (s, .fail 3 x.nextSeq.toNat)
  else if !headerOk w then (s, .fail 4 0)
  else checkArgs s f c

/-- QUEUE_OWNERSHIP of a refused command (R289, R342, R347). -/
def ownershipErr (s : State) (f q : Nat) (c : Cmd) : State :=
  fnCoal (rasCount (inc16 s (fpA f 0x3080C)) 0x46) f
    { code := 0x46, q := some q, seq := c.seq, detail := c.ctx, block := 3, inst := f }

/-- The queue may consume a command of `n` entries (R283, R284). -/
def mayConsume (s : State) (f q n : Nat) : Bool :=
  let x := s.queue f q
  x.st == .active && x.slot.isSome && n ≤ available s f q && x.cmds.length < 16
  && ringDist x.cqHead x.cqTail (cqSize s f q) + x.cmds.length + 2 ≤ cqSize s f q

/-- Puts a consumed command on the queue's list and moves the head past its entries. -/
def enqueue (s : State) (f q n : Nat) (c : Cmd) : State :=
  let x := s.queue f q
  let o := s.hq.order + 1
  let s1 := s.setQueue f q { x with
    cmds := x.cmds ++ [{ c with order := o, at_ := x.head }], head := (x.head + n) % sqSize s f q, nextSeq := x.nextSeq + 1 }
  let s2 := { s1 with hq := { s1.hq with order := o } }
  match x.slot with | some k => touchSlot s2 k | none => s2

/-- The cores a dispatched command still has to start on and to end on. -/
def Cmd.dispatch (c : Cmd) : Cmd :=
  let l := if c.op = 1 ∨ c.op = 2 ∨ c.op = 3 then maskCores c.mask.toNat else []
  { c with toStart := l, toEnd := l }

/-- COMMAND_CONSUME (R283, R284, R287 to R289, R299): `words` are the entries' contents. -/
def execCommandConsume (f : Fn) (q : Qid) (words : List W64) (s : State) : Out :=
  let n := words.length / 8
  if words.length ≠ 8 * (1 + cmdExt words) then bad "COMMAND_CONSUME"
  else if !mayConsume s f q n then done s s
  else
    let x := s.queue f q
    let c := parseCmd words
    if x.abSt = .pending ∧ x.abSeq = c.seq ∧ x.cmds.all (fun d => d.seq != c.seq) then
      done s (refresh (enqueue s f q n { c with aborting := true, started := true, ready := true }) f)
    else match checkCmd s f q words with
      | (t, .fail st d) =>
        let t1 := if st = 5 then ownershipErr t f q c else t
        done s (refresh (enqueue t1 f q n { c with status := st, detail := BitVec.ofNat 32 d, started := true, ready := true }) f)
      | (t, .ok) =>
        let t1 := enqueue t f q n c.dispatch
        let t2 := if c.op = 0x11 then t1.setCtx c.ctx { t1.ctx c.ctx with closing := true } else t1
        let t3 := if c.op = 1 ∨ c.op = 2 ∨ c.op = 3 then wantResident t2 c.ctx else t2
        done s (refresh t3 f)

/-! ## Starting a command (R290) -/

/-- Command `c` may start as far as the queue's order goes: every earlier command has started, and with serial = 1 every
earlier one has committed. -/
def inTurn (l : List Cmd) (c : Cmd) : Bool :=
  let before := l.takeWhile (fun d => d.order != c.order)
  before.all (·.started) && (!c.serial || before.isEmpty)

/-- The first command of opcode `op` in turn that `can` start now (R16, R290): one that has started and waits for a busy
engine keeps no later one from a free engine. -/
def nextStart (s : State) (f q op : Nat) (can : Cmd → Bool) : Option Cmd :=
  let l := (s.queue f q).cmds
  l.find? (fun c => c.op.toNat == op && !c.ready && (!c.started || !c.toStart.isEmpty) && inTurn l c && can c)

/-- Changes a command of a queue, by its order of consumption. -/
def modOrder (s : State) (f q o : Nat) (g : Cmd → Cmd) : State :=
  let x := s.queue f q
  s.setQueue f q { x with cmds := x.cmds.map (fun c => if c.order = o then g c else c) }

/-- No earlier command of the queue waits for the same engine of core `n` (R290). -/
def firstFor (s : State) (f q : Nat) (c : Cmd) (n : Nat) : Bool :=
  ((s.queue f q).cmds.takeWhile (fun d => d.order != c.order)).all
    (fun d => !(d.toStart.contains n && d.engType == c.engType))

/-- Function `f` may start work on its partition: it holds the slice and the gate is open (R66, R290, R310). -/
def mayStart (s : State) (f : Nat) : Bool :=
  let p := (tenant s f).part
  s.isUp && (tenant s f).enable && (s.partS p).holder == some f && !gateClosed s p

/-- The engine is free for a new stream of function `f` on core `n` (R290, R312). -/
def engFree (s : State) (n : Nat) (e : CE) (f : Nat) : Bool :=
  let x := s.core n
  (x.eng e).st == .idle && !(e == .mx && x.glPass.isSome)
  && !(x.streams.any (fun v => v.e == e && v.eng.fn == f)) && !(e == .mx && x.glSaved.any (fun w => w.fn == f))

/-- STREAM_START (R104): the engine's state is zero but for its program counter and the scalars. -/
def startStream (s : State) (n : Nat) (e : CE) (f q : Nat) (c : Cmd) : State :=
  let sc := (List.range 29).foldl (fun (t : Tbl W64) i => t.put 0 (i + 1) (c.words.getD (i + 1) 0)) {}
  let y : ClEng := { st := .issuing, cmd := ⟨f, q, c.seq⟩, ctx := c.ctx, fn := f, pc := fld (c.w 0) 0 52, scal := sc }
  let x := s.core n
  let x1 := match e with
    | .mx => { x with mx := y, bufs := {}, heldRows := {}, banks := {}, nounMx := x.nounStamp }
    | .tx => { x with tx := y, nounTx := x.nounStamp }
  trcEng (s.setCore n x1) 1 n (CE.eng e) c.ctx ⟨f, q, c.seq⟩ c.tag 0

/-- The engine of a RUN. -/
def Cmd.runEng (c : Cmd) : CE := if c.eng = 0 then .mx else .tx

/-- The targeted engines of RUN `c` that are free for it. -/
def runCores (s : State) (f q : Nat) (c : Cmd) : List Nat :=
  c.toStart.filter (fun n => engFree s n c.runEng f && firstFor s f q c n)

/-- RUN (R288, R290): starts the first RUN in turn that can start, on every targeted engine that is free. -/
def execRun (f : Fn) (q : Qid) (s : State) : Out :=
  match nextStart s f q 1 (fun c => mayStart s f && resident s c.ctx && !(runCores s f q c).isEmpty) with
  | none => done s s
  | some c =>
    let l := runCores s f q c
    let s1 := l.foldl (fun t n => startStream t n c.runEng f q c) s
    done s (refresh (modOrder s1 f q c.order (fun k =>
      { k with started := true, toStart := k.toStart.filter (fun n => !l.contains n) })) f)

/-- The next command of an opcode that no engine executes: while commands complete (R55). DESIGN CHOICE (log entry 117): NOP
and the context opcodes ask for no slice and start in an exhausted partition too; R66 gates what engines execute. -/
def nextOwn (s : State) (f q op : Nat) : Option Cmd := nextStart s f q op (fun _ => completes s)

/-- NOP (R291): it commits when it starts. -/
def execNop (f : Fn) (q : Qid) (s : State) : Out :=
  match nextOwn s f q 4 with
  | some c => done s (commitCmd s f q { c with started := true })
  | none => done s s

/-- CTX_CREATE (R296). -/
def execCtxCreate (f : Fn) (q : Qid) (s : State) : Out :=
  match nextOwn s f q 0x10 with
  | none => done s s
  | some c =>
    match noContext s f, freeCtx s with
    | some d, _ => done s (commitCmd s f q { c with status := 10, detail := BitVec.ofNat 32 d })
    | none, some x =>
      let s1 := (clearSync s x).setCtx x (c.ctxRec f)
      done s (commitCmd s1 f q { c with detail := BitVec.ofNat 32 x })
    | none, none => done s s

/-- Every command of context `x` consumed before order `o`, in any queue of function `f`, has committed (R297). -/
def ctxQuiet (s : State) (f x o : Nat) : Bool :=
  s.hq.queues.entries.all (fun e => e.1 / 64 != f || e.2.cmds.all (fun c =>
    !(c.ctx == x && c.order < o && c.op != 4 && c.op != 0x10)))

/-- Empties the slot that context `x` occupies. -/
def releaseCtxSlot (s : State) (x : Nat) : State :=
  match slotOf s x with
  | some k => { s with syn := { s.syn with slots := s.syn.slots.put {} k {} } }
  | none => s

/-! ## Abort (R299, R300) -/

/-- Whether every earlier write has landed and every earlier transfer has completed. -/
def relReady (s : State) (c : Nat) (y : ClEng) (r : RelWait) : Bool :=
  y.inflight.all (fun l => r.upto < l.issued) && (s.core c).xfers.all (fun x => !r.xfers.contains x.id)

/-- A saved stream whose command is aborted: of its release operations only signals are left to perform. -/
def StreamSave.quit (v : StreamSave) : StreamSave :=
  { v with eng := { v.eng with releases := v.eng.releases.filter (fun r => match r.r with | .sig _ _ => true | _ => false) } }

/-- An aborted saved stream on core `c` sends the signals that are ready; with none left and no transfer outstanding, its
command ends there (R300, R363). -/
def settleQuit (s : State) (c : Nat) (v : StreamSave) : State :=
  let y := v.eng
  let sigs := y.releases.takeWhile (relReady s c y)
  let s1 := sigs.foldl (fun t r => match r.r with
    | .sig n k => sendSignal t { ctx := y.ctx, conj := n, n := k, src := sigSrc c (CE.eng v.e) y.ctx r.pc }
    | _ => t) s
  let rest := y.releases.drop sigs.length
  let x := s1.core c
  if rest.isEmpty && !x.xfers.any (fun z => z.cmd == y.cmd) then
    let s2 := s1.setCore c { x with quits := x.quits.filter (fun z => z.stamp != v.stamp),
                                    pools := x.pools.filter (fun p => p.cmd != y.cmd) }
    cmdEnd (trcEng s2 2 c (CE.eng v.e) y.ctx y.cmd (tagOf s2 y.cmd) 0xFF) y.cmd c
  else s1.setCore c { x with quits := x.quits.map (fun z =>
    if z.stamp = v.stamp then { z with eng := { z.eng with releases := rest } } else z) }

/-- The aborted saved streams of core `c`. -/
def settleQuits (s : State) (c : Nat) : State := (s.core c).quits.foldl (fun t v => settleQuit t c v) s

/-- Saved TE work of command `r`. -/
def TeSave.of (v : TeSave) (r : CmdRef) : Bool :=
  v.blocks.any (fun b => b.cmd == r) || (match v.grid with | some g => g.cmd == r | none => false)

/-- Core `c` stops executing command `r`, and drops its saved state: nothing of it is resumed. A stream stops at its next
clause boundary, TE work at the punnets' next instruction boundary; a request whose pass has not started is removed. -/
def stopOn (s : State) (r : CmdRef) (c : Nat) : State :=
  let x := s.core c
  let mark (y : ClEng) : ClEng := if y.busy && y.cmd == r then { y with aborting := true } else y
  let cut (w : GlWin) : GlWin := { w with reqs := w.reqs.filter (fun g => g.cmd != r) }
  let has (l : List GlWin) : Bool := l.any (fun w => w.reqs.any (fun g => g.cmd == r))
  let s1 := s.setCore c { x with
    mx := mark x.mx, tx := mark x.tx, te := { x.te with saved := x.te.saved.filter (fun v => !v.of r) }
    streams := x.streams.filter (fun v => v.eng.cmd != r)
    quits := x.quits ++ (x.streams.filter (fun v => v.eng.cmd == r)).map (·.quit)
    glean := x.glean.map cut, glQueue := x.glQueue.map cut }
  let s2 := if has x.glean || has x.glQueue then cmdEnd s1 r c else s1
  let s3 := (x.te.saved.filter (·.of r)).foldl (fun t v =>
    cmdEnd (trcEng t 2 c .te v.ctx r (tagOf t r) 0xFF) r c) s2
  settleQuits s3 c

/-- Stops what executes command `r` on every core. -/
def stopCmd (s : State) (r : CmdRef) : State := upTo 32 s (fun t c => stopOn t r c)

/-- Whether some other queued CTX_DESTROY keeps context `x` closing. -/
def stillClosing (s : State) (f x o : Nat) : Bool :=
  s.hq.queues.entries.any (fun e => e.1 / 64 == f && e.2.cmds.any (fun c =>
    c.ctx == x && c.op == 0x11 && c.order != o && !c.aborting && !c.ready))

/-- Aborts a consumed, uncommitted command (R300). -/
def abortCmd (s : State) (f q : Nat) (c : Cmd) : State :=
  let r : CmdRef := ⟨f, q, c.seq⟩
  if c.ready then modOrder s f q c.order (fun k => { k with aborting := true })
  else
    let s1 := modOrder s f q c.order (fun k =>
      { k with aborting := true, started := true, toEnd := k.toEnd.filter (fun n => !k.toStart.contains n), toStart := [] })
    let s2 := stopCmd s1 r
    let s3 := modOrder s2 f q c.order (fun k => { k with ready := k.ready || k.toEnd.isEmpty })
    if c.op = 0x11 ∧ !stillClosing s3 f c.ctx c.order then s3.setCtx c.ctx { s3.ctx c.ctx with closing := false } else s3

/-- Q_ABORT written (R299). -/
def abortOp (s : State) (f q : Nat) (v : W32) : State :=
  let x := s.queue f q
  if x.abSt = .pending then s.setQueue f q { x with abRefused := true }
  else match x.cmds.find? (fun c => c.seq == v) with
    | some c => refresh (abortCmd (s.setQueue f q { x with abSt := .pending, abSeq := v }) f q c) f
    | none =>
      if seqBefore v x.nextSeq then s.setQueue f q { x with abSt := .done, abSeq := v }
      else settleQueue (s.setQueue f q { x with abSt := .pending, abSeq := v }) f q

/-- ABORT (R299, R300). -/
def execAbort (f : Fn) (q : Qid) (v : W32) (s : State) : Out := done s (abortOp s f q v)

/-! ## PTM (R276) -/

/-- PTM_DIALOGUE: the master time and the chip time of the same instant. -/
def execPtmDialogue (master : W64) (s : State) : Out :=
  if !s.hq.ptmOn then done s s
  else
    let a := 0x00040600
    let s1 := inc32 s a 2
    let s2 := wr (wr s1 (a + 4) (BitVec.ofNat 32 s.time)) (a + 8) (BitVec.ofNat 32 (s.time / 2 ^ 32))
    done s (wr (wr s2 (a + 12) (BitVec.ofNat 32 master.toNat)) (a + 16) (BitVec.ofNat 32 (master.toNat / 2 ^ 32)))

end Sys2Proof.Machine
end

