-- ==== Sys2Proof/Machine/MxData.lean ====
section
/-! DEFINITION. The data side of the matrix engine: operand rows (R136, R137), the sums of an MMA (R138 to R145) and the
conversion of a drained row (R146). -/

namespace Sys2Proof.Machine

/-! ## Operand rows -/

/-- Buffer rows per K-value (R133); 1 for the 4-bit formats, whose rows carry two. INT32 rows are DESIGN CHOICE: 4. -/
def rpk (f : Nat) : Nat := if f = 0 then 8 else if f = 1 ∨ f = 2 then 2 else if f = 10 then 4 else 1

/-- K-values in one group of `rpk` rows. -/
def perRow (f : Nat) : Nat := if f = 7 ∨ f = 9 then 2 else 1

/-- K-values that `rows` buffer rows carry. -/
def kVals (f rows : Nat) : Nat := rows / rpk f * perRow f

/-- Bits of a K-value that one buffer row carries. -/
def rowBits (f : Nat) : Nat := if f = 0 then 4 else 8

/-- A lane's share of buffer row `r` of the elements `v` (K to pattern and scale code): the byte, and above it the MX
scale. -/
def rowVal (f : Nat) (v : Nat → Nat × Nat) (r : Nat) : W16 :=
  if perRow f = 2 then
    BitVec.ofNat 16 ((v (2 * r)).1 % 16 + (v (2 * r + 1)).1 % 16 * 16 + if isMx f then (v (2 * r)).2 * 256 else 0)
  else
    let e := v (r / rpk f)
    BitVec.ofNat 16 (fld e.1 (rowBits f * (r % rpk f)) (rowBits f) + if isMx f then e.2 * 256 else 0)

/-- The pattern and scale code of K-value `k`, out of a lane's shares `g` of the buffer rows. -/
def opPat (f : Nat) (g : Nat → W16) (k : Nat) : Nat × Nat :=
  if perRow f = 2 then (fld (g (k / 2)).toNat (4 * (k % 2)) 4, (g (k / 2)).toNat / 256)
  else ((List.range (rpk f)).foldl (fun a i => a + fld (g (rpk f * k + i)).toNat 0 (rowBits f) * 2 ^ (rowBits f * i)) 0,
        (g (rpk f * k)).toNat / 256)

/-- The value of K-value `k`; an unset operand reads as +0 (R137). -/
def opVal (f : Option Nat) (g : Nat → W16) (k : Nat) : Fp :=
  match f with
  | none => .num false 0 0
  | some f => let p := opPat f g k; decodeElem f p.1 p.2

/-- The lines that a load of `rows` buffer rows reads: of each lane its K-values (R136, R137). -/
def ldLines (s : State) (p : Sp) (n : Noun) (addr rows : Nat) : State × (List (List (Nat × Nat)) ⊕ XF) :=
  (List.range (Nat.min 256 (n.e 1))).foldl (fun r m => match r with
    | (t, .inr e) => (t, .inr e)
    | (t, .inl l) => match readLine t p n (n.line addr m 0 0) (Nat.min (n.e 0) (kVals n.fmt rows)) with
      | (u, .inl v) => (u, .inl (l ++ [v]))
      | (u, .inr e) => (u, .inr e)) (s, .inl [])

/-- The 256 lanes of buffer row `r`, at positions from `pos` on. -/
def laneRow (f : Nat) (lines : List (List (Nat × Nat))) (pos r : Nat) : List (Nat × W16) :=
  (List.range 256).map (fun m => (pos + m, rowVal f (fun k => (lines.getD m []).getD k (0, 0)) r))

/-- A share loaded in format `have_` (code + 1; 0 never loaded) read in format `tag` (R137): the same bits where both
formats lay a row out alike, else a free value. -/
def rowSeen (s : State) (tag : Option Nat) (have_ : Nat) (v : W16) (key : Nat) : W16 :=
  match tag with
  | none => 0
  | some f =>
    if have_ = 0 ∨ have_ = f + 1 then v
    else if rpk (have_ - 1) = rpk f ∧ perRow (have_ - 1) = perRow f ∧ !isMx f ∧ !isMx (have_ - 1) then v
    else BitVec.ofNat 16 (Config.freeFp s.freeIdx key).toNat

/-- Share of lane or position `p` of row `j` as an MMA of format `tag` issued at `t` reads it at t + j: the latest write
that has landed by then, a SHIFT's among them (R121, R122, R141). `b` is the buffer, 4 the held rows. -/
def seenAt (s : State) (x : Core) (tag : Option Nat) (b t j p : Nat) : W16 :=
  let o := if b = 4 then x.heldRows else x.bufs.get {} b
  let hit (l : Land) : Option (Nat × W16) := match l.w with
    | .buf k r f lanes => if k = b ∧ r = j ∧ l.at_ ≤ t + j then (look lanes p).map (fun v => (f + 1, v)) else none
    | .held r f lanes => if b = 4 ∧ r = j ∧ l.at_ ≤ t + j then (look lanes p).map (fun v => (f + 1, v)) else none
    | .shift rf lanes => if b = 4 ∧ l.at_ ≤ t + j then some (rf.get 0 j, lanes.get 0 (512 * j + p)) else none
    | _ => none
  match (x.mx.inflight.filterMap hit).getLast? with
  | some (h, v) => rowSeen s tag h v (512 * j + p)
  | none => rowSeen s tag (o.rowFmt.get 0 j) (o.lanes.get 0 (512 * j + p)) (512 * j + p)

/-- Rows 0 to k - 1 of an operand as an MMA issued at `t` reads them. -/
def capture (s : State) (x : Core) (tag : Option Nat) (b t k : Nat) : List (Nat × W16) :=
  (List.range k).flatMap (fun j => (List.range (if b = 4 then 512 else 256)).map (fun p =>
    (512 * j + p, seenAt s x tag b t j p)))

/-! ## MMA (R138 to R145) -/

/-- Two operand formats may meet; an unset one meets any (R134, R137). -/
def mayMeet (a b : Option Nat) : Bool :=
  match a, b with
  | some x, some y => compatibleF x y
  | some x, none => x != 10
  | none, some y => y != 10
  | none, none => true
where
  /-- Same kind and rows per K-value, and no INT32. -/
  compatibleF (x y : Nat) : Bool :=
    isIntFmt x == isIntFmt y && rpk x == rpk y && perRow x == perRow y && x != 10 && y != 10

/-- The format that sets an MMA's kind and rows per K-value. -/
def MmaRun.fmt (r : MmaRun) : Nat := match r.fmtA with | some f => f | none => r.fmtB.getD 3

/-- One cell: the accumulator after every group of rows read, and whether an integer addition saturated. -/
def mmaCell (r : MmaRun) (m n : Nat) (acc : W32) : W32 × Bool :=
  let f := r.fmt
  let av (k : Nat) : Fp := opVal r.fmtA (fun j => (look r.a (512 * j + m)).getD 0) k
  let bv (k : Nat) : Fp := opVal r.fmtB (fun j => (look r.b (512 * j + n)).getD 0) k
  (List.range (Nat.min r.k r.rows / rpk f)).foldl (fun st g =>
    let ks := (List.range (perRow f)).map (fun i => perRow f * g + i)
    if isIntFmt f then
      let d := ks.foldl (fun a k => a + (av k).toInt .ne * (bv k).toInt .ne) (sgn st.1.toNat 32)
      let v := clampI d (-(2 ^ 31)) (2 ^ 31 - 1)
      (BitVec.ofInt 32 v, st.2 || v != d)
    else
      let p := ks.map (fun k => (av k).mul (bv k))
      let d := match p with | [] => Fp.num false 0 0 | h :: t => t.foldl (Fp.add .ne) h
      (toF32 ((ofF32 st.1).add .ne d), st.2)) (acc, false)

/-- The bank an MMA leaves, and whether an addition saturated. -/
def mmaBank (r : MmaRun) : Bank × Bool :=
  let x := (List.range 65536).foldl (fun (st : Tbl W32 × Bool) i =>
    let v := mmaCell r (i / 256) (i % 256) (if r.acc then (look r.c i).getD 0 else 0)
    (st.1.put 0 i v.1, st.2 || v.2)) ({}, false)
  ({ isInt := isIntFmt r.fmt, el := x.1 }, x.2)

/-- The held rows after a SHIFT by one position: position 511 takes +0 (R141). -/
def OpBuf.shift (o : OpBuf) : OpBuf :=
  { o with lanes := ⟨o.lanes.entries.filterMap (fun e => if e.1 % 512 = 0 then none else some (e.1 - 1, e.2))⟩ }

/-- The held rows that a running MMA has still to read at cycle `at_` or later, read again (R122, R141). -/
def rereadHeld (s : State) (x : Core) (at_ : Nat) (r : MmaRun) : MmaRun :=
  if !r.reuse then r
  else { r with a := r.a.map (fun e =>
    if at_ ≤ r.issued + e.1 / 512 then (e.1, seenAt s x r.fmtA 4 r.issued (e.1 / 512) (e.1 % 512)) else e) }

/-! ## DRAIN (R146) -/

/-- Row `i` of a bank as 256 elements. -/
def Bank.row (b : Bank) (i : Nat) : List W32 := (List.range 256).map (fun n => b.el.get 0 (256 * i + n))

/-- Writes one bank row, tagged integer or float, as line `i` of the noun at `base`. -/
def drainRow (s : State) (p : Sp) (n : Noun) (base i : Nat) (isInt : Bool) (vs : List W32) : State × Option XF :=
  if n.e 1 ≤ i then (s, none)
  else
    let a := n.line base i 0 0
    if isInt && n.fmt == 10 then writeElems s p n a (vs.map (fun v => drainInt (sgn v.toNat 32) n.scale))
    else writeConv s p n a (vs.map (fun v => mulF32 (if isInt then i32f (sgn v.toNat 32) else v) n.scale))

end Sys2Proof.Machine
end

