-- ==== Sys2Proof/Machine/Clause.lean ====
section
/-! DEFINITION. Clause streams: clause layout and legality (R106 to R110, R117), fetch, issue and landing (R113 to R123),
releases (R115), stop points and preemption (R124 to R128), faults (R129), hazard-watch (R130 to R132), stream end
(R105). Cycles are those of the nominal schedule of R113. -/

namespace Sys2Proof.Machine

/-! ## Clauses (R106 to R110) -/

def Clause.h (k : Clause) (lo len : Nat) : Nat := fld k.hdr.toNat lo len
/-- Executions. -/
def Clause.execs (k : Clause) : Nat := k.h 8 8 + 1
def Clause.delay (k : Clause) : Nat := k.h 16 6
/-- Cycles from one execution to the next. -/
def Clause.interval (k : Clause) : Nat := k.h 22 4 + 1
def Clause.stop (k : Clause) : Bool := bit k.hdr.toNat 26
def Clause.isEnd (k : Clause) : Bool := bit k.hdr.toNat 27
def Clause.accLive (k : Clause) : Nat := k.h 28 2
def Clause.agstep (k : Clause) : Nat := k.h 32 8
def Clause.len (k : Clause) : Nat := 8 + 8 * k.slots.length
def Clause.slot (k : Clause) (i : Nat) : Option W64 := look k.slots i

/-- Slot types (R108). -/
inductive SlotTy | ctrl | sync | agu | load | op | store | xfer | scalar
deriving DecidableEq, Repr

/-- Type of slot `i` of an engine (R108). -/
def slotTy (e : CE) (i : Nat) : SlotTy :=
  if i = 0 then .ctrl else if i = 1 then .sync else if i ≤ 3 then .agu else if i = 7 then .scalar
  else match e with
    | .tx => .xfer
    | .mx => if i = 4 then .load else if i = 5 then .op else .store

/-- Opcode of a slot. -/
def opc (w : W64) : Nat := fld w.toNat 0 8

/-- Highest opcode of a slot type (R110). -/
def SlotTy.maxOp : SlotTy → Nat
  | .ctrl => 5 | .sync => 6 | .agu => 7 | .load => 3 | .op => 4 | .store => 2 | .xfer => 9 | .scalar => 14

/-- Bits that R109 assigns to a slot type. -/
def SlotTy.bits (t : SlotTy) (op : Nat) : Nat :=
  match t with
  | .ctrl => 0xFFFFFFFFFFFF7FFF
  | .sync => 0xFFFFFFFF007FFFFF
  | .agu => if op = 4 then 0xFFFFFFFFFFFFFFFF else 0xFFFFFFFF0FFFFFFF
  | .load => 0xFFFFFFFF
  | .op => 0x00FFF7FF
  | .store => 0xFFFFFFFF
  | .xfer => 0x000FFFFFFFFFFFFF
  | .scalar => 0xFFFFFFFF007FFFFF

/-- Fields of a slot (R109). -/
def sImm (w : Nat) : Nat := fld w 32 32
/-- imm32 sign-extended to 64 bits. -/
def sImm64 (w : Nat) : W64 := BitVec.ofInt 64 (sgn (sImm w) 32)
def sConj (w : Nat) : Nat := fld w 8 9
def sBar (w : Nat) : Nat := fld w 17 6
def sAg (w : Nat) : Nat := fld w 8 3
def sNoun (w : Nat) : Nat := fld w 12 12
def sRows (w : Nat) : Nat := fld w 24 8 + 1

/-- A slot is legal: an assigned opcode, reserved bits zero, dataflow 0 or 1, a wire number below 16. -/
def slotLegal (t : SlotTy) (w : W64) : Bool :=
  let op := opc w
  op ≤ t.maxOp && w.toNat &&& t.bits op == w.toNat
  && (t != .op || op == 0 || fld w.toNat 12 4 ≤ 1)
  && (t != .sync || !(op == 3 || op == 4) || sBar w.toNat < 16)

/-- The header and slots are legal (R107 to R109, R117, R129). -/
def clauseLegal (e : CE) (k : Clause) : Bool :=
  k.h 30 2 == 0 && k.h 40 24 == 0 && (e != .tx || k.accLive == 0)
  && k.slots.all (fun p => slotLegal (slotTy e p.1) p.2)
  && !(k.isEnd && (match k.slot 0 with | some w => opc w != 0 | none => false))

/-- Noun handles that a slot names (R238). -/
def slotNouns (t : SlotTy) (w : W64) : List Nat :=
  let op := opc w
  let n := w.toNat
  match t with
  | .load => if op = 0 then [] else [sNoun n]
  | .store => if op = 0 then [] else [sNoun n]
  | .agu => if op = 2 ∨ op = 3 then [fld n 16 12] else []
  | .xfer => if op = 0 then [] else if op = 8 then [fld n 14 12] else if op = 9 then [fld n 26 12]
      else [fld n 14 12, fld n 26 12]
  | _ => []

/-- Packed size of a noun: its bytes when it is dense (R324). -/
def Noun.packed (n : Noun) : Nat := lineBytes n.fmt (n.e 0) * n.e 1 * n.e 2 * n.e 3

/-- Each stride equals the packed size of the dimensions below it (R324). -/
def Noun.dense (n : Noun) : Bool :=
  (List.range 3).all (fun d => n.rank ≤ d + 1 ||
    n.stride.getD d 0 == ((lineBytes n.fmt (n.e 0) * ((List.range d).map (fun i => n.e (i + 1))).foldl (· * ·) 1 : Nat) : Int))

/-- The nouns of a slot meet its pairing rules (R242, R244, R324). -/
def pairingOk (t : SlotTy) (w : W64) (ns : Tbl Noun) : Bool :=
  let op := opc w
  let src := ns.get {} (fld w.toNat 14 12)
  let dst := ns.get {} (fld w.toNat 26 12)
  match t with
  | .agu => op != 3 || (let n := ns.get {} (fld w.toNat 16 12); n.kind == 0 && n.fmt == 10)
  | .xfer =>
    if op = 1 ∨ op = 4 ∨ op = 5 then src.fmt == dst.fmt
    else if op = 2 then src.fmt == dst.fmt && !isMx src.fmt
    else if op = 6 ∨ op = 7 then src.kind == 1
    else if op = 8 ∨ op = 9 then
      let n := if op = 8 then src else dst
      n.dense && !isMx n.fmt && 1 ≤ n.packed && n.packed ≤ 4194304
    else true
  | _ => true

/-! ## Engine faults (R129) -/

/-- The fault record of an engine (R347). -/
def engRec (c : Nat) (e : CE) (y : ClEng) (x : XF) : FltRec :=
  { code := x.code, sub := x.sub, level := x.level, eng := some (engId c (CE.eng e)), q := some y.cmd.q,
    ctx := some y.ctx, seq := y.cmd.seq, pc := y.pc, va := x.va, block := 9, inst := c }

/-- Removes the waiters of a clause engine. -/
def dropWaiter (s : State) (c : Nat) (e : CE) : State :=
  Syn.setWaiters s (s.syn.waiters.filter (fun w => w.eng != engId c (CE.eng e)))

/-- Marks the stream's context as ended on this engine: nothing more issues. -/
def endOnFault (s : State) (c : Nat) (e : CE) (code : Nat) : State :=
  let y := s.eng c e
  let s1 := cmdFault s y.cmd code (some (engId c (CE.eng e)))
  let s2 := dropWaiter s1 c e
  s2.setEng c e { s2.eng c e with faultCause := some code, clause := none, issuing := [], waiting := none, st := .issuing }

/-- An engine fault stops the stream (R129, R22). -/
def engFail (s : State) (c : Nat) (e : CE) (x : XF) : State :=
  let y := s.eng c e
  endOnFault (engineFault s y.fn (engRec c e y x)) c e x.code

/-! ## Fetch (R106, R116, R238) -/

/-- Reads the clause at the engine's program counter and checks its header and slots. -/
def fetchSlots (s : State) (c : Nat) (e : CE) : State × (Clause ⊕ XF) :=
  let y := s.eng c e
  if y.pc % 8 ≠ 0 then (s, .inr illegalXF)
  else match readVa s c y.fn (some y.ctx) y.pc 8 .fetch with
    | (t, .inr x) => (t, .inr x)
    | (t, .inl hb) =>
      let hdr := leNat hb
      let idx := (List.range 8).filter (fun i => bit hdr i)
      if 4096 < y.pc % 4096 + 8 + 8 * idx.length then (t, .inr illegalXF)
      else match readVa t c y.fn (some y.ctx) (y.pc + 8) (8 * idx.length) .fetch with
        | (u, .inr x) => (u, .inr x)
        | (u, .inl sb) =>
          let k : Clause := {
            addr := y.pc
            hdr := BitVec.ofNat 64 hdr
            slots := (List.range idx.length).map (fun j => (idx.getD j 0, BitVec.ofNat 64 (at_ sb (8 * j) 8))) }
          if clauseLegal e k then (u, .inl k) else (u, .inr illegalXF)

/-- Handles of the nouns that a clause names. -/
def Clause.handles (k : Clause) (e : CE) : List Nat := k.slots.flatMap (fun p => slotNouns (slotTy e p.1) p.2)

/-- Reads and checks the clause at the engine's program counter, its nouns resolved (R238). -/
def fetchClause (s : State) (c : Nat) (e : CE) : State × (Clause ⊕ XF) :=
  match fetchSlots s c e with
  | (u, .inr x) => (u, .inr x)
  | (u, .inl k) =>
    let stamp := match e with | .mx => (u.core c).nounMx | .tx => (u.core c).nounTx
    match resolveAll u c (s.eng c e).ctx stamp (k.handles e) {} with
    | (v, .inr x) => (v, .inr x)
    | (v, .inl ns) =>
      if k.slots.all (fun p => pairingOk (slotTy e p.1) p.2 ns) then (v, .inl { k with nouns := ns })
      else (v, .inr illegalXF)

/-- The clause has a wait (R114). -/
def Clause.waits (k : Clause) : Bool :=
  match k.slot 1 with | some w => opc w == 2 || opc w == 4 || opc w == 6 | none => false

/-- The stream goes on: it has not ended, stopped or faulted. -/
def ClEng.live (y : ClEng) : Bool :=
  y.st != .idle && y.st != .parked && !y.ending && y.faultCause.isNone && !y.stopped

/-- The stream stands between clauses (R116). -/
def ClEng.between (y : ClEng) : Bool := y.issuing.isEmpty && (y.clause.isNone || y.done == 0)

/-- The stream may fetch its next clause (R116). -/
def mayFetch (s : State) (y : ClEng) : Bool := s.clocked && y.live && y.clause.isNone && y.issuing.isEmpty && !y.aborting

/-- CLAUSE_FETCH (R116). -/
def execClauseFetch (c : CoreId) (e : CE) (s : State) : Out :=
  if mayFetch s (s.eng c e) then
    match fetchClause s c e with
    | (t, .inr x) => done s (engFail t c e x)
    | (t, .inl k) => done s (t.setEng c e { t.eng c e with clause := some k, waitOk := !k.waits, done := 0, aguSet := [] })
  else done s s

/-! ## Landing (R121 to R123) -/

/-- Adds a write in flight: after those that land at its cycle or earlier (R123). -/
def insLand (l : List Land) (x : Land) : List Land :=
  l.takeWhile (fun y => y.at_ ≤ x.at_) ++ x :: l.dropWhile (fun y => y.at_ ≤ x.at_)

def ClEng.fly (y : ClEng) (x : Land) : ClEng := { y with inflight := insLand y.inflight x }

/-- The fields of a generator that AGU opcode `op` writes (R110, R118). -/
def Agu.take (g v : Agu) (op : Nat) : Agu :=
  if op = 1 ∨ op = 2 then { g with index := false, start := v.start, addr := v.addr, pos0 := 0 }
  else if op = 3 then { g with index := true, idx := v.idx, rowBase := v.rowBase, rowStride := v.rowStride }
  else if op = 4 then { g with step0 := v.step0, count0 := v.count0 }
  else if op = 5 then { g with step1 := v.step1 }
  else if op = 6 then (if g.index then { g with pos := v.pos } else { g with addr := v.addr })
  else { g with addr := g.start, pos0 := 0, pos := 0 }

/-- Buffer rows loaded (R137): the rows of a load take its format. -/
def OpBuf.load (o : OpBuf) (row fmt : Nat) (lanes : List (Nat × W16)) : OpBuf :=
  { fmt := some fmt, rowFmt := o.rowFmt.put 0 row (fmt + 1),
    lanes := lanes.foldl (fun t l => t.put 0 (512 * row + l.1) l.2) o.lanes }

/-- DRAINs in flight read rows from a bank that has just landed at cycle `at_` (R121, R122). -/
def recapture (y : ClEng) (at_ bank : Nat) (b : Bank) : ClEng :=
  { y with drains := y.drains.map (fun d => if d.bank = bank then
      { d with cap := (List.range d.rows).map (fun i =>
          if at_ ≤ d.issued + i then (b.isInt, b.row i) else d.cap.getD i (false, [])) } else d) }

/-- A bank's new content lands. -/
def landBank (s : State) (c at_ bank : Nat) (b : Bank) : State :=
  let x := s.core c
  s.setCore c { x with banks := x.banks.put {} bank b, mx := recapture x.mx at_ bank b }

/-- Integer saturation of a bank (R144). -/
def noteSat (s : State) (c bank : Nat) (r : CmdRef) : State :=
  modCmd (wrF s (coreA c 0x100) bank 1 1) r (fun k => { k with saturated := true })

/-- One write lands in its resource. -/
def landOne (s : State) (c : Nat) (e : CE) (l : Land) : State :=
  let y := s.eng c e
  let x := s.core c
  match l.w with
  | .scal d v => if d = 0 then s else s.setEng c e { y with scal := y.scal.put 0 d v }
  | .gen n op v => s.setEng c e { y with ag := y.ag.put {} n ((y.ag.get {} n).take v op) }
  | .lc i v => s.setEng c e { y with lc := y.lc.put 0 i v }
  | .buf b r f lanes => s.setCore c { x with bufs := x.bufs.put {} b ((x.bufs.get {} b).load r f lanes) }
  | .held r f lanes => s.setCore c { x with heldRows := x.heldRows.load r f lanes }
  | .shift rf lanes => s.setCore c { x with heldRows := { x.heldRows with rowFmt := rf, lanes := lanes } }
  | .zero b => landBank s c l.at_ b {}
  | .mma id => match y.mmas.find? (fun r => r.id == id) with
    | none => s
    | some r =>
      let v := mmaBank r
      let s0 := monEvent s 5 c (Nat.min r.k r.rows)
      let s1 := landBank (s0.setEng c e { y with mmas := y.mmas.filter (fun r => r.id != id) }) c l.at_ r.bank v.1
      if v.2 then noteSat s1 c r.bank y.cmd else s1
  | .ls off bs => match lsAddr s c y.ctx off bs.length with
    | some pa => writePa s pa bs
    | none => s
  | .drain id i => match y.drains.find? (fun d => d.id == id) with
    | none => s
    | some d =>
      let r := d.cap.getD i (false, [])
      let s1 := (drainRow s (.ls c y.ctx) d.noun d.base i r.1 r.2).1
      if i + 1 < d.rows then s1
      else s1.setEng c e { s1.eng c e with drains := (s1.eng c e).drains.filter (fun d => d.id != id) }

/-- Lands `n` writes at most, earliest first, that land at or before cycle `t`. -/
def landUntil (s : State) (c : Nat) (e : CE) (t : Nat) : Nat → State
  | 0 => s
  | n + 1 => match (s.eng c e).inflight with
    | [] => s
    | l :: r => if l.at_ ≤ t then landUntil (landOne (s.setEng c e { s.eng c e with inflight := r }) c e l) c e t n else s

/-- Lands everything that is due at cycle `t`. -/
def landDue (s : State) (c : Nat) (e : CE) (t : Nat) : State := landUntil s c e t (s.eng c e).inflight.length

/-- Lands everything. -/
def landAll (s : State) (c : Nat) (e : CE) : State :=
  let l := (s.eng c e).inflight
  l.foldl (fun t x => landOne t c e x) (s.setEng c e { s.eng c e with inflight := [] })

/-! ## Releases (R115) -/

/-- Performs a release operation. -/
def relPerform (s : State) (c : Nat) (e : CE) (r : RelWait) : State :=
  let y := s.eng c e
  match r.r with
  | .sig n v => sendSignal s { ctx := y.ctx, conj := n, n := v, src := sigSrc c (CE.eng e) y.ctx r.pc }
  | .bw w => match bwArriveOp s c y.ctx w with
    | (t, some g) => noteArrival t (engId c (CE.eng e)) 0 (.wire w) g
    | (t, none) => t
  | .gb g m => match gbPerform s c y.ctx g m (engId c (CE.eng e)) 0 with
    | (t, true) => t
    | (t, false) => t.setEng c e { t.eng c e with gbHeld := true }

/-- The unit takes no arrivals while a dump runs (R273); a signal is only on its way. -/
def relBlocked (s : State) (r : RelWait) : Bool := match r.r with | .sig _ _ => false | _ => s.syn.dumpBusy

/-- Performs the waiting release operations in order, as far as they are ready. -/
def flushRel (s : State) (c : Nat) (e : CE) : List RelWait → State
  | [] => s.setEng c e { s.eng c e with releases := [] }
  | r :: l =>
    if relReady s c (s.eng c e) r && !(s.eng c e).gbHeld && !relBlocked s r then flushRel (relPerform s c e r) c e l
    else s.setEng c e { s.eng c e with releases := r :: l }

def flush (s : State) (c : Nat) (e : CE) : State := flushRel s c e (s.eng c e).releases

/-! ## One execution (R113, R114, R118, R120) -/

/-- Advance of a generator after an execution (R118, R119). -/
def Agu.advance (g : Agu) : Agu :=
  if g.index then { g with pos := g.pos + 1 }
  else
    let p := g.pos0 + 1
    if g.count0 ≠ 0 ∧ p = g.count0 then { g with pos0 := 0, addr := g.addr + g.step1 }
    else { g with pos0 := p, addr := g.addr + g.step0 }

/-- The end of an execution: generators advance (R120), and after the last one the next clause follows. -/
def finishExec (s : State) (c : Nat) (e : CE) : State :=
  let y := s.eng c e
  match y.clause with
  | none => s
  | some k =>
    let ag := (List.range 8).foldl (fun (t : Tbl Agu) n =>
      if bit k.agstep n && !y.aguSet.contains n then t.put {} n (t.get {} n).advance else t) y.ag
    let y1 := { y with ag := ag, aguSet := [], done := y.done + 1 }
    if y1.done < k.execs then s.setEng c e { y1 with next := y.now + k.interval }
    else
      s.setEng c e { y1 with
        clause := none, done := 0, waitOk := false, unchecked := false, taken := false, branch := none
        pc := y.branch.getD (k.addr + k.len)
        next := y.now + if y.taken then 3 else 1
        ending := k.isEnd }

/-- The slots that act in an execution, in acting order: slots 2 to 7, and with the last execution SIG or an arrival,
then CTRL (R114). -/
def actingSlots (k : Clause) (last : Bool) : List (Nat × W64) :=
  k.slots.filter (fun p => 2 ≤ p.1 && opc p.2 != 0)
  ++ (if last then k.slots.filter (fun p => p.1 == 1 && (opc p.2 == 1 || opc p.2 == 3 || opc p.2 == 5))
      ++ k.slots.filter (fun p => p.1 == 0 && opc p.2 != 0) else [])

def ClEng.sc (y : ClEng) (n : Nat) : W64 := if n = 0 then 0 else y.scal.get 0 n
def ClEng.gen (y : ClEng) (n : Nat) : Agu := y.ag.get {} n

/-- Local-store offset of LDS or STS. -/
def lsOff (y : ClEng) (w : Nat) : Nat := (y.sc (fld w 13 5) + sImm64 w).toNat

/-- The range [a, a + n) of the window is readable. -/
def lsCheck (s : State) (c x a n : Nat) (read : Bool) : Option XF :=
  match lsAddr s c x a n with
  | none => some { sub := 8, va := a }
  | some pa => if read && poisoned s pa n then some { code := 3, va := a } else none

/-- The first failing range of a list. -/
def firstBad (l : List (Option XF)) : Option XF := l.foldl (fun a b => match a with | some x => some x | none => b) none

/-- Ranges of the window that a DRAIN of `rows` rows writes: elements and scales of each row. -/
def drainSpans (n : Noun) (base rows : Nat) : List (Nat × Nat) :=
  (List.range (Nat.min rows (n.e 1))).flatMap (fun i =>
    let a := n.line base i 0 0
    let k := Nat.min 256 (n.e 0)
    (a, lineBytes n.fmt k) :: (if isMx n.fmt then [(wrapA ((a : Int) + n.scaleOff), (k + 31) / 32)] else []))

/-- Ranges of the window that a load reads. -/
def loadSpans (n : Noun) (base rows : Nat) : List (Nat × Nat) :=
  let k := Nat.min (n.e 0) (kVals n.fmt rows)
  if k = 0 then [] else
  (List.range (Nat.min 256 (n.e 1))).flatMap (fun m =>
    let a := n.line base m 0 0
    (a, lineBytes n.fmt k) :: (if isMx n.fmt then [(wrapA ((a : Int) + n.scaleOff), (k + 31) / 32)] else []))

/-- The first `rows` rows of a bank hold a poisoned element, and no MMA on its way replaces it (R231, R232). -/
def bankPoison (s : State) (c : Nat) (y : ClEng) (b rows : Nat) : Bool :=
  !y.mmas.any (fun r => r.bank == b) && ((s.core c).banks.get {} b).bad.any (fun i => i < 256 * rows)

/-- What stops one slot before the clause issues (R112, R119, R129, R242): an illegal generator mode, an access outside
the window, poison. -/
def slotFault (s : State) (c : Nat) (y : ClEng) (k : Clause) (t : SlotTy) (w : W64) : Option XF :=
  let op := opc w
  let n := w.toNat
  let ls (read : Bool) (l : List (Nat × Nat)) : Option XF := firstBad (l.map (fun p => lsCheck s c y.ctx p.1 p.2 read))
  if op = 0 then none else
  match t with
  | .load =>
    let g := y.gen (sAg n)
    if g.index then some illegalXF else ls true (loadSpans (k.nouns.get {} (sNoun n)) g.addr.toNat (sRows n))
  | .store =>
    let g := y.gen (sAg n)
    if g.index then some illegalXF
    else if bankPoison s c y (fld n 11 1) (sRows n) then some { code := 3 }
    else ls false (drainSpans (k.nouns.get {} (sNoun n)) g.addr.toNat (sRows n))
  | .op =>
    let b := fld n 8 1
    if op = 2 ∧ bankPoison s c y b 256 then some { code := 3 } else none
  | .scalar => if op = 11 then ls true [(lsOff y n, 8)] else if op = 12 then ls false [(lsOff y n, 8)] else none
  | .xfer =>
    let src := y.gen (fld n 8 3)
    let dst := y.gen (fld n 11 3)
    let srcIdx := op = 4 ∨ op = 6 ∨ op = 7
    let remote := if op = 8 then dst.addr else src.addr
    if src.index ≠ decide srcIdx ∨ dst.index ≠ decide (op = 5) then some illegalXF
    else if (op = 8 ∨ op = 9) ∧ bit remote.toNat 62 then some illegalXF
    else none
  | _ => none

/-! ## Hazard-watch (R130, R131) -/

/-- Hazard-watch is in effect. -/
def hwOn (s : State) (c : Nat) (e : CE) : Bool :=
  s.charter.dbgHazard && rdB s (coreA c (match e with | .mx => 0x0C | .tx => 0x4C)) 0

/-- Reads of one slot issued at `t`: resource, range and cycle (R121). A held row is two halves. -/
def slotReads (y : ClEng) (k : Clause) (ty : SlotTy) (w : W64) (t : Nat) : List HzW :=
  let op := opc w
  let n := w.toNat
  let sc (r : Nat) : List HzW := if r = 0 then [] else [⟨r, 0, 1, t⟩]
  let gen (g : Nat) : HzW := ⟨0x20 + g, 0, 1, t⟩
  match ty with
  | .ctrl => if op = 2 ∨ op = 3 then sc (fld n 8 5) else if op = 4 then [⟨0x28 + fld n 13 2, 0, 1, t⟩] else []
  | .agu => if op = 1 ∨ op = 3 ∨ op = 6 then sc (fld n 11 5) else []
  | .load => if op = 0 then [] else gen (sAg n) ::
      (loadSpans (k.nouns.get {} (sNoun n)) (y.gen (sAg n)).addr.toNat (sRows n)).map (fun p => ⟨0x40, p.1, p.1 + p.2, t⟩)
  | .op =>
    if op = 1 ∨ op = 2 then
      (List.range (fld n 16 8 + 1)).flatMap (fun j =>
        [if fld n 12 4 = 1 then ⟨0x34, 2 * j, 2 * j + 1, t + j⟩ else ⟨0x30 + fld n 9 1, j, j + 1, t + j⟩,
         if fld n 12 4 = 1 then ⟨0x34, 2 * j + 1, 2 * j + 2, t + j⟩ else ⟨0x30 + fld n 9 1, j, j + 1, t + j⟩,
         ⟨0x32 + fld n 10 1, j, j + 1, t + j⟩])
      ++ (if op = 2 then [⟨0x38 + fld n 8 1, 0, 256, t⟩] else [])
    else if op = 3 then [⟨0x34, 0, 512, t⟩] else []
  | .store => if op = 0 then [] else gen (sAg n) ::
      (List.range (sRows n)).map (fun i => ⟨0x38 + fld n 11 1, i, i + 1, t + i⟩)
  | .xfer => if op = 0 then [] else [gen (fld n 8 3), gen (fld n 11 3)]
  | .scalar =>
    let a := fld n 13 5
    let b := fld n 18 5
    if op = 0 ∨ op = 9 ∨ op = 14 then []
    else if op = 10 then sc (fld n 8 5)
    else if op = 11 then sc a ++ [⟨0x40, lsOff y n, lsOff y n + 8, t + 2⟩]
    else if op = 13 then [gen (a % 8)]
    else sc a ++ sc b
  | .sync => []

/-- Writes of one slot issued at `t`: resource, range and landing cycle. -/
def slotWrites (y : ClEng) (k : Clause) (ty : SlotTy) (w : W64) (t : Nat) : List HzW :=
  let op := opc w
  let n := w.toNat
  match ty with
  | .ctrl => if op = 4 ∨ op = 5 then [⟨0x28 + fld n 13 2, 0, 1, t + 1⟩] else []
  | .agu => if op = 0 then [] else [⟨0x20 + sAg n, 0, 1, t + 2⟩]
  | .load =>
    let b := fld n 11 1
    let z := rpk (k.nouns.get {} (sNoun n)).fmt
    (List.range (sRows n / z * z)).filterMap (fun i =>
      if op = 1 then some ⟨0x30 + b, i, i + 1, t + 12 + i⟩
      else if op = 2 then some ⟨0x32 + b, i, i + 1, t + 12 + i⟩
      else if op = 3 then some ⟨0x34, 2 * i + b, 2 * i + b + 1, t + 16 + i⟩ else none)
  | .op =>
    let b := 0x38 + fld n 8 1
    if op = 1 ∨ op = 2 then [⟨b, 0, 256, t + fld n 16 8 + 1 + 263⟩]
    else if op = 3 then [⟨0x34, 0, 512, t + 2⟩]
    else if op = 4 then [⟨b, 0, 256, t + 2⟩] else []
  | .store =>
    if op = 0 then [] else
    let noun := k.nouns.get {} (sNoun n)
    let base := (y.gen (sAg n)).addr.toNat
    (List.range (Nat.min (sRows n) (noun.e 1))).flatMap (fun i =>
      (drainSpans { noun with ext := [noun.e 0, 1, 1, 1] } (noun.line base i 0 0) 1).map
        (fun p => ⟨0x40, p.1, p.1 + p.2, t + 20 + i⟩))
    ++ (if op = 2 then [⟨0x38 + fld n 11 1, 0, 256, t + 257⟩] else [])
  | .scalar =>
    let d := fld n 8 5
    if op = 12 then [⟨0x40, lsOff y n, lsOff y n + 8, t + 6⟩]
    else if op = 0 ∨ d = 0 then []
    else [⟨d, 0, 1, t + if op = 8 then 3 else if op = 11 then 14 else 1⟩]
  | _ => []

/-- The generators that an execution with the acting slots `l` advances (R118, R120). -/
def advGens (k : Clause) (l : List (Nat × W64)) : List Nat :=
  (List.range 8).filter (fun g => bit k.agstep g && !l.any (fun p => (p.1 == 2 || p.1 == 3) && opc p.2 != 0 && sAg p.2.toNat == g))

/-- Their accesses at `t`: each is read, and written before the next execution (R121): by t + 1 (DEDUCED: log 115). -/
def advReads (k : Clause) (l : List (Nat × W64)) (t : Nat) : List HzW := (advGens k l).map (fun g => ⟨0x20 + g, 0, 1, t⟩)
def advWrites (k : Clause) (l : List (Nat × W64)) (t : Nat) : List HzW := (advGens k l).map (fun g => ⟨0x20 + g, 0, 1, t + 1⟩)

/-- Two accesses touch the same resource. -/
def HzW.meets (a b : HzW) : Bool := a.res == b.res && a.lo < b.hi && b.lo < a.hi

/-- A failed check: kind, resource and cycles. -/
def hzFail (hz : List HzW) (reads writes : List HzW) : Option (Nat × Nat × Nat) :=
  let r := reads.filterMap (fun a => (hz.find? (fun w => w.meets a && a.at_ < w.at_)).map (fun w => (0, a.res, w.at_ - a.at_)))
  let w := writes.filterMap (fun a => (hz.find? (fun w => w.meets a && a.at_ ≤ w.at_)).map (fun w => (1, a.res, w.at_ + 1 - a.at_)))
  match r with
  | x :: _ => some x
  | [] => w.head?

/-- The first slot of an execution at `t` whose check fails, with what failed. An advance is no slot's access: it counts
as slot 0 (DESIGN CHOICE: log 115). -/
def hzCheck (y : ClEng) (k : Clause) (e : CE) (l : List (Nat × W64)) (t : Nat) : Option (Nat × Nat × Nat × Nat) :=
  let slots := l.foldl (fun a p => match a with
    | some x => some x
    | none => (hzFail y.hz (slotReads y k (slotTy e p.1) p.2 t) (slotWrites y k (slotTy e p.1) p.2 t)).map (fun f => (p.1, f)))
    none
  match slots with
  | some x => some x
  | none => (hzFail y.hz (advReads k l t) (advWrites k l t)).map (fun f => (0, f))

/-- The tracked writes after an execution at `t`: those that have not landed, with the new ones; of the local store the
latest 64 (R130). -/
def hzTrack (y : ClEng) (k : Clause) (e : CE) (l : List (Nat × W64)) (t : Nat) : List HzW :=
  let all := l.flatMap (fun p => slotWrites y k (slotTy e p.1) p.2 t) ++ advWrites k l t ++ y.hz.filter (fun w => t < w.at_)
  all.filter (fun w => w.res != 0x40) ++ (all.filter (fun w => w.res == 0x40)).take 64

/-- Parks the engine (R131): TIMING_HAZARD is raised and CORE_HAZARD_INFO filled. -/
def park (s : State) (c : Nat) (e : CE) (slot kind res short : Nat) : State :=
  let s1 := engineFault s (s.eng c e).fn (engRec c e (s.eng c e) { code := 0x12 })
  let s2 := wr s1 (coreA c (match e with | .mx => 0x10 | .tx => 0x50))
    (BitVec.ofNat 32 (slot + kind * 8 + res * 256 + Nat.min short 0xFFFF * 65536))
  s2.setEng c e { s2.eng c e with st := .parked, parkedAt := (s2.core c).cycles }

/-- The first issue of a command is noted (R356 sources 6 and 7). -/
def noteIssue (s : State) (r : CmdRef) : State :=
  match findCmd s r with
  | some k => if k.firstIssue.isNone then
      modCmd (monSample s false 6 r.fn (s.time - (s.queue r.fn r.q).doorAt)) r (fun k => { k with firstIssue := some s.time })
    else s
  | none => s

/-- RESULT_LAND (R121): the earliest result in flight lands at its cycle: before the next issue, or where a clause
boundary with a hold lies between its issue and the next read (R122). -/
def execResultLand (c : CoreId) (e : CE) (s : State) : Out :=
  let y := s.eng c e
  match y.inflight with
  | [] => done s s
  | l :: r =>
    if s.clocked && y.issuing.isEmpty && (l.at_ ≤ y.next || y.between || l.issued < y.first || !y.live) then
      done s (flush (landOne (s.setEng c e { y with inflight := r }) c e l) c e)
    else done s s

/-! ## Slot actions -/

/-- The slot at the head of the issued execution, when it is of type `ty` with opcode `op`: the engine without it, its
index and its word. None where the core's clock has stopped (R391). -/
def headSlot (s : State) (c : Nat) (e : CE) (ty : SlotTy) (op : Nat) : Option (ClEng × Nat × Nat) :=
  let y := s.eng c e
  match y.issuing with
  | [] => none
  | (i, w) :: r => if slotTy e i = ty ∧ opc w = op ∧ s.clocked then some ({ y with issuing := r }, i, w.toNat) else none

/-- After a slot has acted, the execution ends when it was the last. -/
def slotDone (s : State) (c : Nat) (e : CE) : State := if (s.eng c e).issuing.isEmpty then finishExec s c e else s

/-- A row of the clause engines: the head slot acts by `act` on the engine. -/
def slotRow (c : Nat) (e : CE) (ty : SlotTy) (op : Nat) (s : State) (act : ClEng → Nat → Nat → ClEng) : Out :=
  match headSlot s c e ty op with
  | none => done s s
  | some (y, i, w) => done s (slotDone (s.setEng c e (act y i w)) c e)

/-- A row whose slot acts on the state; the engine without the slot is already in it. -/
def slotRowS (c : Nat) (e : CE) (ty : SlotTy) (op : Nat) (s : State) (act : State → ClEng → Nat → Nat → State) : Out :=
  match headSlot s c e ty op with
  | none => done s s
  | some (y, i, w) => done s (slotDone (act (s.setEng c e y) y i w) c e)

/-- Noun `h` of the clause that is issuing. -/
def ClEng.noun (y : ClEng) (h : Nat) : Noun := match y.clause with | some k => k.nouns.get {} h | none => {}

/-! ## Hazard rows (R131) -/

/-- resume of CORE_HAZARD_CTRL. The time parked since a preemption request does not count for R128. -/
def hazardResumeOp (s : State) (c : Nat) (e : CE) : State :=
  let y := s.eng c e
  if y.st = .parked then
    s.setEng c e { y with st := .issuing, unchecked := true, 
                          stopReqAt := y.stopReqAt + ((s.core c).cycles - Nat.max y.parkedAt y.stopReqAt) }
  else s

/-- HAZARD_RESUME (R131). -/
def execHazardResume (c : CoreId) (e : CE) (s : State) : Out := done s (hazardResumeOp s c e)

/-- kill of CORE_HAZARD_CTRL. -/
def hazardKillOp (s : State) (c : Nat) (e : CE) : State :=
  if (s.eng c e).st = .parked then endOnFault s c e 0x12 else s

/-- HAZARD_KILL (R131, R129). -/
def execHazardKill (c : CoreId) (e : CE) (s : State) : Out := done s (hazardKillOp s c e)

/-! ## Stop points (R124 to R128) -/

/-- A group arrival that is held for a tracker goes back to the stream, which performs it again. -/
def takeBackGb (s : State) (c : Nat) (e : CE) : State :=
  let id := engId c (CE.eng e)
  let y := s.eng c e
  let held := s.syn.heldArr.filter (fun h => h.eng == id)
  let s1 := { s with syn := { s.syn with heldArr := s.syn.heldArr.filter (fun h => h.eng != id) } }
  s1.setEng c e { y with gbHeld := false
                         releases := held.map (fun h => ⟨.gb h.group h.mask, 0, [], y.pc⟩) ++ y.releases }

/-- The MX state that a stop point does not save: operand buffers, held rows, banks whose acc_live bit is clear (R125). -/
def dropDead (s : State) (c live : Nat) : State :=
  let x := s.core c
  s.setCore c { x with bufs := {}, heldRows := {}, banks := ⟨x.banks.entries.filter (fun b => bit live b.1)⟩ }

/-- STOP_TIMEOUT (R128). -/
def execStopTimeout (c : CoreId) (e : CE) (s : State) : Out :=
  let y := s.eng c e
  if s.clocked && y.live && y.stopPending && 16384 ≤ (s.core c).cycles - y.stopReqAt then
    done s (engFail (inc16 s (coreA c (match e with | .mx => 0x14 | .tx => 0x54))) c e { code := 0x11 })
  else done s s

/-! ## Stream end (R105) -/

/-- The stream has nothing more to issue. -/
def ClEng.finished (y : ClEng) : Bool :=
  y.st != .idle && y.issuing.isEmpty && !y.stopped
  && (y.ending || y.faultCause.isSome || (y.aborting && (y.between || y.st == .parked)))

/-- The engine is idle and holds no state of the stream. -/
def clearEng (s : State) (c : Nat) (e : CE) : State :=
  let x := s.core c
  match e with
  | .mx => s.setCore c { x with mx := {}, bufs := {}, heldRows := {}, banks := {} }
  | .tx => s.setCore c { x with tx := {} }

/-- STREAM_END (R105, R129, R300): results, release operations and transfers are done, and the command ends on this
engine. A stream that faulted or is aborted gives up an arrival held for a tracker. -/
def execStreamEnd (c : CoreId) (e : CE) (s : State) : Out :=
  let y := s.eng c e
  if !s.clocked || !y.finished || !y.inflight.isEmpty || (e == .tx && (s.core c).xfers.any (fun x => x.cmd == y.cmd)) then done s s
  else
    let cut := y.faultCause.isSome || y.aborting
    let s1 := if cut then
        let t := dropWaiter s c e
        let t1 := { t with syn := { t.syn with heldArr := t.syn.heldArr.filter (fun h => h.eng != engId c (CE.eng e)) } }
        flush (t1.setEng c e { t1.eng c e with gbHeld := false }) c e
      else flush s c e
    let y1 := s1.eng c e
    if !(y1.releases.isEmpty && !y1.gbHeld) then done s s1
    else
      let outcome := match y.faultCause with | some k => k | none => if y.aborting then 0xFF else 0
      let tag := match findCmd s1 y.cmd with | some k => k.tag | none => 0
      let s2 := trcEng s1 2 c (CE.eng e) y.ctx y.cmd tag outcome
      let x := s2.core c
      let s3 := s2.setCore c { x with pools := x.pools.filter (fun p => p.cmd != y.cmd) }
      done s (refresh (clearEng (cmdEnd s3 y.cmd c) c e) y.fn)

end Sys2Proof.Machine
end

