-- ==== Sys2Proof/Machine/Tx.lean ====
section
/-! DEFINITION. TX transfers of opcodes 0x01 to 0x07 (R242 to R249) and their completion (R111, R115, R326). A transfer
takes effect when its slot acts; one that reads host memory, and every later one of its stream until that has come back,
takes effect when it completes, in issue order (R243). TRANSFER_COMPLETE makes a transfer complete and signals. -/

namespace Sys2Proof.Machine

/-! ## Slot fields (R109) -/

def xSrcAg (w : Nat) : Nat := fld w 8 3
def xDstAg (w : Nat) : Nat := fld w 11 3
def xSrc (w : Nat) : Nat := fld w 14 12
def xDst (w : Nat) : Nat := fld w 26 12
def xConj (w : Nat) : Nat := fld w 38 9
def xSig (w : Nat) : Bool := bit w 47
def xPort (w : Nat) : Nat := fld w 48 4

/-- Space of a TX engine's addresses (R112). -/
def txSp (c : Nat) (y : ClEng) : Sp := .va c y.fn y.ctx

/-! ## Lines -/

/-- One line to write: address, element patterns, and the scale codes of its blocks. -/
structure OutLine where
  addr : Nat
  pats : List Nat
  scales : List Nat
deriving DecidableEq, Repr

/-- Coordinates 1 to 3 inside both extents. -/
def lineIdx (e1 e2 e3 : Nat) : List (Nat × Nat × Nat) :=
  (List.range e3).flatMap (fun i3 => (List.range e2).flatMap (fun i2 => (List.range e1).map (fun i1 => (i1, i2, i3))))

/-- A fold that stops at the first failure. -/
def foldX {α β : Type} (f : State → β → α → State × (β ⊕ XF)) (l : List α) (s : State) (b : β) : State × (β ⊕ XF) :=
  l.foldl (fun r a => match r with
    | (t, .inr e) => (t, .inr e)
    | (t, .inl b) => f t b a) (s, .inl b)

/-- The first `k` elements of the line at `a`, with scales. -/
def takeLine (s : State) (p : Sp) (n : Noun) (a k : Nat) : State × (List (Nat × Nat) ⊕ XF) := readLine s p n a k

/-- Scale codes of the blocks of a line read with scales. -/
def blockScales (l : List (Nat × Nat)) : List Nat := ((blocks32 (l.length / 32 + 1) l)).map (fun b => (b.headD (0, 0)).2)

/-- A line copied as bits, at `a`. -/
def bitLine (a : Nat) (l : List (Nat × Nat)) : OutLine := { addr := a, pats := l.map (·.1), scales := blockScales l }

/-- Writes lines in order; what lies before the first failure is written. -/
def putLines (s : State) (p : Sp) (n : Noun) : List OutLine → State × Option XF
  | [] => (s, none)
  | o :: r => match writeElems s p n o.addr o.pats with
    | (t, some e) => (t, some e)
    | (t, none) => match writeScales t p n o.addr o.scales with
      | (u, some e) => (u, some e)
      | (u, none) => putLines u p n r

/-- Writes converted lines in order. -/
def putConv (s : State) (p : Sp) (n : Noun) : List (Nat × List W32) → State × Option XF
  | [] => (s, none)
  | o :: r => match writeConv s p n o.1 o.2 with
    | (t, some e) => (t, some e)
    | (t, none) => putConv t p n r

/-- An element converted: decode(source) x s_dst, rounded to FP32; an integer source is converted to FP32 first (R242). -/
def convElem (src : Noun) (sDst : W32) (v : Nat × Nat) : W32 :=
  if isIntFmt src.fmt then mulF32 (elemF32 src v) sDst
  else toF32 ((decodeElem src.fmt v.1 v.2).mul (ofF32 sDst))

/-! ## Indices (R119, R244, R245) -/

/-- The index at position `pos` of an index tensor; 0xFFFF_FFFF past its end. -/
def readIndex (s : State) (p : Sp) (n : Noun) (pos : Nat) : State × (Nat ⊕ XF) :=
  if n.count ≤ pos then (s, .inl 0xFFFFFFFF)
  else
    let (i0, i1, i2, i3) := n.coords pos
    match readSp s p (wrapA ((n.line n.base i1 i2 i3 : Nat) + 4 * i0)) 4 with
    | (t, .inl b) => (t, .inl (leNat b))
    | (t, .inr e) => (t, .inr e)

/-- Row address of an index (R119). -/
def rowAddr (g : Agu) (x : Nat) : Nat := (g.rowBase + BitVec.ofNat 64 x * g.rowStride).toNat

/-- An index is bad (R245). -/
def badIndex (x rows : Nat) : Bool := x == 0xFFFFFFFF || rows ≤ x

/-- The sketch slot that a lookup of function `f` in noun `n` counts in (R249). -/
def sketchOf (s : State) (f : Nat) (n : Noun) : Option Nat :=
  if n.sketchOn && embOwner s n.sketch == some f then some n.sketch else none

/-- A dropped index (R245, R342). -/
def dropIndex (s : State) (f : Nat) (slot : Option Nat) : State :=
  let s1 := rasCount (inc16 s (fpA f 0x30814)) 0x48
  match slot with
  | some k => s1.setSk k { s1.sk k with dropped := Nat.min ((s1.sk k).dropped + 1) 0xFFFF }
  | none => s1

/-! ## Bodies of the transfers -/

/-- What a transfer needs: the address space, both nouns and generators, and the engine. -/
structure XOp where
  p : Sp
  src : Noun
  dst : Noun
  sg : Agu
  dg : Agu

/-- COPY (R242). -/
def copyBody (o : XOp) (s : State) : State × Option XF :=
  let m (d : Nat) : Nat := Nat.min (o.src.e d) (o.dst.e d)
  match foldX (fun t (l : List OutLine) (i : Nat × Nat × Nat) =>
      match takeLine t o.p o.src (o.src.line o.sg.addr.toNat i.1 i.2.1 i.2.2) (m 0) with
      | (u, .inl v) => (u, .inl (l ++ [bitLine (o.dst.line o.dg.addr.toNat i.1 i.2.1 i.2.2) v]))
      | (u, .inr e) => (u, .inr e)) (lineIdx (m 1) (m 2) (m 3)) s [] with
  | (t, .inr e) => (t, some e)
  | (t, .inl l) => putLines t o.p o.dst l

/-- Coordinates 1 to 3 of line `j` in linear order. -/
def Noun.lineAt (n : Noun) (base j : Nat) : Nat :=
  n.line base (j % n.e 1) (j / n.e 1 % n.e 2) (j / (n.e 1 * n.e 2))

/-- RESHAPE (R242). -/
def reshapeBody (o : XOp) (s : State) : State × Option XF :=
  let cnt := Nat.min o.src.count o.dst.count
  let w := o.src.e 0
  match foldX (fun t (l : List Nat) (j : Nat) =>
      match takeLine t o.p o.src (o.src.lineAt o.sg.addr.toNat j) (Nat.min w (cnt - j * w)) with
      | (u, .inl v) => (u, .inl (l ++ v.map (·.1)))
      | (u, .inr e) => (u, .inr e)) (List.range ((cnt + w - 1) / w)) s [] with
  | (t, .inr e) => (t, some e)
  | (t, .inl l) =>
    let d := o.dst.e 0
    putLines t o.p o.dst ((List.range ((cnt + d - 1) / d)).map (fun j =>
      { addr := o.dst.lineAt o.dg.addr.toNat j, pats := (l.drop (j * d)).take d, scales := [] }))

/-- CONVERT (R242). -/
def convertBody (o : XOp) (s : State) : State × Option XF :=
  let m (d : Nat) : Nat := Nat.min (o.src.e d) (o.dst.e d)
  match foldX (fun t (l : List (Nat × List W32)) (i : Nat × Nat × Nat) =>
      match takeLine t o.p o.src (o.src.line o.sg.addr.toNat i.1 i.2.1 i.2.2) (m 0) with
      | (u, .inl v) => (u, .inl (l ++ [(o.dst.line o.dg.addr.toNat i.1 i.2.1 i.2.2, v.map (convElem o.src o.dst.scale))]))
      | (u, .inr e) => (u, .inr e)) (lineIdx (m 1) (m 2) (m 3)) s [] with
  | (t, .inr e) => (t, some e)
  | (t, .inl l) => putConv t o.p o.dst l

/-- One row copied as bits from `a` to `b`. -/
def rowCopy (o : XOp) (s : State) (a b : Nat) : State × Option XF :=
  match takeLine s o.p o.src a (Nat.min (o.src.e 0) (o.dst.e 0)) with
  | (t, .inr e) => (t, some e)
  | (t, .inl v) => putLines t o.p o.dst [bitLine b v]

/-- GATHER (R242, R245). -/
def gatherBody (f : Nat) (o : XOp) (s : State) : State × Option XF :=
  match readIndex s o.p o.sg.idx o.sg.pos.toNat with
  | (t, .inr e) => (t, some e)
  | (t, .inl x) =>
    if badIndex x (o.src.e 1) then (dropIndex t f none, none)
    else rowCopy o t (rowAddr o.sg x) o.dg.addr.toNat

/-- SCATTER (R242, R245). -/
def scatterBody (f : Nat) (o : XOp) (s : State) : State × Option XF :=
  match readIndex s o.p o.dg.idx o.dg.pos.toNat with
  | (t, .inr e) => (t, some e)
  | (t, .inl x) =>
    if badIndex x (o.dst.e 1) then (dropIndex t f none, none)
    else rowCopy o t o.sg.addr.toNat (rowAddr o.dg x)

/-! ## Embedding lookups (R245 to R249) -/

/-- Multipliers of the sketch rows (R249). -/
def sketchMul (r : Nat) : Nat :=
  if r = 0 then 0x6C8E9CF5 else if r = 1 then 0xB5A31D27 else if r = 2 then 0x3F4A7C15 else 0xD1B54A33

/-- A miss counted in the four rows of a sketch slot (R249). -/
def Sketch.miss (k : Sketch) (x : Nat) : Sketch :=
  { k with cnt := (List.range 4).foldl (fun (t : Tbl Nat) r =>
      let i := 2048 * r + x * sketchMul r % 2 ^ 32 / 2 ^ 21
      t.put 0 i (Nat.min (t.get 0 i + 1) 0xFFFFFFFF)) k.cnt }

/-- Set of an index in the preserve (R246). -/
def presSet (n : Noun) (x : Nat) : Nat := if n.log2Sets = 0 then 0 else x * 0x9A3D5E2B % 2 ^ 32 / 2 ^ (32 - n.log2Sets)

/-- The preserve's way that holds `x`, looked up where preserve.enable is 1 (R246). -/
def presWay (s : State) (p : Sp) (n : Noun) (x : Nat) : State × (Option Nat ⊕ XF) :=
  if !n.presOn then (s, .inl none)
  else match readSp s p (wrapA ((n.presTags + 16 * presSet n x : Nat) : Int)) 16 with
    | (t, .inr e) => (t, .inr e)
    | (t, .inl b) => (t, .inl ((List.range 4).find? (fun w => at_ b (4 * w) 4 == x && x != 0xFFFFFFFF)))

/-- A resolved lookup: dropped, or the elements of its row. -/
def lookup (f : Nat) (o : XOp) (s : State) : State × (Option (List (Nat × Nat)) ⊕ XF) :=
  let n := o.src
  let slot := sketchOf s f n
  let bump (t : State) (g : Sketch → Sketch) : State := match slot with | some k => t.setSk k (g (t.sk k)) | none => t
  match readIndex s o.p o.sg.idx o.sg.pos.toNat with
  | (t, .inr e) => (t, .inr e)
  | (t, .inl x0) =>
    let bad := badIndex x0 (n.e 1)
    if bad && n.drop then (dropIndex t f slot, .inl none)
    else
      let x := if bad then n.defaultRow else x0
      match presWay t o.p n x with
      | (u, .inr e) => (u, .inr e)
      | (u, .inl way) =>
        let a := match way with
          | some w => wrapA ((n.presRows + (4 * presSet n x + w) * n.presStride : Nat) : Int)
          | none => rowAddr o.sg x
        match takeLine u o.p n a (n.e 0) with
        | (v, .inr e) => (v, .inr e)
        | (v, .inl l) =>
          let v1 := if bad then bump v (fun k => { k with defaulted := Nat.min (k.defaulted + 1) 0xFFFF }) else v
          let v2 := bump v1 (fun k => { k with lookups := (k.lookups + 1) % 2 ^ 64,
                                               hits := (k.hits + if way.isSome then 1 else 0) % 2 ^ 64 })
          (if way.isNone && !bad then bump v2 (fun k => k.miss x) else v2, .inl (some l))

/-- EMBED.GATHER (R247). -/
def embedGatherBody (f : Nat) (o : XOp) (s : State) : State × Option XF :=
  match lookup f o s with
  | (t, .inr e) => (t, some e)
  | (t, .inl none) => (t, none)
  | (t, .inl (some l)) => writeConv t o.p o.dst o.dg.addr.toNat (l.map (convElem o.src o.dst.scale))

/-- The row that slot `i` of command `r` pools. -/
def poolOf (x : Core) (r : CmdRef) (i : Nat) : Pool :=
  (x.pools.find? (fun p => p.cmd == r && p.slot == i)).getD { cmd := r, slot := i }

/-- The pools with `p` in place of its predecessor; a pool that has been written out is gone. -/
def setPool (s : State) (c : Nat) (p : Pool) (gone : Bool) : State :=
  let x := s.core c
  let rest := x.pools.filter (fun q => !(q.cmd == p.cmd && q.slot == p.slot))
  s.setCore c { x with pools := if gone then rest else p :: rest }

/-- EMBED.POOL (R248) of a slot of command `r`, in the first or last execution of its clause: the row is written with
the last, +0 where nothing contributed. -/
def embedPoolBody (f c : Nat) (r : CmdRef) (j : XJob) (o : XOp) (s : State) : State × Option XF :=
  match lookup f o s with
  | (t, .inr e) => (t, some e)
  | (t, .inl v) =>
    let old : Pool := if j.first then { cmd := r, slot := j.slot } else poolOf (t.core c) r j.slot
    let cnt := old.n + if v.isSome then 1 else 0
    let row := (List.range (o.src.e 0)).map (fun k => match v with
      | some l => addF32 (old.row.getD k 0) (elemF32 o.src (l.getD k (0, 0)))
      | none => old.row.getD k 0)
    let t1 := setPool t c { old with n := cnt, row := row } j.last
    if !j.last then (t1, none)
    else
      let out := if cnt = 0 then row.map (fun _ => (0 : W32))
        else (if o.src.mean then row.map (fun v => divF32 v (i32f cnt)) else row).map (fun v => mulF32 v o.dst.scale)
      writeConv t1 o.p o.dst o.dg.addr.toNat out

/-- What job `j` of command `r`, function `f` on core `c`, does. -/
def jobBody (c f : Nat) (r : CmdRef) (j : XJob) (o : XOp) (s : State) : State × Option XF :=
  if j.op = 1 then copyBody o s
  else if j.op = 2 then reshapeBody o s
  else if j.op = 3 then convertBody o s
  else if j.op = 4 then gatherBody f o s
  else if j.op = 5 then scatterBody f o s
  else if j.op = 6 then embedPoolBody f c r j o s
  else embedGatherBody f o s

/-! ## The rows -/

/-- The first address in host memory among the pages of the ranges, if any. -/
def hostAt (s : State) (c f x : Nat) (l : List (Nat × Nat)) : Option Nat :=
  l.findSome? (fun p => (pieces p.1 p.2).findSome? (fun q => match (translate s c f (some x) q.1 q.2 .read).2 with
    | .ok pa _ _ => if isHost pa then some q.1 else none
    | .bad _ _ => none))

/-- The row that a generator in index mode names: its address, and the ranges read to find it. -/
def indexSpans (s : State) (o : XOp) (g : Agu) (n : Noun) : List (Nat × Nat) :=
  let (i0, i1, i2, i3) := g.idx.coords g.pos.toNat
  let here := (wrapA ((g.idx.line g.idx.base i1 i2 i3 : Nat) + 4 * i0), 4)
  match (readIndex s o.p g.idx g.pos.toNat).2 with
  | .inr _ => [here]
  | .inl x0 =>
    let x := if badIndex x0 (n.e 1) then n.defaultRow else x0
    let len := lineBytes n.fmt (n.e 0)
    let tags := if n.presOn then [(wrapA ((n.presTags + 16 * presSet n x : Nat) : Int), 16)] else []
    match (presWay s o.p n x).2 with
    | .inl (some w) => here :: tags ++ [(wrapA ((n.presRows + (4 * presSet n x + w) * n.presStride : Nat) : Int), len)]
    | _ => here :: tags ++ [(rowAddr g x, len)]

/-- Ranges that a transfer reads: the lines of its source or the row it looks up, with the index elements and tags. -/
def readSpans (s : State) (o : XOp) : List (Nat × Nat) :=
  let len := lineBytes o.src.fmt (o.src.e 0)
  (if o.sg.index then indexSpans s o o.sg o.src
    else (lineIdx (o.src.e 1) (o.src.e 2) (o.src.e 3)).map (fun i => (o.src.line o.sg.addr.toNat i.1 i.2.1 i.2.2, len)))
  ++ (if o.dg.index then (indexSpans s o o.dg o.dst).take 1 else [])

/-- Ranges that a transfer writes. -/
def writeSpans (s : State) (o : XOp) : List (Nat × Nat) :=
  let len := lineBytes o.dst.fmt (o.dst.e 0)
  if o.dg.index then (indexSpans s o o.dg o.dst).drop 1
  else (lineIdx (o.dst.e 1) (o.dst.e 2) (o.dst.e 3)).map (fun i => (o.dst.line o.dg.addr.toNat i.1 i.2.1 i.2.2, len))

/-- Requests, one for each 128-byte line, that the accesses to `l` send out of core `c` (R168). -/
def linesOut (s : State) (c f x : Nat) (l : List (Nat × Nat)) (acc : Acc) : Nat :=
  (l.flatMap (fun p => pieces p.1 p.2)).foldl (fun n q => match (translate s c f (some x) q.1 q.2 acc).2 with
    | .ok pa _ _ => if isLocal pa && apCore pa == c then n else n + ((pa + q.2 - 1) / 128 - pa / 128 + 1)
    | .bad _ _ => n) 0

/-- The operands of job `j`. -/
def XJob.xop (j : XJob) (c f x : Nat) : XOp := ⟨.va c f x, j.src, j.dst, j.sg, j.dg⟩

/-- An earlier transfer of command `r` on core `x` has yet to act. -/
def jobsWait (x : Core) (r : CmdRef) : Bool := x.xfers.any (fun y => y.cmd == r && y.job.isSome)

/-- A TX transfer is issued: it is outstanding from then on. Its effect is made at once, unless it reads host memory or
follows one that has yet to act (R243). An access that is poisoned or does not translate is an engine fault (R129,
R232). -/
def xferRow (c op : Nat) (s : State) : Out :=
  match headSlot s c .tx .xfer op with
  | none => done s s
  | some (y, i, w) =>
    let s1 := s.setEng c .tx y
    let last := match y.clause with | some k => y.done + 1 == k.execs | none => true
    let j : XJob := { op := op, slot := i, first := y.done == 0, last := last, src := y.noun (xSrc w), dst := y.noun (xDst w),
                      sg := y.gen (xSrcAg w), dg := y.gen (xDstAg w) }
    let o := j.xop c y.fn y.ctx
    match jobBody c y.fn y.cmd j o s1 with
    | (t, some e) => done s (engFail t c .tx e)
    | (t, none) =>
      let host := hostAt s1 c y.fn y.ctx (readSpans s1 o)
      let later := host.isSome || jobsWait (s1.core c) y.cmd
      let u := if later then s1 else t
      let x := u.core c
      let r : Xfer := {
        id := x.xferNext, cmd := y.cmd, ctx := y.ctx, sig := xSig w, conj := xConj w, pc := y.pc
        reqs := linesOut s1 c y.fn y.ctx (readSpans s1 o) .read + linesOut s1 c y.fn y.ctx (writeSpans s1 o) .write
        old := (s.hq.inv.get none y.fn).isSome
        issuedAt := s.time, host := host.isSome, va := host.getD 0, job := if later then some j else none }
      done s (slotDone (u.setCore c { x with xfers := x.xfers ++ [r], xferNext := x.xferNext + 1 }) c .tx)

/-- COPY (R242). -/
def execCopy (c : CoreId) (s : State) : Out := xferRow c 1 s
/-- RESHAPE (R242). -/
def execReshape (c : CoreId) (s : State) : Out := xferRow c 2 s
/-- CONVERT (R242). -/
def execConvert (c : CoreId) (s : State) : Out := xferRow c 3 s
/-- GATHER (R242). -/
def execGather (c : CoreId) (s : State) : Out := xferRow c 4 s
/-- SCATTER (R242). -/
def execScatter (c : CoreId) (s : State) : Out := xferRow c 5 s
/-- EMBED_POOL (R248). -/
def execEmbedPool (c : CoreId) (s : State) : Out := xferRow c 6 s
/-- EMBED_GATHER (R247). -/
def execEmbedGather (c : CoreId) (s : State) : Out := xferRow c 7 s

/-! ## Completion (R111, R115, R124, R326) -/

/-- A saved stream's signals that are ready are performed; its arrivals wait for its restore. -/
def flushSaved (s : State) (c : Nat) : State :=
  (s.core c).streams.foldl (fun t v =>
    let sigs := v.eng.releases.takeWhile (fun r => relReady t c v.eng r && match r.r with | .sig _ _ => true | _ => false)
    if sigs.isEmpty then t
    else
      let t1 := sigs.foldl (fun u r => match r.r with
        | .sig n k => sendSignal u { ctx := v.eng.ctx, conj := n, n := k, src := sigSrc c (CE.eng v.e) v.eng.ctx r.pc }
        | _ => u) t
      let x := t1.core c
      t1.setCore c { x with streams := x.streams.map (fun z =>
        if z = v then { z with eng := { z.eng with releases := z.eng.releases.drop sigs.length } } else z) }) s

/-- Transfer `x` of core `c` completes; a local signal is sent, short where its data is short. -/
def completeXfer (s : State) (c : Nat) (x : Xfer) (short : Bool) : State :=
  let k := s.core c
  let s1 := s.setCore c { k with xfers := k.xfers.filter (fun y => y.id != x.id) }
  let s2 := if x.sig && !x.isPut then
      sendSignal s1 { ctx := x.ctx, conj := x.conj, n := 1, short := short, src := sigSrc c .tx x.ctx x.pc }
    else s1
  let s3 := if (s2.eng c .tx).st != .idle then flush s2 c .tx else s2
  settleQuits (flushSaved s3 c) c

/-- An outstanding transfer fails: its stream faults (R129, R232), running or saved, and the transfer is gone. -/
def xferFail (s : State) (c : Nat) (x : Xfer) (e : XF) : State :=
  let k := s.core c
  let s1 := s.setCore c { k with xfers := k.xfers.filter (fun y => y.id != x.id) }
  let y := s1.eng c .tx
  if y.busy ∧ y.cmd = x.cmd then engFail s1 c .tx e
  else
    let s2 := engineFault s1 x.cmd.fn {
      code := e.code, sub := e.sub, level := e.level, va := e.va, eng := some (engId c .tx), q := some x.cmd.q
      ctx := some x.ctx, seq := x.cmd.seq, pc := x.pc, block := 9, inst := c }
    let s3 := cmdFault s2 x.cmd e.code (some (engId c .tx))
    let z := s3.core c
    settleQuits (s3.setCore c { z with streams := z.streams.map (fun v =>
      if v.eng.cmd = x.cmd then { v with eng := { v.eng with faultCause := some e.code, clause := none } } else v) }) c

/-- Transfer `x` of core `c` does what it has yet to do. -/
def actJob (s : State) (c : Nat) (x : Xfer) (j : XJob) : State :=
  match jobBody c x.cmd.fn x.cmd j (j.xop c x.cmd.fn x.ctx) s with
  | (t, some e) => xferFail t c x e
  | (t, none) => t.setCore c { t.core c with xfers := (t.core c).xfers.map (fun y => if y.id = x.id then { y with job := none } else y) }

/-- After a transfer of command `r` has acted, the ones behind it act, up to the next that reads host memory (R243). -/
def actWaiting (c : Nat) (r : CmdRef) : Nat → State → State
  | 0, s => s
  | n + 1, s => match (s.core c).xfers.find? (fun y => y.cmd == r && y.job.isSome) with
    | some x => match x.job with
      | some j => if x.host then s else actWaiting c r n (actJob s c x j)
      | none => s
    | none => s

/-- TRANSFER_COMPLETE (R111, R243, R326): transfer `n` of core `c`, with what it has yet to do, when the earlier transfers
of its stream have acted. A PUT has left its first hop; a GET completes with its response. -/
def execTransferComplete (c : CoreId) (n : Nat) (s : State) : Out :=
  match (s.core c).xfers.find? (fun x => x.id == n) with
  | none => done s s
  | some x =>
    if !s.clocked || x.isGet || x.flitsLeft != 0 then done s s
    else match x.job with
      | none => done s (completeXfer s c x false)
      | some j =>
        if (s.core c).xfers.any (fun y => y.cmd == x.cmd && y.job.isSome && y.id < x.id) then done s s
        else
          let t := actJob s c x j
          let u := if (t.core c).xfers.any (fun y => y.id == n) then completeXfer t c x false else t
          done s (actWaiting c x.cmd (u.core c).xfers.length u)

end Sys2Proof.Machine
end

