-- ==== Sys2Proof/Machine/Link.lean ====
section
/-! DEFINITION. Garka links (R320 to R341): flits, retry, credits, messages, routing, ports, LINK.PUT and LINK.GET.
No row sends a flit: a queued flit leaves at once when the retry buffer and the credits admit it (`pump`). -/

namespace Sys2Proof.Machine

/-! ## Flit bytes (R322) -/

/-- One step of the CRC-64 over bit 63 first. -/
def crcBit (c : Nat) : Nat :=
  if c.testBit 63 then Nat.xor (c * 2 % 2 ^ 64) 0x42F0E1EBA9EA3693 else c * 2 % 2 ^ 64

def crcByte (c : Nat) (b : Byte) : Nat :=
  crcBit (crcBit (crcBit (crcBit (crcBit (crcBit (crcBit (crcBit (Nat.xor c (b.toNat * 2 ^ 56)))))))))

/-- CRC-64 with initial value and final XOR of all ones. -/
def crc64 (l : List Byte) : Nat := Nat.xor (l.foldl crcByte 0xFFFFFFFFFFFFFFFF) 0xFFFFFFFFFFFFFFFF

/-- The flit's link header. -/
def fHdr (b : List Byte) : Nat := leNat (b.take 8)
/-- The flit's body. -/
def fBody (b : List Byte) : List Byte := (b.drop 8).take 240

def crcOk (b : List Byte) : Bool := leNat ((b.drop 248).take 8) == crc64 (b.take 248)

/-! ## Message headers (R325) -/

def mOp (h : List Byte) : Nat := at_ h 0 1
def mHops (h : List Byte) : Nat := at_ h 1 1
def mDest (h : List Byte) : Nat := fld (at_ h 2 2) 0 10
def mDirect (h : List Byte) : Bool := bit (at_ h 2 2) 15
def mSrcChip (h : List Byte) : Nat := fld (at_ h 4 2) 0 10
def mDstCtx (h : List Byte) : Nat := fld (at_ h 6 2) 0 12
def mSrcCtx (h : List Byte) : Nat := fld (at_ h 8 2) 0 12
def mFn (h : List Byte) : Nat := fld (at_ h 10 1) 0 7
def mSig (h : List Byte) : Bool := bit (at_ h 11 1) 0
def mConj (h : List Byte) : Nat := fld (at_ h 12 2) 0 9
def mStatus (h : List Byte) : Nat := at_ h 14 1
def mVa (h : List Byte) : Nat := fld (at_ h 16 8) 0 52
def mLen (h : List Byte) : Nat := at_ h 24 4
def mTag (h : List Byte) : Nat := at_ h 28 2

/-- A transaction header. -/
def mkHdr (op dest src dstCtx srcCtx fn : Nat) (direct : Bool) (sig : Bool) (conj status va len tag : Nat) : List Byte :=
  leBytes 1 op ++ leBytes 1 63 ++ leBytes 2 (dest + if direct then 0x8000 else 0) ++ leBytes 2 src ++ leBytes 2 dstCtx
  ++ leBytes 2 srcCtx ++ leBytes 1 fn ++ leBytes 1 (if sig then 1 else 0) ++ leBytes 2 conj ++ leBytes 1 status
  ++ leBytes 1 0 ++ leBytes 8 va ++ leBytes 4 len ++ leBytes 2 tag ++ leBytes 2 0

/-- The header with its hop count replaced. -/
def setHops (b : List Byte) (h : Nat) : List Byte := b.take 1 ++ [BitVec.ofNat 8 h] ++ b.drop 2

/-- Flits of a message with `l` data bytes. -/
def flitCount (l : Nat) : Nat := 1 + (l - 208 + 239) / 240

/-- First message byte and length of the data of flit `i` of a message with `l` data bytes. -/
def flitSpan (l i : Nat) : Nat × Nat :=
  if i = 0 then (0, Nat.min l 208) else (208 + (i - 1) * 240, Nat.min (l - (208 + (i - 1) * 240)) 240)

/-- A body of 240 bytes. -/
def padBody (b : List Byte) : List Byte := (b ++ List.replicate 240 0).take 240

/-- The flits of a message: header and data; a flit named by `stub` is a STUB, whose first flit keeps the header. -/
def mkFlits (hdr : List Byte) (data : List Byte) (n : Nat) (stub : Nat → Bool) (xfer : Option (Nat × Nat)) : List Flit :=
  (List.range n).map (fun i =>
    let (o, k) := flitSpan data.length i
    let d := if stub i then [] else (data.drop o).take k
    { kind := if stub i then 2 else 1, first := i == 0, last := i + 1 == n,
      body := padBody ((if i = 0 then hdr else []) ++ d), fn := mFn hdr, dst := mDest hdr, src := mSrcChip hdr,
      xfer := xfer })

/-! ## Ports, chips and routes (R331, R335, R337) -/

/-- Register of port g's page (R341), and of port 0's chip-wide part. -/
def lnkA (g off : Nat) : Nat := 0x00500000 + 0x10000 * g + off
def lnkC (off : Nat) : Nat := 0x00508000 + off

/-- This chip's id (R335); 0 without LINK_TOPOLOGY. -/
def ownId (s : State) : Nat :=
  keptFld s (lnkC 0) 0 10 (match s.charter.topo with | some t => t.x + t.sx * (t.y + t.sy * t.z) | none => 0)

/-- LNK_FAILED of a chip (R340). -/
def chipIsFailed (s : State) (d : Nat) : Bool := rdB s (lnkC (0x100 + 4 * (d / 32))) (d % 32)

/-- A port admits new messages: UP and not draining for a fence (R338, R339). -/
def portUp (s : State) (g : Nat) : Bool := (s.port g).st == .up && (s.port g).fenceAt.isNone

/-- Coordinate and size along the direction of port `g`, and whether it is a + direction. -/
def axisOf (t : Topo) (g : Nat) : Option (Nat × Nat × Bool) :=
  match t.dirs.getD g 0xFF with
  | 0 => some (t.x, t.sx, true) | 1 => some (t.x, t.sx, false)
  | 2 => some (t.y, t.sy, true) | 3 => some (t.y, t.sy, false)
  | 4 => some (t.z, t.sz, true) | 5 => some (t.z, t.sz, false)
  | _ => none

/-- A hop out of port `g` crosses the dateline (R331). -/
def dateline (s : State) (g : Nat) : Bool :=
  match s.charter.topo with
  | none => false
  | some t => match axisOf t g with
    | some (c, n, true) => c + 1 == n
    | some (c, _, false) => c == 0
    | none => false

/-- Virtual channel of a message of VC `vc` on its way out of port `g` (R331). -/
def outVc (s : State) (g vc : Nat) : Nat := if dateline s g then vc / 2 * 2 + 1 else vc

/-- The chip that LINK_TOPOLOGY places at port `g` (R338, R340). -/
def partnerOf (s : State) (g : Nat) : Option Nat :=
  match s.charter.topo with
  | none => none
  | some t =>
    let step (c n : Nat) (up : Bool) : Nat := if up then (c + 1) % n else (c + n - 1) % n
    let id (x y z : Nat) : Nat := x + t.sx * (y + t.sy * z)
    match t.dirs.getD g 0xFF with
    | 0 => some (id (step t.x t.sx true) t.y t.z) | 1 => some (id (step t.x t.sx false) t.y t.z)
    | 2 => some (id t.x (step t.y t.sy true) t.z) | 3 => some (id t.x (step t.y t.sy false) t.z)
    | 4 => some (id t.x t.y (step t.z t.sz true)) | 5 => some (id t.x t.y (step t.z t.sz false))
    | _ => none

/-- The egress port of a routed message (R335, R337). -/
def routeTo (s : State) (d : Nat) : Option Nat :=
  match look s.charter.routes.entries (rdF s (lnkC 4) 0 2) with
  | none => none
  | some tab =>
    let e := (tab.get 0 d).toNat
    let p := fld e 0 4
    let q := fld e 4 4
    if bit e 8 && portUp s p then some p else if q ≠ p ∧ portUp s q then some q else none

/-! ## Sending (R323, R331 to R333) -/

/-- Changes a port. -/
def modPort (s : State) (g : Nat) (f : Port → Port) : State := s.setPort g (f (s.port g))

/-- A receive slot of VC `v` of port `g` becomes free (R332). -/
def freeRecv (s : State) (o : Option (Nat × Nat)) : State :=
  match o with
  | some (g, v) => modPort s g (fun p => { p with heldSlots := p.heldSlots.set v (p.heldSlots.getD v 0 - 1) })
  | none => s

/-- One flit of a transfer of this chip has been accepted, dropped or discarded at the first hop (R326). -/
def flitGone (s : State) (x : Option (Nat × Nat)) : State :=
  match x with
  | none => s
  | some (c, id) =>
    let k := s.core c
    s.setCore c { k with xfers := k.xfers.map (fun y => if y.id = id then { y with flitsLeft := y.flitsLeft - 1 } else y) }

/-- First transmission of a flit: it enters the retry buffer; its receive slot is free again (R332, R356, R358). -/
def sendFlit (s : State) (g : Nat) (f : Flit) : State :=
  let p := s.port g
  let p1 := { p with
    retry := p.retry ++ [{ seq := p.nextSeq, flit := { f with origin := none, arrived := none } }]
    nextSeq := (p.nextSeq + 1) % 4096
    seqAt := s.time
    ackWait := if p.retry.isEmpty then s.time else p.ackWait
    avail := if f.kind = 3 then p.avail else p.avail.set f.vc (p.avail.getD f.vc 0 - 1) }
  let s1 := freeRecv (monEvent (s.setPort g p1) 13 g 1) f.origin
  match f.arrived with
  | some t => monSample s1 false 15 g (s.time - t)
  | none => s1

/-- The first message of the list that may send a flit: the first of its VC, with a flit and a credit. -/
def pickMsg (avail : List Nat) : List TxMsg → List Nat → Option Nat
  | [], _ => none
  | m :: r, seen =>
    if !seen.contains m.vc && !m.flits.isEmpty && avail.getD m.vc 0 != 0 then some 0
    else (pickMsg avail r (m.vc :: seen)).map (· + 1)

/-- Sends what may be sent: CONTROL flits first, then messages, one per VC at a time (R331). -/
def pumpN (g : Nat) : Nat → State → State
  | 0, s => s
  | n + 1, s =>
    let p := s.port g
    if p.st != .up || 256 ≤ p.retry.length then s
    else match p.ctlq with
      | f :: r => pumpN g n (sendFlit (s.setPort g { p with ctlq := r }) g f)
      | [] => match pickMsg p.avail p.outq [] with
        | none => s
        | some i =>
          let m := p.outq.getD i {}
          match m.flits with
          | [] => s
          | f :: r =>
            let q := if f.last then p.outq.eraseIdx i else p.outq.set i { m with flits := r, begun := true }
            pumpN g n (sendFlit (s.setPort g { p with outq := q }) g f)

/-- Sends what port `g` may send now; 256 unacknowledged flits bound it. -/
def pump (s : State) (g : Nat) : State := pumpN g 257 s

/-- Sends a CONTROL flit. -/
def sendCtl (s : State) (g : Nat) (k : Ctl) : State :=
  pump (modPort s g (fun p => { p with ctlq := p.ctlq ++ [{ kind := 3, ctl := some k }] })) g

/-! ## Discards and port states (R338, R339) -/

/-- Messages that the port has still to deliver: queued ones, and ones whose last flit is not accepted. -/
def unfinished (p : Port) : Nat :=
  p.outq.length + (p.retry.filter (fun x => x.flit.kind != 3 && x.flit.last)).length

/-- The message that input VC `v` of port `g` forwards through port `o` gets no more flits. Where none of it has left, it
is discarded and its receive slots are free. Where its first flit has left, its output VC goes on carrying only that
message (R331), whose last flit never comes: it applies no signal (R336). DESIGN CHOICE (log entry 88). -/
def dropOnward (s : State) (g v o : Nat) : State :=
  let p := s.port o
  let hit (m : TxMsg) : Bool := m.from_ == some (g, v)
  let gone := p.outq.filter (fun m => hit m && !m.begun)
  let s1 := s.setPort o { p with outq := (p.outq.filter (fun m => !(hit m && !m.begun))).map (fun m =>
    if hit m then { m with from_ := none } else m) }
  pump ((gone.flatMap (·.flits)).foldl (fun t f => freeRecv t f.origin) s1) o

/-- A message that still arrives on input (g, v) finds its way out closed. -/
def dropRx (s : State) (x : Option (Nat × Nat)) : State :=
  match x with
  | some (g, v) => modPort s g (fun p => { p with rx := p.rx.put {} v { p.rx.get {} v with route := .drop } })
  | none => s

/-- Discards everything the port sends or receives; `count` messages are counted in LNK_DOWN_DISCARD. -/
def clearPort (s : State) (g : Nat) : State :=
  let p := s.port g
  let s1 := incF s (lnkA g 0x40) 0 16 (unfinished p)
  let flits := p.retry.map (·.flit) ++ p.outq.flatMap (·.flits)
  let s2 := flits.foldl (fun t f => freeRecv (flitGone t f.xfer) f.origin) s1
  let s3 := p.outq.foldl (fun t m => dropRx t m.from_) s2
  let s4 := p.rx.entries.foldl (fun t e => match e.2.route with | .out o => dropOnward t g e.1 o | _ => t) s3
  modPort s4 g (fun q => { q with outq := [], ctlq := [], retry := [], rx := {}, nextSeq := 0, expect := 0,
                                  nakSent := false, fails := 0, avail := [128, 128, 128, 128], heldSlots := [0, 0, 0, 0] })

/-- The port goes DOWN, and to TRAINING at once (R338). -/
def goDown (s : State) (g : Nat) : State :=
  let s1 := wrF (inc16 (clearPort s g) (lnkA g 0x3C)) (lnkC 8) 1 1 1
  modPort s1 g (fun q => { q with st := .training, cause := 0, since := s.time })

/-- The port becomes FENCED with a cause; its traffic ends. -/
def fenceWith (s : State) (g cause : Nat) : State :=
  modPort (clearPort s g) g (fun q => { q with st := .fenced, cause := cause, fenceAt := none })

/-! ## Retry (R323, R333) -/

/-- Record of a dropped flit (R342, R347). -/
def dropRec (g : Nat) (f : Flit) : FltRec :=
  { code := 0x47, detail := g + 16 * f.dst + 2 ^ 14 * f.src, block := 7, inst := g }

/-- The STUB that takes a dropped flit's place: it keeps the header of a first flit (R333). -/
def Flit.stub (f : Flit) : Flit :=
  { f with kind := 2, body := padBody (if f.first then f.body.take 32 else []), xfer := none }

/-- FLIT_DROP (R333): one flit of port `g` is dropped. -/
def dropFlit (s : State) (g : Nat) (f : Flit) : State :=
  let s1 := rasCount (inc16 (inc16 s (lnkA g 0x24)) (fpA f.fn 0x30810)) 0x47
  flitGone (fnCoal s1 f.fn (dropRec g f)) f.xfer

/-- Every flit in the retry buffer is sent again; a DATA flit sent four times is replaced by a STUB (R323, R333). -/
def resend (s : State) (g : Nat) : State :=
  let p := s.port g
  if p.retry.isEmpty then s
  else if 63 ≤ p.fails then goDown s g
  else
    let old := p.retry.filter (fun x => x.flit.kind == 1 && 4 ≤ x.tries)
    let s1 := old.foldl (fun t x => dropFlit t g x.flit) s
    let again := p.retry.map (fun x =>
      if x.flit.kind = 1 ∧ 4 ≤ x.tries then { x with flit := x.flit.stub, tries := 1 } else { x with tries := x.tries + 1 })
    monEvent (modPort s1 g (fun q => { q with
      retry := again, fails := q.fails + 1, ackWait := s.time, seqAt := s.time
      retries := (q.retries + (p.retry.length - old.length)) % 2 ^ 32 })) 13 g p.retry.length

/-- ack, nak and credits of a received header (R322, R323, R332). -/
def takeHeader (s : State) (g h : Nat) : State :=
  let p := s.port g
  let k := match (p.retry.map (·.seq)).findIdx? (· == fld h 20 12) with
    | some i => if bit h 32 then i + 1 else 0
    | none => 0
  let s1 := (p.retry.take k).foldl (fun t x => flitGone t x.flit.xfer) s
  let s2 := modPort s1 g (fun q => { q with
    retry := q.retry.drop k
    fails := if k = 0 then q.fails else 0
    ackWait := if k = 0 then q.ackWait else s.time
    avail := (List.range 4).map (fun v => Nat.min (q.avail.getD v 0 + fld h (34 + 4 * v) 4) 128) })
  pump (if bit h 33 then resend s2 g else s2) g

/-! ## Receiving (R322, R323, R327 to R329, R334, R335) -/

/-- The transfer that waits for the GET response with tag `n`: its core and the transfer. -/
def getOf (s : State) (n : Nat) : Option (Nat × Xfer) :=
  (List.range 32).findSome? (fun c => ((s.core c).xfers.find? (fun x => x.isGet && x.tag == n)).map (fun x => (c, x)))

/-- R327. -/
def acceptMsg (s : State) (h : List Byte) : Bool :=
  s.boot.dev == .ready && (s.ctx (mDstCtx h)).live && (s.ctx (mDstCtx h)).fn == mFn h && !chipIsFailed s (ownId s)

/-- R328: the physical pieces of the remote range, in HBM3E or the commons. -/
def remoteRange (s : State) (h : List Byte) (w : Acc) : State × Option (List (Nat × Nat)) :=
  if 2 ^ 52 < mVa h + mLen h then (s, none)
  else match xlat s 32 (mFn h) none (mVa h) (mLen h) w with
    | (t, .inl l) => (t, if l.all (fun q => isHbm q.1 || isCommons q.1) then some l else none)
    | (t, .inr _) => (t, none)

/-- The part [o, o + n) of physical pieces. -/
def partOf : List (Nat × Nat) → Nat → Nat → List (Nat × Nat)
  | [], _, _ => []
  | (a, k) :: r, o, n =>
    if n = 0 then [] else if k ≤ o then partOf r (o - k) n
    else
      let m := Nat.min (k - o) n
      (a + o, m) :: partOf r 0 (n - m)

/-- The first flit of a message to this chip arrives (R327, R328). -/
def beginRx (s : State) (v : Nat) (h : List Byte) : State × Rx :=
  let r : Rx := { vc := v, route := .eject, hdr := h, ok := acceptMsg s h }
  if mOp h = 1 ∧ r.ok then
    let (t, l) := remoteRange s h .write
    (t, { r with pa := l, fn := mFn h, old := (s.hq.inv.get none (mFn h)).isSome })
  else (s, r)

/-- A flit of an ejected message: its bytes are written as they arrive, a STUB sets the short bit (R329, R334). -/
def ejectFlit (s : State) (key : Nat) (g : Nat) (r : Rx) (kind : Nat) (last : Bool) (body : List Byte) : State :=
  let (o, n) := flitSpan (mLen r.hdr) r.idx
  let d := ((if r.idx = 0 then body.drop 32 else body)).take n
  let dst : Option (List (Nat × Nat)) :=
    if mOp r.hdr = 1 then (if r.ok then r.pa else none)
    else if mOp r.hdr = 3 then (match getOf s (mTag r.hdr) with
      | some (_, x) => if mStatus r.hdr = 0 ∧ mLen r.hdr = x.len then some x.pa else none
      | none => none)
    else none
  let s1 := match dst with
    | some l => if kind = 2 then s else writePieces s (partOf l o n) d
    | none => s
  let r1 := { r with idx := r.idx + 1, short := r.short || kind == 2 }
  modPort s1 g (fun p => if last then { p with rx := p.rx.put {} key {}, whole := p.whole ++ [r1] }
    else { p with rx := p.rx.put {} key r1 })

/-- Puts a message on port `o`. -/
def enqueueMsg (s : State) (o : Nat) (m : TxMsg) : State := pump (modPort s o (fun p => { p with outq := p.outq ++ [m] })) o

/-- A transit flit joins its message on port `o` (R335). -/
def forwardFlit (s : State) (g v o : Nat) (f : Flit) : State :=
  pump (modPort s o (fun p => { p with outq := p.outq.map (fun m =>
    if m.from_ = some (g, v) then
      { m with flits := m.flits ++ [{ f with vc := m.vc }], from_ := if f.last then none else m.from_ } else m) })) o

/-- A receive slot of VC `v` is taken (R332). -/
def holdSlot (s : State) (g v : Nat) : State :=
  modPort s g (fun p => { p with heldSlots := p.heldSlots.set v (p.heldSlots.getD v 0 + 1) })

/-- ROUTE_LOOKUP and what follows for an accepted first flit (R335). -/
def firstFlit (s : State) (g v kind : Nat) (last : Bool) (body : List Byte) : State :=
  let h := body.take 32
  let drop (t : State) : State := modPort t g (fun p => { p with rx := p.rx.put {} v { vc := v, hdr := h } })
  if mDirect h || mDest h == ownId s then
    let (t, r) := beginRx s v h
    let t1 := ejectFlit t v g r kind last body
    if mOp h = 2 then holdSlot t1 g v else t1
  else match routeTo s (mDest h) with
    | none => drop (inc16 s (lnkC 0x10))
    | some o =>
      if mHops h ≤ 1 then drop (inc16 s (lnkC 0x14)) else
      let f : Flit := { kind := kind, first := true, last := last, body := setHops body (mHops h - 1), fn := mFn h,
                        dst := mDest h, src := mSrcChip h, origin := some (g, v), arrived := some s.time, vc := outVc s o v }
      let t := modPort (holdSlot s g v) g (fun p => { p with
        rx := p.rx.put {} v { vc := v, route := if last then .drop else .out o, hdr := h } })
      enqueueMsg t o { vc := f.vc, flits := [f], from_ := if last then none else some (g, v) }

/-- A later flit of a message follows its first (R335). -/
def laterFlit (s : State) (g v kind : Nat) (last : Bool) (body : List Byte) : State :=
  let r := (s.port g).rx.get {} v
  match r.route with
  | .drop => s
  | .eject => ejectFlit s v g r kind last body
  | .out o =>
    let f : Flit := { kind := kind, last := last, body := body, fn := mFn r.hdr, dst := mDest r.hdr, src := mSrcChip r.hdr,
                      origin := some (g, v) }
    let t := modPort (holdSlot s g v) g (fun p => { p with
      rx := p.rx.put {} v { r with route := if last then .drop else .out o, idx := r.idx + 1 } })
    forwardFlit t g v o f

/-- An unfinished message on an input VC gives way to a new one. -/
def closeRx (s : State) (g v : Nat) : State :=
  match ((s.port g).rx.get {} v).route with
  | .out o => dropOnward s g v o
  | _ => s

/-- A flit that arrives damaged: counted, and a nak is sent for the gap (R321 to R323). -/
def damaged (s : State) (g : Nat) (b : List Byte) (fecOk : Bool) (seq : Bool) : State :=
  let s1 := if crcOk b then s else inc16 s (lnkA g 0x28)
  let s2 := if fecOk then s1 else inc16 s1 (lnkA g 0x2C)
  if seq then modPort s2 g (fun p => { p with nakSent := true }) else s2

/-- DATA and STUB flits (R323): accepted in order, or discarded with a nak. -/
def flitIn (g : Nat) (b : List Byte) (fecOk : Bool) (s : State) : State :=
  if (s.port g).st != .up then s
  else if !crcOk b || !fecOk then damaged s g b fecOk true
  else
    let h := fHdr b
    let s1 := takeHeader (monEvent s 14 g 1) g h
    let p := s1.port g
    if p.st != .up then s1
    else if fld h 8 12 ≠ p.expect then modPort s1 g (fun q => { q with nakSent := true })
    else
      let s2 := modPort s1 g (fun q => { q with expect := (q.expect + 1) % 4096, nakSent := false, seqAt := s.time })
      let v := fld h 4 2
      if bit h 6 then firstFlit (closeRx s2 g v) g v (fld h 0 4) (bit h 7) (fBody b)
      else laterFlit s2 g v (fld h 0 4) (bit h 7) (fBody b)

/-- DATA_FLIT_RECEIVE (R323, R329, R335). -/
def execDataFlitReceive (g : PortId) (bytes : List Byte) (fecOk : Bool) (s : State) : Out :=
  if wfFlit 1 bytes then done s (flitIn g bytes fecOk s) else bad "DATA_FLIT_RECEIVE"

/-- STUB_RECEIVE (R334). -/
def execStubReceive (g : PortId) (bytes : List Byte) (fecOk : Bool) (s : State) : Out :=
  if wfFlit 2 bytes then done s (flitIn g bytes fecOk s) else bad "STUB_RECEIVE"

/-- IDLE_FLIT (R323): ack, nak and credits. -/
def execIdleFlit (g : PortId) (bytes : List Byte) (fecOk : Bool) (s : State) : Out :=
  if !wfFlit 0 bytes then bad "IDLE_FLIT"
  else if (s.port g).st != .up then done s s
  else if !crcOk bytes || !fecOk then done s (damaged s g bytes fecOk false)
  else done s (takeHeader (monEvent s 14 g 1) g (fHdr bytes))

/-- A CONTROL flit arrives: counted and discarded with a nak where it is damaged or out of order; else its ack, nak and
credits are taken and its number is accepted (R322, R323). Whether it is accepted. -/
def ctlIn (s : State) (g : Nat) (w : CtlWire) : State × Bool :=
  let nak (t : State) : State := modPort t g (fun q => { q with nakSent := true })
  if !w.crcOk || !w.fecOk then
    let s1 := if w.crcOk then s else inc16 s (lnkA g 0x28)
    (nak (if w.fecOk then s1 else inc16 s1 (lnkA g 0x2C)), false)
  else
    let s1 := takeHeader (monEvent s 14 g 1) g w.hdr.toNat
    let p := s1.port g
    if p.st != .up then (s1, false)
    else if fld w.hdr.toNat 8 12 ≠ p.expect then (nak s1, false)
    else (modPort s1 g (fun q => { q with expect := (q.expect + 1) % 4096, nakSent := false, seqAt := s.time }), true)

/-- What an accepted CONTROL flit does; one that is not accepted does nothing more. -/
def onCtl (s : State) (g : Nat) (w : CtlWire) (act : State → State) : Out :=
  if (s.port g).st != .up then done s s
  else match ctlIn s g w with
    | (t, true) => done s (act t)
    | (t, false) => done s t

/-! ## Messages at their source (R324 to R326, R336) -/

/-- A message to this chip's own id is ejected at once (R335). -/
def loopMsg (s : State) (v : Nat) (h : List Byte) (flits : List Flit) : State :=
  let (t, r) := beginRx s v h
  flits.foldl (fun u f => ejectFlit u 4 0 (if f.first then r else (u.port 0).rx.get {} 4) f.kind f.last f.body) t

/-- Sends a message of this chip: none where its source discards it (R335, R336). -/
def sourceMsg (s : State) (direct : Bool) (port v : Nat) (flits : List Flit) (h : List Byte) : Option State :=
  if chipIsFailed s (mDest h) then none
  else if !direct && mDest h == ownId s then some (loopMsg s v h flits)
  else
    let o := if direct then (if portUp s port then some port else none) else routeTo s (mDest h)
    match o with
    | none => none
    | some g =>
      let w := outVc s g v
      some (enqueueMsg s g { vc := w, flits := flits.map (fun f =>
        { f with vc := w, body := if f.first then setHops f.body 62 else f.body }) })

/-- A LINK transfer acts (R324 to R326, R336): its data `d`, what it keeps, and its header. -/
def linkStart (s : State) (c : Nat) (x : Xfer) (h d : List Byte) (direct : Bool) (port : Nat) : State :=
  let n := flitCount d.length
  let k := s.core c
  let x1 := { x with id := k.xferNext, issuedAt := s.time, old := (s.hq.inv.get none x.cmd.fn).isSome, flitsLeft := if x.isPut then n else 0 }
  let s1 := s.setCore c { k with xfers := k.xfers ++ [x1], xferNext := k.xferNext + 1 }
  let flits := mkFlits h d n (fun _ => false) (if x.isPut then some (c, x1.id) else none)
  match sourceMsg s1 direct port 0 flits h with
  | none => completeXfer (inc16 s1 (lnkC 0x10)) c x1 true
  | some t => if !direct && mDest h == ownId s then
      (List.range n).foldl (fun u _ => flitGone u (if x.isPut then some (c, x1.id) else none)) t
    else t

/-- LINK_PUT (R324): the local noun's bytes become a PUT message. -/
def execLinkPut (c : CoreId) (s : State) : Out :=
  match headSlot s c .tx .xfer 8 with
  | none => done s s
  | some (y, _, w) =>
    let s1 := s.setEng c .tx y
    let a := (y.gen (xSrcAg w)).addr.toNat
    let len := (y.noun (xSrc w)).packed
    let r := (y.gen (xDstAg w)).addr.toNat
    match readSp s1 (txSp c y) a len with
    | (t, .inr e) => done s (engFail t c .tx e)
    | (t, .inl d) =>
      let h := mkHdr 1 (fld r 52 10) (ownId s) (xDst w) y.ctx y.fn (!bit r 63) (xSig w) (xConj w) 0 (fld r 0 52) len 0
      let host := hostAt s1 c y.fn y.ctx [(a, len)]
      let x : Xfer := { cmd := y.cmd, ctx := y.ctx, pc := y.pc, isPut := true, len := len, host := host.isSome,
                        reqs := linesOut s1 c y.fn y.ctx [(a, len)] .read,
                        va := host.getD 0 }
      done s (slotDone (linkStart t c x h d (!bit r 63) (xPort w)) c .tx)

/-- LINK_GET (R324): the request is one flit; the local range is translated as the transfer issues. -/
def execLinkGet (c : CoreId) (s : State) : Out :=
  match headSlot s c .tx .xfer 9 with
  | none => done s s
  | some (y, _, w) =>
    let s1 := s.setEng c .tx y
    let len := (y.noun (xDst w)).packed
    let r := (y.gen (xSrcAg w)).addr.toNat
    match xlat s1 c y.fn (some y.ctx) (y.gen (xDstAg w)).addr.toNat len .write with
    | (t, .inr e) => done s (engFail t c .tx e)
    | (t, .inl pa) =>
      let tag := t.lnk.getTag
      let t1 := { t with lnk := { t.lnk with getTag := (tag + 1) % 65536 } }
      let h := mkHdr 2 (fld r 52 10) (ownId s) (xSrc w) y.ctx y.fn (!bit r 63) false 0 0 (fld r 0 52) len tag
      let x : Xfer := { cmd := y.cmd, ctx := y.ctx, pc := y.pc, isGet := true, tag := tag, pa := pa, len := len,
                        sig := xSig w, conj := xConj w }
      done s (slotDone (linkStart t1 c x h [] (!bit r 63) (xPort w)) c .tx)

/-! ## Whole messages at their destination (R327 to R329, R334) -/

/-- A signal of the link unit: applied at once, unless the unit holds signals or an earlier one of the same source is
still on its way (R256, R273). -/
def applyNow (s : State) (g : Signal) : State :=
  if s.syn.dumpBusy || !inOrder s.syn.transit s.syn.transit.length g || inboundFull s g.ctx then sendSignal s g else takeSignal s g

/-- Takes the oldest whole message of VC `v` with opcode `op`. -/
def takeWhole (s : State) (g v op : Nat) : Option (State × Rx) :=
  let p := s.port g
  match p.whole.find? (fun r => r.vc == v && mOp r.hdr == op) with
  | none => none
  | some r => some (s.setPort g { p with whole := p.whole.erase r }, r)

/-- PUT_ARRIVAL (R327 to R329, R334): the last flit of a PUT has arrived; it is accepted or rejected, and signals. Its
context must still be the function's (R2). -/
def execPutArrival (g : PortId) (vc : Fin 4) (s : State) : Out :=
  match takeWhole s g vc 1 with
  | none => done s s
  | some (t, r) =>
    if !(r.ok && (s.ctx (mDstCtx r.hdr)).live && (s.ctx (mDstCtx r.hdr)).fn == mFn r.hdr) then done s (inc16 t (lnkC 0x18))
    else
      let t1 := if r.pa.isNone then inc16 (inc16 t (lnkC 0x1C)) (mmuA (mFn r.hdr) 6) else t
      if !mSig r.hdr then done s t1
      else done s (applyNow t1 {
        ctx := mDstCtx r.hdr, conj := mConj r.hdr, n := 1, short := r.short || r.pa.isNone
        src := { valid := true, ctx := BitVec.ofNat 12 (mSrcCtx r.hdr), chip := BitVec.ofNat 10 (mSrcChip r.hdr), remote := true }
        via := some (g, vc) })

/-- Reads the data of a GET request, flit by flit: the bytes, and the flits that met poison (R328). -/
def getData (s : State) (l : List (Nat × Nat)) (len : Nat) : State × List Byte × List Nat :=
  (List.range (flitCount len)).foldl (fun r i =>
    let (o, n) := flitSpan len i
    match readPieces r.1 (partOf l o n) with
    | (t, some b) => (t, r.2.1 ++ b, r.2.2)
    | (t, none) => (t, r.2.1 ++ List.replicate n 0, r.2.2 ++ [i])) (s, [], [])

/-- The answer to a GET request: its status, data and poisoned flits. -/
def getAnswer (s : State) (h : List Byte) : State × Nat × List Byte × List Nat :=
  if !acceptMsg s h then (inc16 s (lnkC 0x18), 1, [], [])
  else match remoteRange s h .read with
    | (t, none) => (inc16 (inc16 t (lnkC 0x1C)) (mmuA (mFn h) 6), 2, [], [])
    | (t, some l) =>
      let (u, d, bad) := getData t l (mLen h)
      (u, 0, d, bad)

/-- GET_REQ_ARRIVAL (R327 to R329, R331): the request waits for a credit of the response's VC, and is then served. -/
def execGetReqArrival (g : PortId) (vc : Fin 4) (s : State) : Out :=
  match takeWhole s g vc 2 with
  | none => done s s
  | some (t, r) =>
    let h := r.hdr
    let home := !mDirect h && mSrcChip h == ownId s
    let o := if mDirect h then some g.val else routeTo s (mSrcChip h)
    let wait := !home && (match o with | some k => portUp s k && (s.port k).avail.getD (outVc s k 2) 0 == 0 | none => false)
    if wait then done s s
    else
      let (t1, st, d, bad) := getAnswer (if home then t else freeRecv t (some (g, vc))) h
      let rh := mkHdr 3 (mSrcChip h) (ownId s) (mSrcCtx h) (mDstCtx h) (mFn h) (mDirect h) false 0 st 0 d.length (mTag h)
      let flits := mkFlits rh d (flitCount d.length) (fun i => bad.contains i) none
      match sourceMsg t1 (mDirect h) g 2 flits rh with
      | some u => done s u
      | none => done s (inc16 t1 (lnkC 0x10))

/-- A LINK.GET ends: its local signal, short where data is missing (R326, R334). -/
def endGet (s : State) (c : Nat) (x : Xfer) (short : Bool) : State :=
  let t := completeXfer s c { x with sig := false } short
  if x.sig then applyNow t { ctx := x.ctx, conj := x.conj, n := 1, short := short, src := sigSrc c .tx x.ctx x.pc } else t

/-- GET_RESP_ARRIVAL (R334): the response completes the LINK.GET, or is late. -/
def execGetRespArrival (g : PortId) (vc : Fin 4) (s : State) : Out :=
  match takeWhole s g vc 3 with
  | none => done s s
  | some (t, r) => match getOf t (mTag r.hdr) with
    | none => done s (inc16 t (lnkC 0x20))
    | some (c, x) => done s (endGet t c x (r.short || mStatus r.hdr != 0 || mLen r.hdr != x.len))

/-- GET_TIMEOUT (R334): 1 ms after issue. -/
def execGetTimeout (c : CoreId) (n : Nat) (s : State) : Out :=
  match (s.core c).xfers.find? (fun x => x.id == n && x.isGet) with
  | none => done s s
  | some x => if s.time < x.issuedAt + ms then done s s else done s (endGet s c x true)

/-! ## Port events -/

/-- RETRY_TIMEOUT (R323): 1 us without an ack that covers the oldest flit. -/
def execRetryTimeout (g : PortId) (s : State) : Out :=
  let p := s.port g
  if p.st != .up || p.retry.isEmpty || s.time < p.ackWait + 1000 then done s s
  else done s (pump (resend s g) g)

/-- The balance of R332 with the partner's held slots, and its repair. -/
def creditCheck (s : State) (g : Nat) (held : List Nat) : State :=
  let p := s.port g
  let fly (v : Nat) : Nat := (p.retry.filter (fun x => x.flit.kind != 3 && x.flit.vc == v)).length
  let off (v : Nat) : Bool := p.avail.getD v 0 + fly v + held.getD v 0 != 128
  let s1 := modPort s g (fun q => { q with
    avail := (List.range 4).map (fun v => if off v then 128 - held.getD v 0 else q.avail.getD v 0) })
  incF s1 (lnkA g 0x38) 0 16 ((List.range 4).filter off).length

/-- CREDIT_SYNC (R332): the exchange after 1.2 us; `held` are the partner's held slots. This end sends its own flit
whether or not it accepts the partner's. -/
def execCreditSync (f : CtlFlit) (held : List Nat) (s : State) : Out :=
  let g := f.port
  let p := s.port g
  if !wfHeld held then bad "CREDIT_SYNC"
  else if p.st != .up || s.time < p.seqAt + 1200 then done s s
  else
    let (t, ok) := ctlIn s g f.wire
    done s (sendCtl (if ok then creditCheck t g held else t) g .creditSync)

/-- IDENT (R338): a partner that is not the one LINK_TOPOLOGY places there is fenced as miswired. -/
def execIdent (f : CtlFlit) (i : IdentInfo) (s : State) : Out :=
  let g := f.port
  onCtl s g f.wire (fun t =>
    let s1 := modPort t g (fun q => { q with partner := some (i.chip, i.port) })
    let same := match s.charter.topo with
      | some t => t.dims == i.dims && t.sx == i.sx && t.sy == i.sy && t.sz == i.sz && partnerOf s g == some i.chip.toNat
      | none => false
    if same then s1 else wrF (fenceWith s1 g 4) (lnkC 8) 2 1 1)

/-- FENCE_CONTROL_FLIT (R339). -/
def execFenceControlFlit (f : CtlFlit) (s : State) : Out := onCtl s f.port f.wire (fun t => fenceWith t f.port 3)

/-- Sets a chip's bit in LNK_FAILED, and LNK_EVENT.chip_failed (R340). -/
def markFailed (s : State) (d : Nat) : State :=
  wrF (wrF s (lnkC (0x100 + 4 * (d / 32))) (d % 32) 1 1) (lnkC 8) 0 1 1

/-- Sends a CHIP_FAILED notice on every UP port but `but` (R340). -/
def flood (s : State) (failed reporter but : Nat) : State :=
  upTo 16 s (fun t k => if k ≠ but ∧ (t.port k).st = .up then sendCtl t k (.chipFailed failed reporter) else t)

/-- CHIP_FAILED (R340): a notice of a chip already marked goes no further. -/
def execChipFailed (f : CtlFlit) (failed reporter : BitVec 10) (s : State) : Out :=
  onCtl s f.port f.wire (fun t => if chipIsFailed s failed.toNat then t
    else flood (markFailed t failed.toNat) failed.toNat reporter.toNat f.port)

/-- PORT_DOWN (R338). -/
def execPortDown (g : PortId) (s : State) : Out :=
  if (s.port g).st != .up then done s s else done s (goDown s g)

/-- PORT_TRAINING_DONE (R338): a training port is UP and identifies itself. -/
def execPortTrainingDone (g : PortId) (s : State) : Out :=
  let p := s.port g
  if !s.isUp || !s.boot.lref || p.st != .training then done s s
  else done s (sendCtl (modPort s g (fun q => { q with st := .up, cause := 0, seqAt := s.time, ackWait := s.time })) g .ident)

/-- PARTNER_FAILED (R340): the port has not been UP for 1 s. -/
def execPartnerFailed (g : PortId) (s : State) : Out :=
  let p := s.port g
  if p.st != .training || s.time < p.since + 1000 * ms then done s s
  else
    let s1 := fenceWith s g 5
    match partnerOf s g with
    | none => done s s1
    | some d => done s (flood (markFailed s1 d) d (ownId s) g)

/-- The Charter enables the port (R338). -/
def portEnabled (s : State) (g : Nat) : Bool :=
  match s.charter.topo with | some t => t.ports.getLsbD g && !s.charter.isLimp | none => false

/-- A write of fence = 1 (R339). -/
def portFenceOp (s : State) (g : Nat) : State :=
  if !portEnabled s g then s
  else
    let s1 := wrF s (lnkA g 4) 0 1 1
    let p := s1.port g
    if p.st = .fenced then modPort s1 g (fun q => { q with cause := 2 })
    else if p.fenceAt.isSome then s1 else modPort s1 g (fun q => { q with fenceAt := some s.time })

/-- PORT_FENCE (R339). -/
def execPortFence (g : PortId) (s : State) : Out := done s (portFenceOp s g)

/-- FENCE_DRAIN_END (R339): the messages in progress have ended, or 100 us have passed. -/
def execFenceDrainEnd (g : PortId) (s : State) : Out :=
  let p := s.port g
  match p.fenceAt with
  | none => done s s
  | some t =>
    if s.time < t + 100000 ∧ (unfinished p ≠ 0 ∨ p.rx.entries ≠ []) then done s s
    else done s (fenceWith (if p.st = .up then monEvent s 13 g 1 else s) g 2)

/-- A write of fence = 0 (R339, R340). -/
def portUnfenceOp (s : State) (g : Nat) : State :=
  if !portEnabled s g then s
  else
    let s1 := wrF s (lnkA g 4) 0 1 0
    let p := s1.port g
    if p.st = .fenced ∧ p.cause ≠ 3 then
      modPort s1 g (fun q => { q with st := .training, cause := 0, since := s.time })
    else modPort s1 g (fun q => { q with fenceAt := none })

/-- The partner's steward has written fence = 0: a port that it had fenced starts TRAINING at this end too (R339). -/
def farUnfenceOp (s : State) (g : Nat) : State :=
  let p := s.port g
  if p.st = .fenced ∧ p.cause = 3 ∧ s.isUp then
    modPort s g (fun q => { q with st := .training, cause := 0, since := s.time })
  else s

/-- PORT_UNFENCE (R339): at this end, or at the partner's. -/
def execPortUnfence (u : UnfenceAt) (s : State) : Out :=
  done s (if u.far then farUnfenceOp s u.port else portUnfenceOp s u.port)

/-- LNK_ROUTE_SEL.present (R337). -/
def tablesPresent (s : State) : Nat :=
  keptFld s (lnkC 4) 4 4 (upTo 4 0 (fun m k => if (look s.charter.routes.entries k).isSome then m + 2 ^ k else m))

/-- A write of LNK_ROUTE_SEL (R337). -/
def routeSelOp (s : State) (v : Nat) : State :=
  let s1 := if bit v 8 then wrF s (lnkC 4) 8 1 0 else s
  if bit (tablesPresent s) (fld v 0 2) then wrF s1 (lnkC 4) 0 2 (fld v 0 2)
  else wrF s1 (lnkC 4) 8 1 1

/-- ROUTE_SELECT (R337). -/
def execRouteSelect (v : W32) (s : State) : Out := done s (routeSelOp s v.toNat)

/-- LANE_DEGRADE_CHECK (R341): the receivers' reports of 1 ms, its codewords and the corrected ones among them. -/
def execLaneDegradeCheck (g : PortId) (lanes : List LaneInfo) (codewords corrected : Nat) (s : State) : Out :=
  if !wfLanes lanes codewords corrected then bad "LANE_DEGRADE_CHECK"
  else
    let sum := (lanes.map (·.corrected)).sum
    done s (modPort s g (fun q => { q with
      lanes := (List.range 8).foldl (fun (t : Tbl W32) i =>
        let l := lanes.getD i ⟨0, false, false, 0⟩
        t.put 0 i (BitVec.ofNat 32 (l.snr.toNat + (if l.locked then 2 ^ 8 else 0) + (if l.adapting then 2 ^ 9 else 0)
          + Nat.min l.corrected 0xFFFF * 2 ^ 16))) q.lanes
      fecCorr := (q.fecCorr + corrected) % 2 ^ 64
      degraded := q.degraded || codewords * 8 < sum }))

/-- LREF_LOSS (R395): every UP port goes DOWN. -/
def execLrefLoss (s : State) : Out :=
  let t := upTo 16 s (fun t k => if (t.port k).st = .up then goDown t k else t)
  doneBoot s { t with boot := { t.boot with lref := false } }

end Sys2Proof.Machine
end

