-- ==== Sys2Proof/Machine/Mx.lean ====
section
/-! DEFINITION. The MX slots (R136 to R146) and gleaning (R148 to R155). -/

namespace Sys2Proof.Machine

/-! ## Loads (R136, R137) -/

/-- A load issues: its lines are read, and its rows land from `lat` cycles after issue on. `mk` makes the write of a row
with its lanes from position `pos` on. -/
def loadRow (c op lat : Nat) (s : State) (pos : Nat → Nat) (mk : Nat → Nat → Nat → List (Nat × W16) → Write) : Out :=
  match headSlot s c .mx .load op with
  | none => done s s
  | some (y, i, w) =>
    let n := y.noun (sNoun w)
    let b := fld w 11 1
    match ldLines (s.setEng c .mx y) (.ls c y.ctx) n (y.gen (sAg w)).addr.toNat (sRows w) with
    | (t, .inr x) => done s (engFail t c .mx x)
    | (t, .inl lines) =>
      let rows := sRows w / rpk n.fmt * rpk n.fmt
      let z := (List.range rows).foldl (fun (z : ClEng) r =>
        z.fly ⟨y.now + lat + r, y.now, i, mk b r n.fmt (laneRow n.fmt lines (pos b) r)⟩) (t.eng c .mx)
      done s (slotDone (t.setEng c .mx z) c .mx)

/-- LD_A (R136). -/
def execLdA (c : CoreId) (s : State) : Out := loadRow c 1 12 s (fun _ => 0) (fun b => .buf b)
/-- LD_B (R136). -/
def execLdB (c : CoreId) (s : State) : Out := loadRow c 2 12 s (fun _ => 0) (fun b => .buf (2 + b))
/-- LD_ROW (R136). -/
def execLdRow (c : CoreId) (s : State) : Out := loadRow c 3 16 s (fun b => 256 * b) (fun _ => .held)

/-! ## MMA (R138 to R141) -/

/-- MMA with or without the bank's content. A later MMA takes the array (R139); incompatible formats leave the bank
unchanged (R140). -/
def mmaRow (c op : Nat) (s : State) : Out :=
  slotRowS c .mx .op op s (fun t y i w =>
    let x := t.core c
    let k := fld w 16 8 + 1
    let bank := fld w 8 1
    let reuse := fld w 12 4 = 1
    let ai := if reuse then 4 else fld w 9 1
    let bi := 2 + fld w 10 1
    let fa := if reuse then x.heldRows.fmt else (x.bufs.get {} ai).fmt
    let fb := (x.bufs.get {} bi).fmt
    let z := { y with mmas := y.mmas.map (fun r => { r with rows := Nat.min r.rows (y.now - r.issued) }) }
    if mayMeet fa fb then
      let run : MmaRun := {
        id := y.fresh, issued := y.now, k := k, rows := k, bank := bank, acc := op == 2, fmtA := fa, fmtB := fb
        a := capture t x fa ai y.now k
        b := capture t x fb bi y.now k
        c := (x.banks.get {} bank).el.entries
        reuse := reuse }
      t.setEng c .mx (({ z with mmas := z.mmas ++ [run], fresh := y.fresh + 1 } : ClEng).fly ⟨y.now + k + 263, y.now, i, .mma y.fresh⟩)
    else monEvent (inc16 (wrF (t.setEng c .mx z) (coreA c 0x100) 2 1 1) (coreA c 0x104)) 5 c k)

/-- MMA (R138). -/
def execMma (c : CoreId) (s : State) : Out := mmaRow c 1 s
/-- MMA_ACC (R138): the bank is read at issue. -/
def execMmaAcc (c : CoreId) (s : State) : Out := mmaRow c 2 s

/-- SHIFT (R121, R141): the held rows as they stand now, shifted, land at t + 2; running MMAs see them in the rows that
they read from then on (R122). -/
def execShift (c : CoreId) (s : State) : Out :=
  slotRowS c .mx .op 3 s (fun t y i _ =>
    let x := t.core c
    let h := x.heldRows.shift
    let z := y.fly ⟨y.now + 2, y.now, i, .shift h.rowFmt h.lanes⟩
    t.setEng c .mx { z with mmas := z.mmas.map (rereadHeld t { x with mx := z } (y.now + 2)) })

/-- ZERO (R110, R145). -/
def execZero (c : CoreId) (s : State) : Out :=
  slotRow c .mx .op 4 s (fun y i w => y.fly ⟨y.now + 2, y.now, i, .zero (fld w 8 1)⟩)

/-! ## DRAIN (R146) -/

/-- A drain issues: row i of the bank is read at t + i and lands at t + 20 + i. -/
def drainIssue (c : Nat) (t : State) (y : ClEng) (i w : Nat) : ClEng :=
  let bank := fld w 11 1
  let b := (t.core c).banks.get {} bank
  let rows := sRows w
  let d : DrainRun := {
    id := y.fresh, issued := y.now, rows := rows, bank := bank, noun := y.noun (sNoun w), base := (y.gen (sAg w)).addr.toNat
    cap := (List.range rows).map (fun r => (b.isInt, b.row r)) }
  (List.range rows).foldl (fun (z : ClEng) r => z.fly ⟨y.now + 20 + r, y.now, i, .drain y.fresh r⟩)
    { y with drains := y.drains ++ [d], fresh := y.fresh + 1 }

/-- DRAIN (R146). -/
def execDrain (c : CoreId) (s : State) : Out :=
  slotRowS c .mx .store 1 s (fun t y i w => t.setEng c .mx (drainIssue c t y i w))

/-- DRAIN_Z (R146): the bank is zero at t + 257. -/
def execDrainZ (c : CoreId) (s : State) : Out :=
  slotRowS c .mx .store 2 s (fun t y i w =>
    t.setEng c .mx ((drainIssue c t y i w).fly ⟨y.now + 257, y.now, i, .zero (fld w 11 1)⟩))

/-! ## Gleaning (R148 to R155) -/

/-- Rows that a window has admitted. -/
def GlWin.rows (w : GlWin) : Nat := (w.reqs.map (·.m)).sum

/-- The windows that a request of function `f` closes or joins: same function, context and weight handle (R150). -/
def GlWin.keyed (w : GlWin) (f x h : Nat) : Bool := w.fn == f && w.ctx == x && w.wNoun == h

/-- A window is due: chip time has reached its earliest deadline, or nothing is left in it (R151). -/
def GlWin.due (w : GlWin) (now : Nat) : Bool := w.reqs.any (fun r => r.deadline ≤ now) || w.reqs.isEmpty

/-- Admits a request at chip time `now` (R151): it opens a window where none is open for its key, where the open one is
due, or where its rows do not fit; a window that is full, or whose request may not wait, closes. -/
def gleanAdmit (x : Core) (f ctx h now : Nat) (r : GlReq) (noWait : Bool) : Core :=
  let open_ := x.glean.find? (fun w => w.keyed f ctx h)
  let rest := x.glean.filter (fun w => !w.keyed f ctx h)
  let fresh : GlWin := { fn := f, ctx := ctx, wNoun := h, reqs := [r] }
  let (closed, w) : List GlWin × GlWin := match open_ with
    | none => ([], fresh)
    | some w => if w.due now || 256 < w.rows + r.m then ([w], fresh) else ([], { w with reqs := w.reqs ++ [r] })
  if w.rows = 256 ∨ noWait then { x with glean := rest, glQueue := x.glQueue ++ closed ++ [w] }
  else { x with glean := rest ++ [w], glQueue := x.glQueue ++ closed }

/-- GLEAN (R148, R290): the MX dispatcher of the command's core receives the request. -/
def execGlean (f : Fn) (q : Qid) (s : State) : Out :=
  match nextStart s f q 3 (fun c => mayStart s f && resident s c.ctx && c.toStart.all (firstFor s f q c)) with
  | none => done s s
  | some c =>
    match c.toStart with
    | [n] =>
        let r : GlReq := {
          cmd := ⟨f, q, c.seq⟩, aNoun := c.glA, oNoun := c.glO, m := c.glM, deadline := s.time + c.glWait
          conj := c.glConj, sig := c.glSig }
        let s1 := s.setCore n (gleanAdmit (s.core n) f c.ctx c.glW s.time r (c.glWait == 0))
        done s (refresh (modOrder s1 f q c.order (fun k => { k with started := true, toStart := [] })) f)
    | _ => done s s

/-- GLEAN_WINDOW_CLOSE (R151): the first window whose earliest deadline has come closes. -/
def execGleanWindowClose (c : CoreId) (s : State) : Out :=
  let x := s.core c
  match x.glean.find? (·.due s.time) with
  | none => done s s
  | some w => done s (s.setCore c { x with glean := x.glean.filter (fun v => v ≠ w), glQueue := x.glQueue ++ [w] })

/-- A pass's fault record. -/
def glRec (c : Nat) (w : GlWin) (x : XF) : FltRec :=
  { code := x.code, sub := x.sub, level := x.level, eng := some (engId c .mx), ctx := some w.ctx,
    q := w.reqs.head?.map (·.cmd.q), seq := match w.reqs with | r :: _ => r.cmd.seq | [] => 0,
    va := x.va, block := 9, inst := c }

/-- A total divided in proportion to `m` of `sum` rows by integer division; the remainder goes to the first (R155). -/
def shareOf (total : Int) (ms : List Nat) (i : Nat) : Int :=
  let n : Int := (ms.sum : Nat)
  let part (m : Nat) : Int := total * m / n
  part (ms.getD i 0) + if i = 0 then total - (ms.map part).sum else 0

/-- The charges of a pass to its requests (R155). -/
def GlWin.charges (w : GlWin) : List GlCharge :=
  let ms := w.shares.map (·.2)
  (List.range w.shares.length).map (fun i =>
    { cmd := (w.shares.getD i ({}, 0)).1, cyc := (shareOf w.cyc ms i).toNat, lu := shareOf w.lu ms i })

/-- The pass `w` of core `c` has ended: its requests are charged. -/
def endPass (s : State) (c : Nat) (w : GlWin) : State :=
  s.setCore c { s.core c with glPass := none, glCharge := w.charges }

/-- A fault in a pass ends the context, and every request of the pass (R155). -/
def gleanFail (s : State) (c : Nat) (w : GlWin) (x : XF) : State :=
  let s1 := engineFault s w.fn (glRec c w x)
  let s2 := w.reqs.foldl (fun t r =>
    let t1 := cmdFault t r.cmd x.code (some (engId c .mx))
    cmdEnd (trcEng t1 2 c .mx w.ctx r.cmd (tagOf t1 r.cmd) x.code) r.cmd c) s1
  refresh (endPass s2 c w) w.fn

/-- Handles of a pass. -/
def GlWin.handles (w : GlWin) : List Nat := w.wNoun :: w.reqs.flatMap (fun r => [r.aNoun, r.oNoun])

/-- Buffer rows of the K dimension, whole 256-row tiles (R152). -/
def glK (w : Noun) : Nat := ((w.e 0 + perRow w.fmt - 1) / perRow w.fmt * rpk w.fmt + 255) / 256 * 256

/-- Ranges of the window that a pass reads and writes: the weight, and each request's activations and output. -/
def glSpans (w : GlWin) : List (Nat × Nat × Bool) :=
  let lines (n : Noun) (rows cols : Nat) (read : Bool) : List (Nat × Nat × Bool) :=
    (List.range (Nat.min rows (n.e 1))).flatMap (fun i =>
      let a := n.line n.base i 0 0
      let k := Nat.min cols (n.e 0)
      (a, lineBytes n.fmt k, read) ::
        (if isMx n.fmt then [(wrapA ((a : Int) + n.scaleOff), (k + 31) / 32, read)] else []))
  let wn := w.nouns.get {} w.wNoun
  lines wn (wn.e 1) (wn.e 0) true ++ w.reqs.flatMap (fun r =>
    lines (w.nouns.get {} r.aNoun) r.m ((w.nouns.get {} r.aNoun).e 0) true
    ++ lines (w.nouns.get {} r.oNoun) r.m (wn.e 1) false)

/-- A window as it starts its pass at core cycle `now`: each request has its bank rows (R152). -/
def GlWin.begin_ (w : GlWin) (now : Nat) : GlWin :=
  let rs := w.reqs.foldl (fun (l : List GlReq) r => l ++ [{ r with base := (l.map (·.m)).sum }]) []
  { w with reqs := rs, shares := rs.map (fun r => (r.cmd, r.m)), startAt := now }

/-- The next closed window on core `c`: one that every request has left, or the first whose function may run. -/
def nextPass (s : State) (c : Nat) : Option GlWin :=
  (s.core c).glQueue.find? (fun w => w.reqs.isEmpty || (mayStart s w.fn && resident s w.ctx))

/-- Window `w` leaves the queue of core `c`. -/
def takePass (s : State) (c : Nat) (w : GlWin) : State :=
  s.setCore c { s.core c with glQueue := (s.core c).glQueue.filter (fun v => v ≠ w) }

/-- The pass of `w` begins: its requests are traced and counted. -/
def beginPass (s : State) (c : Nat) (w : GlWin) : State :=
  let s2 := w.reqs.foldl (fun t r => trcEng (noteIssue t r.cmd) 1 c .mx w.ctx r.cmd (tagOf t r.cmd) 0) (takePass s c w)
  let s3 := inc32 (inc32 s2 (coreA c 0x108) 1) (coreA c 0x10C) w.reqs.length
  monSample s3 false 14 c w.rows

/-- GLEAN_PASS_START (R151, R152): the pass of the first closed window whose function may run starts on the free MX. -/
def execGleanPassStart (c : CoreId) (s : State) : Out :=
  match nextPass s c with
  | none => done s s
  | some w =>
    if w.reqs.isEmpty then done s (takePass s c w)
    else if !engFree s c .mx w.fn then done s s
    else
      let s4 := beginPass s c w
      match resolveAll s4 c w.ctx (s4.core c).nounStamp w.handles {} with
      | (t, .inr e) => done s (gleanFail t c w e)
      | (t, .inl ns) =>
        let w1 := { w.begin_ (t.core c).cycles with nouns := ns }
        match firstBad ((glSpans w1).map (fun p => lsCheck t c w.ctx p.1 p.2.1 p.2.2)) with
        | some e => done s (gleanFail t c w1 e)
        | none => done s (refresh (t.setCore c { t.core c with glPass := some w1 }) w.fn)

/-- K tiles, and pairs of N tiles, of a pass (R152). -/
def GlWin.kTiles (w : GlWin) : Nat := glK (w.nouns.get {} w.wNoun) / 256
def GlWin.nCols (w : GlWin) : Nat := (w.nouns.get {} w.wNoun).e 1
def GlWin.pairs (w : GlWin) : Nat := (w.nCols + 511) / 512

/-- Elements `lo` to `lo + k` - 1 of the line at `a`. -/
def readPart (s : State) (p : Sp) (n : Noun) (a lo k : Nat) : State × (List (Nat × Nat) ⊕ XF) :=
  (List.range k).foldl (fun r i => match r with
    | (t, .inr e) => (t, .inr e)
    | (t, .inl l) => match readElem t p n a (lo + i) with
      | (u, .inl v) => (u, .inl (l ++ [v]))
      | (u, .inr e) => (u, .inr e)) (s, .inl [])

/-- K-values of K tile `k` of the lines `l0` to `l0 + rows` - 1 of a noun: past the extents, nothing (R136, R137). -/
def glLines (s : State) (p : Sp) (n : Noun) (l0 rows k : Nat) : State × (List (List (Nat × Nat)) ⊕ XF) :=
  let kv := kVals n.fmt 256
  (List.range (Nat.min (l0 + rows) (n.e 1) - l0)).foldl (fun r m => match r with
    | (t, .inr e) => (t, .inr e)
    | (t, .inl l) =>
      match readPart t p n (n.line n.base (l0 + m) 0 0) (k * kv) (Nat.min ((k + 1) * kv) (n.e 0) - k * kv) with
      | (u, .inl v) => (u, .inl (l ++ [v]))
      | (u, .inr e) => (u, .inr e)) (s, .inl [])

/-- One cell of a K tile: the products of an activation line and a weight line added to `acc` (R142 to R144). -/
def glCell (an wn : Noun) (a b : List (Nat × Nat)) (acc : W32) : W32 × Bool :=
  let share (f : Nat) (l : List (Nat × Nat)) : List (Nat × W16) :=
    (List.range 256).map (fun j => (512 * j, rowVal f (fun k => l.getD k (0, 0)) j))
  mmaCell { k := 256, rows := 256, fmtA := some an.fmt, fmtB := some wn.fmt, a := share an.fmt a, b := share wn.fmt b } 0 0 acc

/-- The pass's elements after request `r`'s rows `a` met the weight lines `b` of the pair, and the banks in which an
integer addition saturated. -/
def glAcc (w : GlWin) (r : GlReq) (a b : List (List (Nat × Nat))) : Tbl W32 × List Nat :=
  let an := w.nouns.get {} r.aNoun
  let wn := w.nouns.get {} w.wNoun
  (List.range r.m).foldl (fun z i => (List.range b.length).foldl (fun (z : Tbl W32 × List Nat) j =>
    let key := 65536 * (r.base + i) + 512 * w.pair + j
    let v := glCell an wn (a.getD i []) (b.getD j []) (z.1.get 0 key)
    (z.1.put 0 key v.1, if v.2 then (j / 256 % 2) :: z.2 else z.2)) z) (w.acc, [])

/-- The next K tile of a pass is accumulated: every request's rows, in both banks of the pair, before any is drained
(R152). -/
def glTile (s : State) (c : Nat) (w : GlWin) : State × (GlWin ⊕ XF) :=
  let sp : Sp := .ls c w.ctx
  let wn := w.nouns.get {} w.wNoun
  match glLines s sp wn (512 * w.pair) 512 w.tile with
  | (t, .inr e) => (t, .inr e)
  | (t, .inl b) =>
    let s1 := (List.range ((b.length + 255) / 256)).foldl (fun u _ => monEvent u 5 c 256) t
    match w.reqs.foldl (fun (z : State × (GlWin ⊕ XF)) r => match z with
        | (t, .inr e) => (t, .inr e)
        | (t, .inl w) =>
          let an := w.nouns.get {} r.aNoun
          if !mayMeet (some an.fmt) (some wn.fmt) then
            ((List.range ((b.length + 255) / 256)).foldl (fun u _ => inc16 (wrF u (coreA c 0x100) 2 1 1) (coreA c 0x104)) t, .inl w)
          else match glLines t sp an 0 r.m w.tile with
            | (u, .inr e) => (u, .inr e)
            | (u, .inl a) =>
              let v := glAcc w r a b
              (v.2.foldl (fun u k => noteSat u c k r.cmd) u, .inl { w with acc := v.1 })) (s1, .inl w) with
    | (u, .inr e) => (u, .inr e)
    | (u, .inl w) => (u, .inl { w with tile := w.tile + 1 })

/-- The noun from element `256 t` of each line on: N tile `t` (R152). -/
def Noun.nTile (n : Noun) (t : Nat) : Noun :=
  let off := lineBytes n.fmt (256 * t)
  { n with base := wrapA ((n.base + off : Nat) : Int), ext := (n.e 0 - 256 * t) :: n.ext.drop 1
           scaleOff := n.scaleOff + (8 * t : Nat) - (off : Nat) }

/-- The command of a request is being aborted or is gone: its rows are not drained (R155). -/
def glGone (s : State) (r : GlReq) : Bool := match findCmd s r.cmd with | some k => k.aborting | none => true

/-- Request `r`'s rows of the pair are drained to its output, N tile by N tile (R146, R152). -/
def glDrain (s : State) (c : Nat) (w : GlWin) (r : GlReq) : State :=
  if glGone s r then s else
  let on := w.nouns.get {} r.oNoun
  (List.range (Nat.min 2 ((w.nCols - 512 * w.pair + 255) / 256))).foldl (fun t k =>
    let n := 2 * w.pair + k
    let cols := Nat.min 256 (w.nCols - 256 * n)
    if on.e 0 ≤ 256 * n then t
    else (List.range r.m).foldl (fun u i =>
      (drainRow u (.ls c w.ctx) (on.nTile n) (on.nTile n).base i (isIntFmt (w.nouns.get {} w.wNoun).fmt)
        ((List.range cols).map (fun j => w.acc.get 0 (65536 * (r.base + i) + 256 * n + j)))).1) t) s

/-- Every K tile of the last pair is accumulated: only drains are left. -/
def GlWin.summed (w : GlWin) : Bool := w.pairs ≤ w.pair + 1 && w.kTiles ≤ w.tile

/-- The pass up to its next stop point (R154): what stands before the next K tile, or all of it. -/
def glStep (s : State) (c : Nat) (w : GlWin) : State × (GlWin ⊕ XF) :=
  if w.summed then (s, .inl w)
  else if 0 < w.tile ∧ !w.bad.isEmpty then (s, .inr { code := 3 })
  else if w.tile < w.kTiles then glTile s c { w with bad := [] }
  else (w.reqs.foldl (fun t r => glDrain t c w r) s, .inl { w with pair := w.pair + 1, tile := 0, acc := {} })

/-- At most `n` K tiles and drains of a pass. -/
def glRun (c : Nat) : Nat → State → GlWin → State × (GlWin ⊕ XF)
  | 0, s, w => (s, .inl w)
  | n + 1, s, w => match glStep s c w with
    | (t, .inr e) => (t, .inr e)
    | (t, .inl v) => glRun c n t v

/-- K tiles and drains that a whole pass takes. -/
def GlWin.steps (w : GlWin) : Nat := w.pairs * (w.kTiles + 1)

/-- GLEAN_REQUEST_DONE (R152, R155): what is left of the accumulation is made, the next request's rows of the last pair
land in its output, and it completes and signals. A request that is being aborted is not drained. -/
def execGleanRequestDone (c : CoreId) (s : State) : Out :=
  match (s.core c).glPass with
  | none => done s s
  | some w0 =>
    if w0.stopped || !s.clocked then done s s
    else match w0.reqs with
    | [] => done s (refresh (endPass s c w0) w0.fn)
    | r :: rest =>
      match glRun c w0.steps s w0 with
      | (t, .inr e) => done s (gleanFail t c w0 e)
      | (t, .inl w) =>
        if !w.bad.isEmpty then done s (gleanFail t c w { code := 3 }) else
        let gone := glGone t r
        let t1 := glDrain t c w r
        let t2 := if r.sig && !gone then sendSignal t1 { ctx := w.ctx, conj := r.conj, n := 1, src := sigSrc c .mx w.ctx 0 } else t1
        let t3 := cmdEnd (trcEng t2 2 c .mx w.ctx r.cmd (tagOf t2 r.cmd) (if gone then 0xFF else 0)) r.cmd c
        done s (refresh (if rest.isEmpty then endPass t3 c w
          else t3.setCore c { t3.core c with glPass := some { w with reqs := rest } }) w.fn)

/-! ## Stop points (R124, R126, R154) -/

/-- K tiles that a pass has begun when it is asked to stop: one each 519 core cycles (R152, R153). -/
def GlWin.begun (w : GlWin) : Nat := (w.stopAt - w.startAt + 518) / 519

/-- Steps that take a pass through `n` more K tiles, with the drains between pairs, to a stop point. -/
def GlWin.stepsFor (w : GlWin) (n : Nat) : Nat := n + (w.tile + n) / w.kTiles

/-- A pass that was asked to stop has come to the next stop point: the K tiles that it had begun are accumulated. With
none left before it, it goes on to its end. -/
def passStop (s : State) (c : Nat) (w : GlWin) : State :=
  match glRun c (w.stepsFor w.begun) s w with
  | (t, .inr e) => gleanFail t c w e
  | (t, .inl v) => t.setCore c { t.core c with glPass := some { v with stopped := !v.summed } }

/-- A stream stops before a clause with stop = 1, and every issued result lands. A wait of that clause is evaluated again
after the restore. -/
def streamStop (s : State) (c : Nat) (e : CE) (k : Clause) : State :=
  let s1 := flush (landAll s c e) c e
  let s2 := takeBackGb (dropWaiter s1 c e) c e
  let s3 := match e with | .mx => dropDead s2 c k.accLive | .tx => s2
  s3.setEng c e { s3.eng c e with stopped := true, accLive := k.accLive, clause := none, waitOk := false
                                  waiting := none, pc := k.addr, st := .issuing }

/-- STOP_POINT_REACHED (R124, R126, R154): the stream of the engine, or the MX's gleaning pass, stands at a stop point
after a preemption request. -/
def execStopPointReached (c : CoreId) (e : CE) (s : State) : Out :=
  match (if e = .mx then (s.core c).glPass else none) with
  | some w => if s.clocked && w.stop && !w.stopped && !w.summed then done s (passStop s c w) else done s s
  | none =>
    let y := s.eng c e
    match y.clause with
    | none => done s s
    | some k =>
      if !s.clocked || !y.live || !y.stopPending || !k.stop || !y.between || y.aborting then done s s
      else done s (streamStop s c e k)

end Sys2Proof.Machine
end

