-- ==== Sys2Proof/Machine/Slots.lean ====
section
/-! DEFINITION. The slots that both clause engines have: CTRL, SYNC, AGU and SCALAR (R110, R114, R115, R118, R119). -/

namespace Sys2Proof.Machine

/-! ## CTRL -/

/-- The branch to the slot's offset, from the first byte of this clause (R109). -/
def ClEng.branchTo (y : ClEng) (w : Nat) : ClEng :=
  { y with taken := true, branch := some (wrapA ((y.pc : Int) + 8 * sgn (fld w 32 32) 32)) }

def ClEng.branchIf (y : ClEng) (b : Bool) (w : Nat) : ClEng := if b then y.branchTo w else y

/-- Scalar and loop counter of a CTRL slot. -/
def ctrlS (w : Nat) : Nat := fld w 8 5
def ctrlLc (w : Nat) : Nat := fld w 13 2

/-- JMP (R110). -/
def execJmp (c : CoreId) (e : CE) (s : State) : Out := slotRow c e .ctrl 1 s (fun y _ w => y.branchTo w)

/-- BRZ (R110): s is read at the last execution. -/
def execBrz (c : CoreId) (e : CE) (s : State) : Out :=
  slotRow c e .ctrl 2 s (fun y _ w => y.branchIf (y.sc (ctrlS w) == 0) w)

/-- BRNZ (R110). -/
def execBrnz (c : CoreId) (e : CE) (s : State) : Out :=
  slotRow c e .ctrl 3 s (fun y _ w => y.branchIf (y.sc (ctrlS w) != 0) w)

/-- LOOP (R110): the counter lands at t + 1. -/
def execLoop (c : CoreId) (e : CE) (s : State) : Out :=
  slotRow c e .ctrl 4 s (fun y i w =>
    let v := y.lc.get 0 (ctrlLc w) - 1
    (y.fly ⟨y.now + 1, y.now, i, .lc (ctrlLc w) v⟩).branchIf (v != 0) w)

/-- SETLC (R110). -/
def execSetlc (c : CoreId) (e : CE) (s : State) : Out :=
  slotRow c e .ctrl 5 s (fun y i w => y.fly ⟨y.now + 1, y.now, i, .lc (ctrlLc w) (BitVec.ofNat 16 (fld w 16 16))⟩)

/-! ## SYNC: releases (R115) -/

/-- Adds a release operation, which waits for the stream's earlier writes and transfers. -/
def addRelease (s : State) (c : Nat) (e : CE) (r : Release) : State :=
  let y := s.eng c e
  let xs := match e with
    | .tx => ((s.core c).xfers.filter (fun x => x.cmd == y.cmd)).map (·.id)
    | .mx => []
  flush (s.setEng c e { y with releases := y.releases ++ [⟨r, y.now, xs, y.pc⟩] }) c e

/-- SIG (R115). -/
def execSig (c : CoreId) (e : CE) (s : State) : Out :=
  slotRowS c e .sync 1 s (fun t _ _ w => addRelease t c e (.sig (sConj w) (BitVec.ofNat 32 (sImm w))))

/-- BW_ARRIVE (R115, R266). -/
def execBwArrive (c : CoreId) (e : CE) (s : State) : Out :=
  slotRowS c e .sync 3 s (fun t _ _ w => addRelease t c e (.bw (sBar w)))

/-- GB_ARRIVE (R115, R269). -/
def execGbArrive (c : CoreId) (e : CE) (s : State) : Out :=
  slotRowS c e .sync 5 s (fun t _ _ w => addRelease t c e (.gb (sBar w) (BitVec.ofNat 32 (sImm w))))

/-! ## SYNC: waits (R114) -/

/-- An arrival of the stream has not been performed yet. -/
def arrivalDue (y : ClEng) : Bool := y.gbHeld || y.releases.any (fun r => match r.r with | .sig _ _ => false | _ => true)

/-- The wait of the fetched clause, opcode `op`, is evaluated once, before the first execution. `reg` registers it or
finds it satisfied. -/
def waitRow (c : Nat) (e : CE) (op : Nat) (s : State) (reg : ClEng → Nat → State × Obj × Bool) : Out :=
  let y := s.eng c e
  match y.clause with
  | none => done s s
  | some k => match k.slot 1 with
    | none => done s s
    | some w =>
      if opc w ≠ op ∨ !y.live ∨ y.st ≠ .issuing ∨ y.waitOk ∨ y.done ≠ 0 ∨ !y.issuing.isEmpty ∨ y.aborting ∨ s.syn.dumpBusy ∨ !s.clocked then
        done s s
      else match reg y w.toNat with
        | (t, _, true) => done s (t.setEng c e { t.eng c e with waitOk := true })
        | (t, o, false) => done s (t.setEng c e { t.eng c e with waiting := some (o, BitVec.ofNat 32 (sImm w.toNat)), st := .held })

/-- WAIT (R114, R254). -/
def execWait (c : CoreId) (e : CE) (s : State) : Out :=
  waitRow c e 2 s (fun y w =>
    let r := waitConj s y.ctx (sConj w) (BitVec.ofNat 32 (sImm w)) (engId c (CE.eng e)) 0 y.cmd
    (r.1, .conj y.ctx (sConj w), r.2))

/-- A barrier wait, once the stream's own arrivals have been performed (R267). -/
def barWait (c : Nat) (e : CE) (s : State) (o : ClEng → Nat → Obj) (y : ClEng) (w : Nat) : State × Obj × Bool :=
  let r := waitBar s (o y w) y.ctx y.arrival (engId c (CE.eng e)) 0
  (r.1, o y w, r.2)

/-- BW_WAIT (R114, R267). -/
def execBwWait (c : CoreId) (e : CE) (s : State) : Out :=
  if arrivalDue (s.eng c e) then done s s
  else waitRow c e 4 s (barWait c e s (fun _ w => .wire (sBar w)))

/-- GB_WAIT (R114, R267). -/
def execGbWait (c : CoreId) (e : CE) (s : State) : Out :=
  if arrivalDue (s.eng c e) then done s s
  else waitRow c e 6 s (barWait c e s (fun y w => .group y.ctx (sBar w)))

/-! ## AGU (R118 to R120) -/

/-- An AGU row: the fields `v` of the slot's generator land at t + 2. -/
def aguRow (c : Nat) (e : CE) (op : Nat) (s : State) (v : ClEng → Nat → Agu → Agu) : Out :=
  slotRow c e .agu op s (fun y i w =>
    let y1 := y.fly ⟨y.now + 2, y.now, i, .gen (sAg w) op (v y w (y.gen (sAg w)))⟩
    { y1 with aguSet := sAg w :: y1.aguSet })

/-- Scalar of an AGU slot. -/
def aguS (y : ClEng) (w : Nat) : W64 := y.sc (fld w 11 5)

/-- AG_LIN (R118). -/
def execAgLin (c : CoreId) (e : CE) (s : State) : Out :=
  aguRow c e 1 s (fun y w g => { g with start := aguS y w + sImm64 w, addr := aguS y w + sImm64 w })

/-- AG_NOUN (R118). -/
def execAgNoun (c : CoreId) (e : CE) (s : State) : Out :=
  aguRow c e 2 s (fun y w g =>
    let a := BitVec.ofNat 64 (y.noun (fld w 16 12)).base + sImm64 w
    { g with start := a, addr := a })

/-- AG_IDX (R119). -/
def execAgIdx (c : CoreId) (e : CE) (s : State) : Out :=
  aguRow c e 3 s (fun y w g => { g with idx := y.noun (fld w 16 12), rowBase := aguS y w, rowStride := sImm64 w })

/-- AG_STEP0 (R118). -/
def execAgStep0 (c : CoreId) (e : CE) (s : State) : Out :=
  aguRow c e 4 s (fun _ w g => { g with step0 := sImm64 w, count0 := BitVec.ofNat 16 (fld w 16 16) })

/-- AG_STEP1 (R118). -/
def execAgStep1 (c : CoreId) (e : CE) (s : State) : Out :=
  aguRow c e 5 s (fun _ w g => { g with step1 := sImm64 w })

/-- AG_ADD (R110). -/
def execAgAdd (c : CoreId) (e : CE) (s : State) : Out :=
  aguRow c e 6 s (fun y w g => { g with addr := g.addr + aguS y w + sImm64 w, pos := g.pos + BitVec.ofNat 32 (sImm w) })

/-- AG_RESET (R110). -/
def execAgReset (c : CoreId) (e : CE) (s : State) : Out := aguRow c e 7 s (fun _ _ g => g)

/-! ## SCALAR (R110, R121) -/

def scA (y : ClEng) (w : Nat) : W64 := y.sc (fld w 13 5)
def scB (y : ClEng) (w : Nat) : W64 := y.sc (fld w 18 5)

/-- A scalar row whose result lands `lat` cycles after issue. -/
def scalarRow (c : Nat) (e : CE) (op lat : Nat) (s : State) (v : ClEng → Nat → W64) : Out :=
  slotRow c e .scalar op s (fun y i w => y.fly ⟨y.now + lat, y.now, i, .scal (fld w 8 5) (v y w)⟩)

/-- b + imm32. -/
def scBi (y : ClEng) (w : Nat) : W64 := scB y w + sImm64 w

/-- ADD (R110). -/
def execAdd (c : CoreId) (e : CE) (s : State) : Out := scalarRow c e 1 1 s (fun y w => scA y w + scBi y w)
/-- SUB (R110). -/
def execSub (c : CoreId) (e : CE) (s : State) : Out := scalarRow c e 2 1 s (fun y w => scA y w - scBi y w)
/-- AND (R110). -/
def execAnd (c : CoreId) (e : CE) (s : State) : Out := scalarRow c e 3 1 s (fun y w => scA y w &&& scBi y w)
/-- OR (R110). -/
def execOr (c : CoreId) (e : CE) (s : State) : Out := scalarRow c e 4 1 s (fun y w => scA y w ||| scBi y w)
/-- XOR (R110). -/
def execXor (c : CoreId) (e : CE) (s : State) : Out := scalarRow c e 5 1 s (fun y w => scA y w ^^^ scBi y w)
/-- SHL (R110): the count is bits [5:0]. -/
def execShl (c : CoreId) (e : CE) (s : State) : Out :=
  scalarRow c e 6 1 s (fun y w => scA y w <<< ((scBi y w).toNat % 64))
/-- SHR (R110): logical. -/
def execShr (c : CoreId) (e : CE) (s : State) : Out :=
  scalarRow c e 7 1 s (fun y w => scA y w >>> ((scBi y w).toNat % 64))
/-- MUL (R110). -/
def execMul (c : CoreId) (e : CE) (s : State) : Out := scalarRow c e 8 3 s (fun y w => scA y w * scB y w)
/-- MOVI (R110). -/
def execMovi (c : CoreId) (e : CE) (s : State) : Out := scalarRow c e 9 1 s (fun _ w => sImm64 w)
/-- MOVHI (R110): the low half stays. -/
def execMovhi (c : CoreId) (e : CE) (s : State) : Out :=
  scalarRow c e 10 1 s (fun y w =>
    BitVec.ofNat 64 ((y.sc (fld w 8 5)).toNat % 2 ^ 32 + sImm w * 2 ^ 32))

/-- A write to the local store. -/
def Land.isLs (l : Land) : Bool := match l.w with | .ls _ _ => true | .drain _ _ => true | _ => false

/-- Local-store writes that have landed by cycle `t` are in memory. -/
def landLs (s : State) (c : Nat) (e : CE) (t : Nat) : State :=
  let y := s.eng c e
  (y.inflight.filter (fun l => l.isLs && l.at_ ≤ t)).foldl (fun u l => landOne u c e l)
    (s.setEng c e { y with inflight := y.inflight.filter (fun l => !(l.isLs && l.at_ ≤ t)) })

/-- LDS (R110, R121): the local store is read at t + 2, the result lands at t + 14. -/
def execLds (c : CoreId) (e : CE) (s : State) : Out :=
  match headSlot s c e .scalar 11 with
  | none => done s s
  | some (y, i, w) =>
    let s1 := landLs (s.setEng c e y) c e (y.now + 2)
    match readSp s1 (.ls c y.ctx) (lsOff y w) 8 with
    | (t, .inr x) => done s (engFail t c e x)
    | (t, .inl b) =>
      done s (slotDone (t.setEng c e ((t.eng c e).fly ⟨y.now + 14, y.now, i, .scal (fld w 8 5) (BitVec.ofNat 64 (leNat b))⟩)) c e)

/-- STS (R110, R121). -/
def execSts (c : CoreId) (e : CE) (s : State) : Out :=
  slotRow c e .scalar 12 s (fun y i w => y.fly ⟨y.now + 6, y.now, i, .ls (lsOff y w) (leBytes 8 (scB y w).toNat)⟩)

/-- RDAG (R110). -/
def execRdag (c : CoreId) (e : CE) (s : State) : Out :=
  scalarRow c e 13 1 s (fun y w => (y.gen (fld w 13 5 % 8)).addr)

/-- RDTIME (R110). -/
def execRdtime (c : CoreId) (e : CE) (s : State) : Out := scalarRow c e 14 1 s (fun _ _ => BitVec.ofNat 64 s.time)

end Sys2Proof.Machine
end

