-- ==== Sys2Proof/Machine/Issue.lean ====
section
/-! DEFINITION. The issue of a clause (R113, R114, R116): what would stop any of its executions - a hazard (R131), a fault
(R129) - is found before the first one issues, by trying them all on a copy of the state. -/

namespace Sys2Proof.Machine

/-- The meaning of a slot's operation, at the head of its engine's issued execution. -/
def slotMeaning (c : CoreId) (e : CE) (ty : SlotTy) (op : Nat) (s : State) : Out :=
  match ty with
  | .agu => match op with
    | 1 => execAgLin c e s | 2 => execAgNoun c e s | 3 => execAgIdx c e s | 4 => execAgStep0 c e s
    | 5 => execAgStep1 c e s | 6 => execAgAdd c e s | 7 => execAgReset c e s | _ => done s s
  | .load => match op with
    | 1 => execLdA c s | 2 => execLdB c s | 3 => execLdRow c s | _ => done s s
  | .op => match op with
    | 1 => execMma c s | 2 => execMmaAcc c s | 3 => execShift c s | 4 => execZero c s | _ => done s s
  | .store => match op with
    | 1 => execDrain c s | 2 => execDrainZ c s | _ => done s s
  | .xfer => match op with
    | 1 => execCopy c s | 2 => execReshape c s | 3 => execConvert c s | 4 => execGather c s | 5 => execScatter c s
    | 6 => execEmbedPool c s | 7 => execEmbedGather c s | 8 => execLinkPut c s | 9 => execLinkGet c s | _ => done s s
  | .scalar => match op with
    | 1 => execAdd c e s | 2 => execSub c e s | 3 => execAnd c e s | 4 => execOr c e s | 5 => execXor c e s
    | 6 => execShl c e s | 7 => execShr c e s | 8 => execMul c e s | 9 => execMovi c e s | 10 => execMovhi c e s
    | 11 => execLds c e s | 12 => execSts c e s | 13 => execRdag c e s | 14 => execRdtime c e s | _ => done s s
  | .ctrl => match op with
    | 1 => execJmp c e s | 2 => execBrz c e s | 3 => execBrnz c e s | 4 => execLoop c e s | 5 => execSetlc c e s | _ => done s s
  | .sync => match op with
    | 1 => execSig c e s | 3 => execBwArrive c e s | 5 => execGbArrive c e s | _ => done s s

/-- A slot tried on a copy. -/
def trySlot (c : CoreId) (e : CE) (s : State) (p : Nat × W64) : State :=
  match slotMeaning c e (slotTy e p.1) (opc p.2) s with
  | .next t => { t with freeIdx := s.freeIdx }
  | _ => s

/-- What stops a clause before it issues: a failed check (slot, kind, resource, cycles short), or a fault. -/
inductive Stop
  | hazard (slot kind res short : Nat)
  | fault (x : XF)
deriving DecidableEq, Repr

/-- The cycle of the engine's next execution (R113). -/
def issueAt (y : ClEng) (k : Clause) : Nat := if y.done = 0 then y.next + k.delay else y.next

/-- The engine with an execution issued at `t`: the slots `l` act, and hazard-watch tracks their writes. -/
def issueExec (y : ClEng) (k : Clause) (e : CE) (l : List (Nat × W64)) (t : Nat) (on : Bool) : ClEng :=
  { y with issuing := l, now := t, first := if y.done = 0 then t else y.first, hz := if on then hzTrack y k e l t else [] }

/-- The next execution of clause `k` tried on a copy: the copy after it, or what stops it. The copy's fault log starts
empty, so that a fault of a slot shows in it. -/
def tryExec (c : CoreId) (e : CE) (k : Clause) (on check : Bool) (s : State) : State × Option Stop :=
  let t := issueAt (s.eng c e) k
  let s1 := landDue s c e t
  let y := s1.eng c e
  let l := actingSlots k (y.done + 1 = k.execs)
  match (if check then hzCheck y k e l t else none) with
  | some (slot, kind, res, short) => (s1, some (.hazard slot kind res short))
  | none =>
    match firstBad (l.map (fun p => slotFault s1 c y k (slotTy e p.1) p.2)) with
    | some x => (s1, some (.fault x))
    | none =>
      let act := l.filter (fun p => 2 ≤ p.1)
      let y1 := issueExec y k e l t on
      let s2 := act.foldl (trySlot c e) (s1.setEng c e { y1 with issuing := act })
      let s3 := if act.isEmpty then finishExec s2 c e else s2
      match (s3.flt y.fn).recs with
      | r :: _ => (s3, some (.fault ⟨r.code, r.sub, r.level, r.va⟩))
      | [] => (s3, none)

/-- The next `n` executions of clause `k` tried on a copy: what stops the first that does not go through. -/
def tryClause (c : CoreId) (e : CE) (k : Clause) (on check : Bool) : Nat → State → Option Stop
  | 0, _ => none
  | n + 1, s => match tryExec c e k on check s with
    | (_, some x) => some x
    | (t, none) => tryClause c e k on check n t

/-- What stops clause `k` before its first execution issues (R129, R131). -/
def preflight (c : CoreId) (e : CE) (k : Clause) (s : State) : Option Stop :=
  let y := s.eng c e
  let on := hwOn s c e
  tryClause c e k on (on && !y.unchecked) k.execs (s.setFlt y.fn {})

/-- One execution issues at its cycle; what is due by then has landed. -/
def issueOne (s : State) (c : Nat) (e : CE) (k : Clause) : State :=
  let t := issueAt (s.eng c e) k
  let s1 := flush (landDue s c e t) c e
  let y := s1.eng c e
  let l := actingSlots k (y.done + 1 = k.execs)
  let s2 := s1.setEng c e (issueExec y k e l t (hwOn s1 c e))
  let s3 := monEvent (noteIssue s2 y.cmd) 4 (engId c (CE.eng e)).toNat 1
  if l.isEmpty then finishExec s3 c e else s3

/-- CLAUSE_ISSUE (R113, R114, R116): one execution issues. The slots act in the rows of their operations. Before the first,
a hazard parks the engine and a fault ends the stream, and nothing of the clause issues; from then on nothing holds it. -/
def execClauseIssue (c : CoreId) (e : CE) (s : State) : Out :=
  let y := s.eng c e
  match y.clause with
  | none => done s s
  | some k =>
    let first := y.done = 0
    if !s.clocked || !y.live || y.st != .issuing || !y.waitOk || !y.issuing.isEmpty
        || (first && (y.gbHeld || y.aborting || (y.stopPending && k.stop))) then done s s
    else match (if first then preflight c e k s else none) with
      | some (.hazard slot kind res short) => done s (park (flush (landDue s c e (issueAt y k)) c e) c e slot kind res short)
      | some (.fault x) => done s (engFail (flush (landDue s c e (issueAt y k)) c e) c e x)
      | none => done s (issueOne s c e k)

end Sys2Proof.Machine
end

