-- ==== Sys2Proof/Machine/Pci.lean ====
section
/-! DEFINITION. What the device reports in PCIe configuration space (R41 to R43, R275) and through AER (R233). Requests
to configuration space are no commands of the block (log entry 27): a read of one is a function of the state. -/

namespace Sys2Proof.Machine

/-- Subsystem ID of a part type (R275). -/
def subsystemId : W16 := if Config.partW then 0x0002 else 0x0001

/-- The values that R275 and R43 give configuration space. -/
inductive CfgItem
  | vendorId | deviceId | revisionId | classCode | subVendorId | subsystemId | linkWidth | linkMaxGts | flitMode | sriov
  | totalVfs | vfDeviceId | bar0Mib | ats | pri | pasid | ptmRequester | aer | acs (k : Fin 4) | flr | tags10 | nonPosted
  | maxPayload | maxReadReq | msixVectors | msi | atomicRequester | atomicCompleter | aspmL0s | aspmL1 | l0p | ltr
  | aerUncorrectable
deriving DecidableEq, Repr

/-- The value that function `f` reports for an item while its requests are answered. The PF is function 0; SR-IOV,
TotalVFs, the VF device ID and ACS are the PF's alone. -/
def cfgValue (s : State) (f : Nat) (i : CfgItem) : Nat :=
  let c := s.boot.pci
  let n (b : Bool) : Nat := if b then 1 else 0
  let pf (v : Nat) : Nat := if f = 0 then v else 0
  match i with
  | .vendorId => if f = 0 then c.vendor.toNat else 0xFFFF
  | .deviceId => if f = 0 then c.pfDevice.toNat else 0xFFFF
  | .revisionId => c.revision.toNat
  | .classCode => c.classCode.toNat
  | .subVendorId => c.subVendor.toNat
  | .subsystemId => Sys2Proof.Machine.subsystemId.toNat
  | .linkWidth => c.lanes
  | .linkMaxGts => Nat.min c.maxGts s.boot.linkGts
  | .flitMode => n (c.flit && s.boot.linkGts == 64)
  | .sriov => pf (n c.sriov)
  | .totalVfs => pf c.totalVfs
  | .vfDeviceId => pf c.vfDevice.toNat
  | .bar0Mib => if f = 0 then c.pfBarMib else c.vfBarMib
  | .ptmRequester => n c.ptm
  | .aer => 1
  | .acs k => pf (n (c.acs.getD k false))
  | .flr => n c.flr
  | .tags10 => n c.tenBitTags
  | .nonPosted => c.nonPosted
  | .maxPayload => c.maxPayload
  | .maxReadReq => c.maxReadReq
  | .msixVectors => c.msixVectors
  | .atomicRequester => n c.atomicReq
  | .ats | .pri | .pasid | .msi | .atomicCompleter | .aspmL0s | .aspmL1 | .l0p | .ltr => 0
  | .aerUncorrectable => (c.aer.get 0 f).toNat

/-- The answer to a configuration read of an item; none with the link down, and CRS before READY or LIMP (R42). -/
def cfgRead (s : State) (f : Nat) (i : CfgItem) : Option Nat :=
  if !s.boot.link || crsNow s then none else some (cfgValue s f i)

/-- The bit of the AER uncorrectable error status that a failed host read sets (PRESUMED, log entry 114: the bits of the
PCIe base specification; R233 leaves the logging to it). -/
def aerBit : HostErr → Nat
  | .ur => 20 | .ca => 15 | .poisoned => 12 | .timeout => 14

/-- A failed host read of function `f` is logged through AER (R233). -/
def aerLog (s : State) (f : Nat) (e : HostErr) : State :=
  let p := s.boot.pci
  { s with boot := { s.boot with pci := { p with aer := p.aer.put 0 f (p.aer.get 0 f ||| BitVec.ofNat 32 (2 ^ aerBit e)) } } }

end Sys2Proof.Machine
end

