-- ==== Sys2Proof/Machine/Operands.lean ====
section
/-! DEFINITION. Operands of thread instructions: registers of a punnet, executing lanes, source values in both widths,
floating-point modifiers, addresses (R183 to R185, R189, R193). -/

namespace Sys2Proof.Machine

/-! ## Registers of a punnet (R156) -/

def PunRegs.vg (r : PunRegs) (n l : Nat) : W32 := r.v.get 0 (32 * n + l)
def PunRegs.ug (r : PunRegs) (n : Nat) : W64 := r.u.get 0 n
def PunRegs.pg (r : PunRegs) (n : Nat) : W32 := r.p.get 0 n
/-- A write of a vector element: it is whole, so it takes away poison (R231, R232). -/
def PunRegs.vset (r : PunRegs) (n l : Nat) (x : W32) : PunRegs :=
  { r with v := r.v.put 0 (32 * n + l) x, bad := r.bad.filter (fun k => k != 32 * n + l) }
def PunRegs.uset (r : PunRegs) (n : Nat) (x : W64) : PunRegs := { r with u := r.u.put 0 n x }
def PunRegs.pset (r : PunRegs) (n : Nat) (x : W32) : PunRegs := { r with p := r.p.put 0 n x }

/-- Lanes of a mask in ascending order. -/
def lanesOf (m : W32) : List Nat := (List.range 32).filter (fun l => m.getLsbD l)

/-- One lane as a mask. -/
def laneBit (l : Nat) : W32 := 1#32 <<< l

/-- A mask from a test of each lane. -/
def maskOf (f : Nat → Bool) : W32 := (List.range 32).foldl (fun m l => if f l then m ||| laneBit l else m) 0

/-- The executing lanes (R183). -/
def execLanes (r : PunRegs) (w : W64) : W32 :=
  if tPe w then r.active &&& (if tPn w then ~~~(r.pg (tPg w)) else r.pg (tPg w)) else r.active

/-! ## Source values (R185) -/

/-- The 32-bit value of a 9-bit operand field in lane `l`: the low half of a uniform register. -/
def src32 (r : PunRegs) (f l : Nat) : W32 := if f ≥ 256 then (r.ug (f - 256)).setWidth 32 else r.vg f l

/-- Format I or M or B or S words have no 9-bit operand a, b, c. -/
def isI (w : W64) : Bool := teFmt (tOp w) == some .i

/-- Operand a. -/
def a32 (r : PunRegs) (w : W64) (l : Nat) : W32 :=
  if isI w then (if tAu w then (r.ug (tAi w)).setWidth 32 else r.vg (tAi w) l) else src32 r (tA w) l
/-- Operand b: imm32 in format I. -/
def b32 (r : PunRegs) (w : W64) (l : Nat) : W32 := if isI w then tImm w else src32 r (tB w) l
def c32 (r : PunRegs) (w : W64) (l : Nat) : W32 := src32 r (tC w) l

/-- The same operands in an operation with a uniform destination: 64 bits, imm32 sign-extended. -/
def a64 (r : PunRegs) (w : W64) : W64 := if isI w then r.ug (tAi w) else r.ug (tA w - 256)
def b64 (r : PunRegs) (w : W64) : W64 := if isI w then (tImm w).signExtend 64 else r.ug (tB w - 256)
def c64 (r : PunRegs) (w : W64) : W64 := r.ug (tC w - 256)

/-- Writes v(d) in the lanes of `ex`. -/
def putLanes (r : PunRegs) (d : Nat) (ex : W32) (f : Nat → W32) : PunRegs :=
  (lanesOf ex).foldl (fun t l => t.vset d l (f l)) r

/-- The result of an operation with both widths: v(d) per executing lane, or u(d) once (R185). -/
def putResult (r : PunRegs) (w : W64) (ex : W32) (f : Nat → W32) (g : W64) : PunRegs :=
  if tDu w then (if ex = 0 then r else r.uset (tD w) g) else putLanes r (tD w) ex f

/-! ## Integer operations of both widths (R187) -/

/-- The high half of a product. -/
def mulHigh {n : Nat} (uns : Bool) (a b : BitVec n) : BitVec n :=
  if uns then BitVec.ofNat n (a.toNat * b.toNat / 2 ^ n) else BitVec.ofInt n (a.toInt * b.toInt / 2 ^ n)

/-- Less-than, signed or unsigned. -/
def less {n : Nat} (uns : Bool) (a b : BitVec n) : Bool := if uns then a.ult b else a.slt b

def minOf {n : Nat} (uns : Bool) (a b : BitVec n) : BitVec n := if less uns b a then b else a
def maxOf {n : Nat} (uns : Bool) (a b : BitVec n) : BitVec n := if less uns a b then b else a

/-- Shift count: b[4:0], or b[5:0] in 64-bit operations. -/
def count {n : Nat} (b : BitVec n) : Nat := b.toNat % n

def shiftRight {n : Nat} (arith : Bool) (a b : BitVec n) : BitVec n :=
  if arith then a.sshiftRight (count b) else a >>> count b

/-- Number of ones, and of zeros above the highest one. -/
def ones {n : Nat} (a : BitVec n) : BitVec n := BitVec.ofNat n ((List.range n).filter (fun i => a.getLsbD i)).length
def leadZeros {n : Nat} (a : BitVec n) : BitVec n := BitVec.ofNat n (n - bitLen a.toNat)

/-- The bits in reverse order. -/
def reversed {n : Nat} (a : BitVec n) : BitVec n :=
  (List.range n).foldl (fun t i => if a.getLsbD i then t ||| (1#n <<< (n - 1 - i)) else t) 0

/-! ## Floating-point operands (R189) -/

/-- Rounding mode; format I rounds to nearest even. -/
def fpRnd (w : W64) : Rnd := if isI w then .ne else rndOf (fld (tMod w) 5 2)

/-- Absolute value, then negation. -/
def fpMods (absv neg : Bool) (v : Fp) : Fp := let x := if absv then v.abs else v; if neg then x.neg else x

def fa (r : PunRegs) (w : W64) (l : Nat) : Fp :=
  let v := ofF32 (a32 r w l)
  if isI w then v else fpMods (bit (tMod w) 1) (bit (tMod w) 0) v
def fb (r : PunRegs) (w : W64) (l : Nat) : Fp :=
  let v := ofF32 (b32 r w l)
  if isI w then v else fpMods (bit (tMod w) 3) (bit (tMod w) 2) v
def fc (r : PunRegs) (w : W64) (l : Nat) : Fp := fpMods false (bit (tMod w) 4) (ofF32 (c32 r w l))

/-- -0 is below +0 in FMIN and FMAX. -/
def fpBelow (a b : Fp) : Bool := a.lt b || (a.isZero && b.isZero && a.isNeg && !b.isNeg)

/-- The minimum or maximum: the other operand where exactly one is a NaN. -/
def fpPick (maxi : Bool) (a b : Fp) : Fp :=
  if a.isNan then b else if b.isNan then a
  else if fpBelow (if maxi then a else b) (if maxi then b else a) then b else a

/-! ## Approximate functions (R189): any value within the bound, free -/

/-- Some value within `n` ulp of `v`, chosen by the free value of lane `l`. -/
def approx (s : State) (n l : Nat) (v : Fp) : W32 :=
  match v with
  | .num _ _ _ => withinUlp n v (Config.freeFp s.freeIdx l).toNat
  | _ => toF32 v

/-- FRCP: 1/a. -/
def rcpF (s : State) (l : Nat) (a : Fp) : W32 :=
  if a.isInf then toF32 (.num a.isNeg 0 0) else approx s 1 l ((Fp.num false 1 0).div a)

/-- FRSQ: 1/sqrt a; of -0 the manual states no result. -/
def rsqF (s : State) (l : Nat) (a : Fp) : W32 :=
  match a with
  | .nan => canonNan
  | .inf n => if n then canonNan else 0
  | .num n m e =>
    if m = 0 then (if n then Config.freeFp s.freeIdx l else toF32 (.inf false))
    else if n then canonNan
    else approx s 1 l ((Fp.num false 1 0).div ((Fp.num false m e).sqrt))

/-- FEXP2: 2^a. -/
def exp2F (s : State) (l : Nat) (a : Fp) : W32 :=
  match a with
  | .nan => canonNan
  | .inf n => if n then 0 else toF32 (.inf false)
  | .num n m e => approx s 2 l (exp2Fp n m e)

/-- FLOG2. -/
def log2F (s : State) (l : Nat) (a : Fp) : W32 :=
  match a with
  | .nan => canonNan
  | .inf n => if n then canonNan else toF32 (.inf false)
  | .num n m e => if m = 0 then toF32 (.inf true) else if n then canonNan else approx s 2 l (log2Fp m e)

/-- FSIN and FCOS. -/
def trigF (s : State) (cosine : Bool) (l : Nat) (a : Fp) : W32 :=
  match a with
  | .num n m e => approx s 2 l (trigFp cosine n m e)
  | _ => canonNan

/-! ## Conversion (R190) -/

/-- Codes 0 to 4 are floating-point formats. -/
def cvFmt (k : Nat) : Fmt := if k = 0 then f32 else if k = 1 then f16 else if k = 2 then bf16 else if k = 3 then e4m3 else e5m2
def cvIsF (k : Nat) : Bool := k ≤ 4
/-- Width and signedness of a type. -/
def cvBits (k : Nat) : Nat := if k = 0 ∨ k = 5 ∨ k = 6 then 32 else if k = 1 ∨ k = 2 ∨ k = 7 ∨ k = 8 then 16 else 8
def cvSigned (k : Nat) : Bool := k == 5 || k == 7 || k == 9

/-- Least bit of the narrow operand's part of a register. -/
def cvPart (k part : Nat) : Nat := if cvBits k = 8 then 8 * part else if cvBits k = 16 then 16 * (part % 2) else 0

/-- How a float result overflows. Widening is exact: it saturates nothing (R190). -/
def cvOver (src dst : Nat) (sat : Bool) : Over :=
  if dst = 0 then .inf else if dst = 3 ∨ (sat ∧ !(src = 4 ∧ (dst = 1 ∨ dst = 2))) then .sat else .hard

/-- Largest and smallest value of an integer type. -/
def cvMin (k : Nat) : Int := if cvSigned k then -(2 ^ (cvBits k - 1)) else 0
def cvMax (k : Nat) : Int := if cvSigned k then 2 ^ (cvBits k - 1) - 1 else 2 ^ cvBits k - 1

/-- An integer converted to a float format. Where it rounds past the format's largest finite value the manual states no
result: `c` is free. -/
def cvIntF (dst : Nat) (mode : Rnd) (c : Nat) (v : Int) : Nat :=
  let f := cvFmt dst
  let r := f.encode mode .sat (ofInt v)
  if r = f.encode mode .hard (ofInt v) then r else c % 2 ^ cvBits dst

/-- A value converted from type `src` to type `dst`. -/
def cvVal (src dst : Nat) (mode : Rnd) (sat : Bool) (c x : Nat) : Nat :=
  if cvIsF src then
    let v := (cvFmt src).decode x
    if cvIsF dst then (cvFmt dst).encode mode (cvOver src dst sat) v
    else wrapN (v.toSat mode (cvMin dst) (cvMax dst)) (cvBits dst)
  else
    let v : Int := if cvSigned src then sgn x (cvBits src) else x
    if cvIsF dst then cvIntF dst mode c v else wrapN v (cvBits dst)

/-- CVT of one lane: the source part of `a`, and the old destination whose other bits are kept. -/
def cvtLane (w : W64) (c : Nat) (a old : W32) : W32 :=
  let m := tMod w
  let src := fld m 0 4
  let dst := fld m 4 4
  let part := fld m 10 2
  let v := cvVal src dst (rndOf (fld m 8 2)) (bit m 12) c (fld a.toNat (cvPart src part) (cvBits src))
  BitVec.ofNat 32 (setFld old.toNat (cvPart dst part) (cvBits dst) v)

/-! ## Addresses (R193, R195) -/

/-- A 64-bit value of a 9-bit operand: a register pair or a uniform register. -/
def pair64 (r : PunRegs) (f l : Nat) : W64 :=
  if f ≥ 256 then r.ug (f - 256) else (r.vg (f + 1) l) ++ (r.vg f l)

/-- The address of an access by lane `l`: 64 bits in global space, 32 in the local store. -/
def addrOf (r : PunRegs) (space f : Nat) (off : Int) (l : Nat) : Nat :=
  if space = 0 then wrapN ((pair64 r f l).toNat + off) 64 else wrapN ((src32 r f l).toNat + off) 32

/-- The value of `n` consecutive vector registers of a lane. -/
def vecVal (r : PunRegs) (d n l : Nat) : Nat := ((List.range n).map (fun i => (r.vg (d + i) l).toNat * 2 ^ (32 * i))).sum

/-- Bytes of a size code (R193). -/
def sizeOf (k : Nat) : Nat := 2 ^ k

/-- Vector registers that hold `n` bytes. -/
def regsFor (n : Nat) : Nat := (n + 3) / 4

/-- A loaded value as it lands in a lane's registers. -/
def putVec (r : PunRegs) (d n l v : Nat) : PunRegs :=
  (List.range n).foldl (fun t i => t.vset (d + i) l (BitVec.ofNat 32 (v / 2 ^ (32 * i)))) r

/-! ## Registers that an instruction touches (R157) -/

/-- A 9-bit operand as the registers it names; a pair where `n` is 2. -/
def destOf (f n : Nat) : List Dest := if f ≥ 256 then [.uni (f - 256)] else (List.range n).map (fun i => .vec (f + i))

/-- d as the registers it names. -/
def destD (w : W64) (n : Nat) : List Dest := if tDu w then [.uni (tD w)] else (List.range n).map (fun i => .vec (tD w + i))

/-- Every register that the instruction reads or writes. -/
def teRegs (w : W64) : List Dest :=
  let op := tOp w
  let u := teUses op
  match teFmt op with
  | none => []
  | some .r =>
    if op = 0x42 then
      let n := if fld (tMod w) 0 2 = 3 then 2 else 1
      destOf (tA w) (if bit (tMod w) 2 then 1 else 2) ++ destOf (tB w) n ++ destOf (tC w) n ++ destD w n
    else (if u.2.1 then destOf (tA w) 1 else []) ++ (if u.2.2.1 then destOf (tB w) 1 else [])
      ++ (if u.2.2.2 then destOf (tC w) 1 else []) ++ (if u.1 then destD w 1 else [])
  | some .i =>
    (if u.2.1 then destOf (if tAu w then 256 + tAi w else tAi w) 1 else []) ++ (if u.1 then destD w 1 else [])
  | some .m => destOf (tA w) (if tSpace w = 0 then 2 else 1) ++ destD w (regsFor (sizeOf (tSize w)))
  | some .b => if op = 0x51 then [.uni (tLink w)] else []
  | some .s => if tVsrc w ∨ op = 0x63 then [.uni (tUa w)] else []

/-- The vector registers of `n` from a 9-bit operand. -/
def vecOf (f n : Nat) : List Nat := if f ≥ 256 then [] else (List.range n).map (f + ·)

/-- The vector registers that an executing lane of the instruction reads (R231). -/
def teReads (w : W64) : List Nat :=
  let op := tOp w
  let u := teUses op
  match teFmt op with
  | some .r =>
    if op = 0x42 then
      let n := if fld (tMod w) 0 2 = 3 then 2 else 1
      vecOf (tA w) (if bit (tMod w) 2 then 1 else 2) ++ vecOf (tB w) n ++ (if fld (tMod w) 9 4 = 9 then vecOf (tC w) n else [])
    else (if u.2.1 then vecOf (tA w) 1 else []) ++ (if u.2.2.1 then vecOf (tB w) 1 else [])
      ++ (if u.2.2.2 then vecOf (tC w) 1 else []) ++ (if op = 0x30 ∧ cvBits (fld (tMod w) 4 4) < 32 then [tD w] else [])
  | some .i => if u.2.1 ∧ !tAu w then [tAi w] else []
  | some .m => vecOf (tA w) (if tSpace w = 0 then 2 else 1) ++ (if op = 0x41 then vecOf (tD w) (regsFor (sizeOf (tSize w))) else [])
  | _ => []

/-- The executing lanes that would read a poisoned element: with V2U and where one access serves the punnet only the
lowest lane reads; XLANE's lanes read each other's first operand. -/
def badLanes (r : PunRegs) (w : W64) (ex : W32) : W32 :=
  if r.bad.isEmpty then 0 else
  let lane (l : Nat) : Bool := (teReads w).any (fun n => r.bad.contains (32 * n + l))
  let ls := lanesOf ex
  let hit := if tOp w = 0x3B then (ls.take 1).filter lane
    else if tOp w = 0x3A then ls.filter (fun _ => ls.any lane)
    else ls.filter lane
  hit.foldl (fun m l => m ||| laneBit l) 0

/-- The registers of a pending destination. -/
def Dest.span (d : Dest) (n : Nat) : List Dest :=
  match d with
  | .uni k => [.uni k]
  | .vec k => (List.range n).map (fun i => .vec (k + i))

end Sys2Proof.Machine
end

