-- ==== Sys2Proof/Machine/Flags.lean ====
section
/-! DEFINITION. Predicates: the conditions of ICMP and FCMP, how a result combines with the old predicate, PCOMB and
LPOLL (R188, R191). -/

namespace Sys2Proof.Machine

/-- An integer condition. -/
def icond (k : Nat) (uns : Bool) (a b : W32) : Bool :=
  if k = 0 then a == b else if k = 1 then a != b else if k = 2 then less uns a b else if k = 3 then !less uns b a
  else if k = 4 then less uns b a else !less uns a b

/-- A floating-point condition: with a NaN only ne and nan hold. -/
def fcond (k : Nat) (a b : Fp) : Bool :=
  let n := a.isNan || b.isNan
  if k = 6 then !n else if k = 7 then n
  else if n then k == 1
  else if k = 0 then a.eq b else if k = 1 then !a.eq b else if k = 2 then a.lt b else if k = 3 then !b.lt a
  else if k = 4 then b.lt a else !a.lt b

/-- The combination of a result with the old predicate. -/
def combine (k : Nat) (old new : Bool) : Bool := if k = 0 then new else if k = 1 then old && new else old || new

/-- Writes predicate `pd` in the lanes of `ex`. -/
def putPred (r : PunRegs) (pd : Nat) (ex : W32) (f : Nat → Bool) : PunRegs :=
  r.pset pd ((r.pg pd &&& ~~~ex) ||| (ex &&& maskOf f))

/-- The result of a comparison. -/
def putCmp (r : PunRegs) (w : W64) (ex : W32) (f : Nat → Bool) : PunRegs :=
  let m := tMod w
  putPred r (fld m 0 3) ex (fun l => combine (fld m 6 2) ((r.pg (fld m 0 3)).getLsbD l) (f l))

/-- PCOMB. -/
def pcombMask (r : PunRegs) (w : W64) : W32 :=
  let m := tMod w
  let a := r.pg (fld m 3 3)
  let b := r.pg (fld m 6 3)
  let k := fld m 9 2
  let v := if k = 0 then a &&& b else if k = 1 then a ||| b else if k = 2 then a ^^^ b else a &&& ~~~b
  if bit m 11 then ~~~v else v

end Sys2Proof.Machine
end

