-- ==== Sys2Proof/Machine/Thread.lean ====
section
/-! DEFINITION. The thread engine's instructions but for memory and launch: readiness (R157), reconvergence (R163), the
block barrier (R165), traps and single step (R171 to R178), the integer, floating-point, predicate, cross-lane, control
and synchronisation groups (R182 to R199). -/

namespace Sys2Proof.Machine

/-! ## Grid, blocks and requests of a punnet -/

/-- The block that holds punnet slot `p`. -/
def Te.blockOf (t : Te) (p : Nat) : Option Block := t.blocks.find? (fun b => b.slots.contains p)

def Te.setBlock (t : Te) (b : Block) : Te := { t with blocks := t.blocks.map (fun x => if x.b = b.b then b else x) }

/-- The context that the TE runs. -/
def Te.ctx? (t : Te) : Option Nat := t.grid.map (·.ctx)

/-- The command is being aborted (R300). -/
def cmdAborting (s : State) (r : CmdRef) : Bool := (findCmd s r).any (·.aborting)

/-- The grid issues nothing more: its context has ended on this TE, or its command is being aborted. -/
def gridCut (s : State) (c : Nat) : Bool :=
  match (s.te c).grid with | some g => g.stopped || cmdAborting s g.cmd | none => true

/-- Outstanding requests of slot `p`. -/
def Te.reqsOf (t : Te) (p : Nat) : List TeReq := t.reqs.filter (fun r => r.slot == p)

/-- Slot `p` has no outstanding request. -/
def punIdle (s : State) (c p : Nat) : Bool := (s.te c).reqs.all (fun r => r.slot != p)

/-- Slot `p` has no load or atomic that has not landed. -/
def loadsDone (s : State) (c p : Nat) : Bool := (s.te c).reqs.all (fun r => r.slot != p || r.kind == .store)

/-- First core of core `c`'s bunch and its cores (R15). -/
def bunchCores (c : Nat) : List Nat :=
  let b := bunchOf c
  [0, 1, 8, 9].map (fun k => (b / 4) * 16 + (b % 4) * 2 + k)

/-- What a release of slot `p` at chip or system scope puts first, as (core, request): the punnet's own requests; every
store and atomic of the core, since a thread of the core may have observed one through the L1; and those of the bunch
that a release at bunch scope has shown its threads (R216, R219). -/
def releaseList (s : State) (c p : Nat) : List (Nat × Nat) :=
  (bunchCores c).flatMap (fun n =>
    ((s.te n).reqs.filter (fun r =>
      if n = c then r.slot == p || r.kind != .load else r.kind != .load && r.visBunch)).map (fun r => (n, r.id)))

/-- Everything slot `p` must release at chip scope is at home. -/
def releaseReady (s : State) (c p : Nat) : Bool := (releaseList s c p).isEmpty

/-- The stores and atomics of core `c` that are not at home yet count as observed by the threads of the core and, with
`bunch`, of the bunch: what a release at block, bunch or core scope does for what precedes it (R216, R219). -/
def markSeen (s : State) (c : Nat) (bunch : Bool) : State :=
  s.setTe c { s.te c with reqs := (s.te c).reqs.map (fun r =>
    if r.kind = .load then r else { r with visCore := true, visBunch := r.visBunch || bunch }) }

/-- A release at scope `sc`, as far as the scopes below chip go (R194, R216). -/
def releaseAt (s : State) (c sc : Nat) : State := if sc = 0 then s else markSeen s c (sc == 2)

/-- A punnet of a grid that is not cut may issue as far as its own state goes (R157). -/
def punOpen (s : State) (c p : Nat) : Bool :=
  let x := s.pun c p
  s.isUp && s.clocked && x.resident && !x.ended && !x.parked && x.hold == .none && !(s.te c).stopPending

/-- A punnet that may issue as far as its own state goes (R157). Which of the ready punnets of a port issues in a core
cycle is timing: the sender of the command chooses. -/
def punReady (s : State) (c p : Nat) : Bool := punOpen s c p && !gridCut s c

/-- The context of the grid has ended on this TE in this very core cycle: an instruction that traps in the cycle still
does so (R176). -/
def cutNow (s : State) (c p : Nat) : Bool :=
  punOpen s c p && (match (s.te c).grid with
    | some g => g.stopped && g.cutAt == (s.core c).cycles && (s.pun c p).lastIssue < (s.core c).cycles
    | none => false)

/-! ## Reconvergence (R163) -/

/-- Pops and switches at the reconvergence address, and where every running lane has exited. -/
def settleLanes : Nat → PunRegs → PunRegs
  | 0, r => r
  | n + 1, r =>
    match r.stack with
    | [] => r
    | e :: rest =>
      if r.active = 0 ∨ r.pc = e.at_ then
        let j := e.joined ||| r.active
        if e.ran then settleLanes n { r with stack := rest, active := j, pc := e.at_ }
        else settleLanes n { r with stack := { e with joined := j, ran := true } :: rest, active := e.other, pc := e.otherPc }
      else r

/-- The punnet's registers after an instruction. -/
def PunRegs.settle (r : PunRegs) : PunRegs := settleLanes (2 * r.stack.length + 2) r

/-- The address of the next instruction in line; virtual addresses have 64 bits. -/
def PunRegs.step (r : PunRegs) : PunRegs := { r with pc := (r.pc + 8) % 2 ^ 64 }

/-! ## Block barrier (R165) -/

/-- Completes the barrier generation of a block when every punnet that has not ended has arrived. -/
def barCheck (s : State) (c : Nat) (k : Block) : State :=
  let live := k.slots.filter (fun p => !(s.pun c p).ended)
  if k.arrived.isEmpty || !live.all (fun p => k.arrived.contains p) then s
  else
    let next := live.filter (fun p => (s.pun c p).nextArr)
    let s1 := k.arrived.foldl (fun t p =>
      let x := t.pun c p
      t.setPun c p { x with hold := if x.nextArr then .bar (k.gen + 1) else if x.hold = .bar k.gen then .none else x.hold,
                            nextArr := false }) s
    s1.setTe c ((s1.te c).setBlock { k with gen := k.gen + 1, arrived := next })

/-- The barrier of slot `p`'s block, after the punnet has arrived or ended. -/
def barSettle (s : State) (c p : Nat) : State := match (s.te c).blockOf p with | some k => barCheck s c k | none => s

/-! ## Traps (R171 to R177) -/

/-- What a trap reports. -/
structure TrapIn where
  cause : Nat
  sub : Nat := 0
  level : Nat := 0
  va : Nat := 0
  mask : W32 := 0
deriving DecidableEq, Repr

/-- The trap of a failed access of the whole punnet. -/
def XF.trap (e : XF) (m : W32) : TrapIn := { cause := e.code, sub := e.sub, level := e.level, va := e.va, mask := m }

/-- The trap of an illegal instruction. -/
def illegalTrap (m : W32) : TrapIn := { cause := 1, mask := m }

/-- The frame of R173: all 640 bytes; the shadow frame is its first 512. -/
def trapFrame (s : State) (c p : Nat) (x : Punnet) (r : PunRegs) (t : TrapIn) (dbl parked : Bool) : List Byte :=
  let b (v : Bool) (n : Nat) : Nat := if v then n else 0
  leBytes 8 r.pc ++ leBytes 2 t.cause ++ leBytes 2 (b dbl 1 + b parked 2 + b (t.cause == 8) 4)
    ++ leBytes 4 r.active.toNat ++ leBytes 4 t.mask.toNat
    ++ leBytes 1 p ++ leBytes 1 x.idx ++ leBytes 1 c ++ leBytes 1 0
    ++ leBytes 8 t.va ++ leBytes 8 s.time ++ leBytes 8 (ledger s) ++ leBytes 2 x.ctx ++ leBytes 6 0
    ++ leBytes 8 (r.ug 63).toNat ++ leBytes 4 x.block ++ leBytes 1 r.stack.length ++ leBytes 27 0
    ++ (List.range 8).flatMap (fun i => leBytes 4 (r.pg i).toNat)
    ++ (List.range 64).flatMap (fun i => leBytes 8 (r.ug i).toNat)

/-- Park mode is in effect (R175). -/
def parkMode (s : State) (g : Grid) : Bool := g.trapMode && (g.fn == 0 || s.charter.dbgVf)

/-- Removes the waiters and held arrivals of the TE of core `c`, of slot `p` where one is named. -/
def dropTeWaits (s : State) (c : Nat) (p : Option Nat) : State :=
  let hit (e : BitVec 7) (n : Nat) : Bool := e == engId c .te && (match p with | some k => n == k | none => true)
  { s with syn := { s.syn with waiters := s.syn.waiters.filter (fun w => !hit w.eng w.punnet),
                               heldArr := s.syn.heldArr.filter (fun h => !hit h.eng h.punnet) } }

/-- The context ends on this TE (R176): nothing of it issues any more, and BLOCK_END returns its blocks. -/
def endTe (s : State) (c cause : Nat) : State :=
  match (s.te c).grid with
  | none => s
  | some g =>
    let s1 := cmdFault s g.cmd cause (some (engId c .te))
    let s2 := dropTeWaits s1 c none
    s2.setTe c { s2.te c with
      grid := some (if g.stopped then g else { g with stopped := true, cause := cause, cutAt := (s.core c).cycles }), u63Hi := 0 }

/-- Requests of slot `p` are given up. -/
def dropReqs (s : State) (c p : Nat) : State :=
  s.setTe c { s.te c with reqs := (s.te c).reqs.filter (fun r => r.slot != p) }

/-- u63 is valid for a push (R172): whether the frame's range may be written. -/
def pushOk (s : State) (c : Nat) (g : Grid) (u : Nat) : State × Bool :=
  if u % 128 = 0 ∧ g.trapBase + 640 ≤ u ∧ u ≤ g.trapBase + g.trapSize then canWrite s c g.fn (some g.ctx) (u - 640) 640
  else (s, false)

/-- The push of a frame at u63 value `u`: whether it is written. A frame write that fails after the check counts as an
invalid u63 (R172). -/
def pushFrame (s : State) (c : Nat) (g : Grid) (u : Nat) (frame : List Byte) : State × Bool :=
  match pushOk s c g u with
  | (s1, false) => (s1, false)
  | (s1, true) =>
    match writeVa s1 c g.fn (some g.ctx) (u - 640) frame with
    | (s2, e) => (s2, e.isNone)

/-- A trap of slot `p` with registers `r` (R171 to R177): the frame, the counters and the record, then park or kill. -/
def trapOp (s : State) (c p : Nat) (t : TrapIn) (r : PunRegs) : State :=
  match (s.te c).grid with
  | none => s
  | some g =>
    let x := s.pun c p
    let park := parkMode s g
    let u := (r.ug 63).toNat
    match pushFrame s c g u (trapFrame s c p x r t false park) with
    | (s2, ok) =>
      let frame := trapFrame s c p x r t (!ok) park
      let a := coreA c 0x228
      let s3 := incF (if ok then s2 else incF s2 a 16 16 1) a 0 16 1
      let s4 := s3.setPun c p { x with
        regs := if ok then r.uset 63 (BitVec.ofNat 64 (u - 640)) else r
        parked := park
        hold := .none
        stepDue := false
        waitEnt := false
        trap := { cause := t.cause, double := !ok, parked := park, u63Written := false
                  sub := t.sub, level := t.level, va := t.va, mask := t.mask }
        shadow := if ok then x.shadow else frame.take 512
        lastIssue := (s.core c).cycles }
      let rec_ : FltRec := {
        code := if ok then t.cause else 0x13, sub := if ok then t.sub else t.cause, level := t.level, double := !ok
        parked := park, eng := some (engId c .te), slot := p, q := some g.cmd.q, ctx := some g.ctx, seq := g.cmd.seq
        pc := r.pc, va := t.va, mask := t.mask, block := 9, inst := c }
      let s5 := if ok ∧ t.cause = 8 then s4 else engineFault s4 g.fn rec_
      let s6 := if !ok ∧ t.cause = 2 then inc16 s5 (mmuA g.fn 6) else s5
      if park then s6 else endTe s6 c t.cause

/-! ## Single step (R178) -/

/-- Single step acts on slot `p`: the selected slot, in park mode, where the Charter allows it. -/
def stepOn (s : State) (c p : Nat) : Bool :=
  s.charter.dbgStep && rdB s (coreA c 0x224) 2 && rdF s (coreA c 0x20C) 0 6 == p
    && (match (s.te c).grid with | some g => parkMode s g | none => false)

/-- The STEP trap, once the stepped instruction has completed. -/
def stepSettle (s : State) (c p : Nat) : State :=
  let x := s.pun c p
  if x.stepDue && x.hold == .none && !x.ended && !x.parked && punIdle s c p then
    trapOp s c p { cause := 8, mask := x.regs.active } x.regs
  else s

/-! ## Issue (R157, R171, R182) -/

/-- The instruction that issues: core, slot, the punnet's registers, its word and executing lanes. -/
structure TI where
  c : Nat
  p : Nat
  r : PunRegs
  w : W64
  ex : W32

/-- How an instruction answers: it waits, leaving `s`; it leaves a state and the punnet's registers; it traps. -/
inductive TeRes
  | wait (s : State)
  | go (s : State) (r : PunRegs)
  | trap (s : State) (t : TrapIn)

/-- No register of the instruction awaits a result (R157). -/
def scoreOk (s : State) (c p : Nat) (w : W64) : Bool :=
  let regs := teRegs w
  (s.te c).reqs.all (fun r => r.slot != p || match r.dst with
    | some d => (d.span r.regs).all (fun x => !regs.contains x)
    | none => true)

/-- After an instruction: reconvergence, the end of the punnet, counters, single step. -/
def teDone (s : State) (c p : Nat) (r : PunRegs) : State :=
  let x := s.pun c p
  let cyc := (s.core c).cycles
  let ended := x.init &&& ~~~x.exited == 0
  let s1 := s.setPun c p { x with regs := r.settle, ended := ended, lastIssue := cyc, waitEnt := false, stepDue := stepOn s c p && !ended }
  let s2 := monEvent s1 6 c 1
  let s3 := if (s2.te c).lastCyc = cyc + 1 then s2 else monEvent (s2.setTe c { s2.te c with lastCyc := cyc + 1 }) 3 c 1
  let s4 := noteIssue s3 x.cmd
  let s5 := if ended then barSettle s4 c p else s4
  stepSettle s5 c p

/-- A thread row: punnet `p` of core `c` issues the instruction at its program counter when that is `w`. A trap waits
until every earlier instruction of the punnet has completed (R171). -/
def teIssue (c p : Nat) (ops : List Nat) (mn : String) (w : W64) (s : State) (act : State → TI → TeRes) : Out :=
  if !teRow ops w then bad mn
  else if !punReady s c p && !cutNow s c p then done s s
  else
    let x := s.pun c p
    let r := x.regs
    let trap (t : State) (k : TrapIn) : Out := if punIdle s c p then done s (trapOp t c p k r) else done s s
    if x.stepDue then done s (stepSettle s c p)
    else if r.pc % 8 ≠ 0 then trap s (illegalTrap r.active)
    else match readVa s c x.fn (some x.ctx) r.pc 8 .fetch with
      | (t, .inr e) => trap t (e.trap r.active)
      | (t, .inl bs) =>
        if BitVec.ofNat 64 (leNat bs) ≠ w then done s s
        else if !teLegal w then trap t (illegalTrap r.active)
        else if !scoreOk t c p w then done s s
        else if badLanes r w (execLanes r w) ≠ 0 then trap t { cause := 3, mask := badLanes r w (execLanes r w) }
        else match act t ⟨c, p, r, w, execLanes r w⟩ with
          | .wait u => done s (if punReady s c p then u else s)
          | .trap u k => trap u k
          | .go u q => done s (if punReady s c p then teDone u c p q else s)

/-- An instruction that only changes registers and goes on to the next one. -/
def regRow (c p : Nat) (ops : List Nat) (mn : String) (w : W64) (s : State) (f : State → TI → PunRegs) : Out :=
  teIssue c p ops mn w s (fun t i => .go t (f t i).step)

/-- A two-operand integer instruction, 32 bits per lane or 64 bits once. -/
def intRow (c p : Nat) (ops : List Nat) (mn : String) (w : W64) (s : State) (f : W32 → W32 → W32) (g : W64 → W64 → W64) : Out :=
  regRow c p ops mn w s (fun _ i => putResult i.r w i.ex (fun l => f (a32 i.r w l) (b32 i.r w l)) (g (a64 i.r w) (b64 i.r w)))

/-- A floating-point instruction: per executing lane. -/
def fpRow (c p : Nat) (ops : List Nat) (mn : String) (w : W64) (s : State) (f : State → PunRegs → Nat → W32) : Out :=
  regRow c p ops mn w s (fun t i => putLanes i.r (tD w) i.ex (f t i.r))

/-! ## Integer group (R187) -/

/-- IADD. -/
def execIadd (c : CoreId) (p : PunId) (w : W64) (s : State) : Out := intRow c p [0x01, 0x81] "IADD" w s (· + ·) (· + ·)
/-- ISUB. -/
def execIsub (c : CoreId) (p : PunId) (w : W64) (s : State) : Out := intRow c p [0x02, 0x82] "ISUB" w s (· - ·) (· - ·)
/-- IMUL. -/
def execImul (c : CoreId) (p : PunId) (w : W64) (s : State) : Out := intRow c p [0x03, 0x83] "IMUL" w s (· * ·) (· * ·)
/-- IMULHI. -/
def execImulhi (c : CoreId) (p : PunId) (w : W64) (s : State) : Out :=
  intRow c p [0x04, 0x84] "IMULHI" w s (mulHigh (tX w)) (mulHigh (tX w))
/-- IMAD. -/
def execImad (c : CoreId) (p : PunId) (w : W64) (s : State) : Out :=
  regRow c p [0x05] "IMAD" w s (fun _ i => putResult i.r w i.ex (fun l => a32 i.r w l * b32 i.r w l + c32 i.r w l)
    (a64 i.r w * b64 i.r w + c64 i.r w))
/-- IMIN. -/
def execImin (c : CoreId) (p : PunId) (w : W64) (s : State) : Out := intRow c p [0x06, 0x86] "IMIN" w s (minOf (tX w)) (minOf (tX w))
/-- IMAX. -/
def execImax (c : CoreId) (p : PunId) (w : W64) (s : State) : Out := intRow c p [0x07, 0x87] "IMAX" w s (maxOf (tX w)) (maxOf (tX w))
/-- AND. -/
def execTeAnd (c : CoreId) (p : PunId) (w : W64) (s : State) : Out := intRow c p [0x08, 0x88] "TE_AND" w s (· &&& ·) (· &&& ·)
/-- OR. -/
def execTeOr (c : CoreId) (p : PunId) (w : W64) (s : State) : Out := intRow c p [0x09, 0x89] "TE_OR" w s (· ||| ·) (· ||| ·)
/-- XOR. -/
def execTeXor (c : CoreId) (p : PunId) (w : W64) (s : State) : Out := intRow c p [0x0A, 0x8A] "TE_XOR" w s (· ^^^ ·) (· ^^^ ·)
/-- SHL. -/
def execTeShl (c : CoreId) (p : PunId) (w : W64) (s : State) : Out :=
  intRow c p [0x0B, 0x8B] "TE_SHL" w s (fun a b => a <<< count b) (fun a b => a <<< count b)
/-- SHR. -/
def execTeShr (c : CoreId) (p : PunId) (w : W64) (s : State) : Out :=
  intRow c p [0x0C, 0x8C] "TE_SHR" w s (shiftRight (tX w)) (shiftRight (tX w))
/-- POPC. -/
def execPopc (c : CoreId) (p : PunId) (w : W64) (s : State) : Out :=
  regRow c p [0x0D] "POPC" w s (fun _ i => putResult i.r w i.ex (fun l => ones (a32 i.r w l)) (ones (a64 i.r w)))
/-- CLZ. -/
def execClz (c : CoreId) (p : PunId) (w : W64) (s : State) : Out :=
  regRow c p [0x0E] "CLZ" w s (fun _ i => putResult i.r w i.ex (fun l => leadZeros (a32 i.r w l)) (leadZeros (a64 i.r w)))
/-- BREV. -/
def execBrev (c : CoreId) (p : PunId) (w : W64) (s : State) : Out :=
  regRow c p [0x0F] "BREV" w s (fun _ i => putResult i.r w i.ex (fun l => reversed (a32 i.r w l)) (reversed (a64 i.r w)))
/-- SEL. -/
def execSel (c : CoreId) (p : PunId) (w : W64) (s : State) : Out :=
  regRow c p [0x10] "SEL" w s (fun _ i => putLanes i.r (tD w) i.ex (fun l =>
    if (i.r.pg (fld (tMod w) 0 3)).getLsbD l then a32 i.r w l else b32 i.r w l))
/-- MOV. -/
def execMov (c : CoreId) (p : PunId) (w : W64) (s : State) : Out :=
  regRow c p [0x11] "MOV" w s (fun _ i => putResult i.r w i.ex (a32 i.r w) (a64 i.r w))
/-- MOVI. -/
def execTeMovi (c : CoreId) (p : PunId) (w : W64) (s : State) : Out :=
  regRow c p [0x91] "TE_MOVI" w s (fun _ i => putResult i.r w i.ex (fun _ => tImm w) ((tImm w).signExtend 64))
/-- ICMP (R188). -/
def execIcmp (c : CoreId) (p : PunId) (w : W64) (s : State) : Out :=
  regRow c p [0x12] "ICMP" w s (fun _ i =>
    putCmp i.r w i.ex (fun l => icond (fld (tMod w) 3 3) (tX w) (a32 i.r w l) (b32 i.r w l)))
/-- MOVHI. -/
def execTeMovhi (c : CoreId) (p : PunId) (w : W64) (s : State) : Out :=
  regRow c p [0x13] "TE_MOVHI" w s (fun _ i =>
    if i.ex = 0 then i.r else i.r.uset (tD w) (tImm w ++ (i.r.ug (tD w)).setWidth 32))

/-! ## Floating point (R189, R190) -/

/-- FADD. -/
def execFadd (c : CoreId) (p : PunId) (w : W64) (s : State) : Out :=
  fpRow c p [0x20, 0xA0] "FADD" w s (fun _ r l => toF32m (fpRnd w) ((fa r w l).add (fpRnd w) (fb r w l)))
/-- FSUB. -/
def execFsub (c : CoreId) (p : PunId) (w : W64) (s : State) : Out :=
  fpRow c p [0x21, 0xA1] "FSUB" w s (fun _ r l => toF32m (fpRnd w) ((fa r w l).add (fpRnd w) (fb r w l).neg))
/-- FMUL. -/
def execFmul (c : CoreId) (p : PunId) (w : W64) (s : State) : Out :=
  fpRow c p [0x22, 0xA2] "FMUL" w s (fun _ r l => toF32m (fpRnd w) ((fa r w l).mul (fb r w l)))
/-- FFMA. -/
def execFfma (c : CoreId) (p : PunId) (w : W64) (s : State) : Out :=
  fpRow c p [0x23] "FFMA" w s (fun _ r l => toF32m (fpRnd w) (((fa r w l).mul (fb r w l)).add (fpRnd w) (fc r w l)))
/-- FMIN. -/
def execFmin (c : CoreId) (p : PunId) (w : W64) (s : State) : Out :=
  fpRow c p [0x24, 0xA4] "FMIN" w s (fun _ r l => toF32 (fpPick false (fa r w l) (fb r w l)))
/-- FMAX. -/
def execFmax (c : CoreId) (p : PunId) (w : W64) (s : State) : Out :=
  fpRow c p [0x25, 0xA5] "FMAX" w s (fun _ r l => toF32 (fpPick true (fa r w l) (fb r w l)))
/-- FCMP (R188). -/
def execFcmp (c : CoreId) (p : PunId) (w : W64) (s : State) : Out :=
  regRow c p [0x26] "FCMP" w s (fun _ i =>
    putCmp i.r w i.ex (fun l => fcond (fld (tMod w) 3 3) (ofF32 (a32 i.r w l)) (ofF32 (b32 i.r w l))))
/-- FDIV. -/
def execFdiv (c : CoreId) (p : PunId) (w : W64) (s : State) : Out :=
  fpRow c p [0x27] "FDIV" w s (fun _ r l => toF32m (fpRnd w) ((fa r w l).div (fb r w l)))
/-- FSQRT. -/
def execFsqrt (c : CoreId) (p : PunId) (w : W64) (s : State) : Out :=
  fpRow c p [0x28] "FSQRT" w s (fun _ r l => toF32m (fpRnd w) (fa r w l).sqrt)
/-- FRCP. -/
def execFrcp (c : CoreId) (p : PunId) (w : W64) (s : State) : Out :=
  fpRow c p [0x29] "FRCP" w s (fun t r l => rcpF t l (fa r w l))
/-- FRSQ. -/
def execFrsq (c : CoreId) (p : PunId) (w : W64) (s : State) : Out :=
  fpRow c p [0x2A] "FRSQ" w s (fun t r l => rsqF t l (fa r w l))
/-- FEXP2. -/
def execFexp2 (c : CoreId) (p : PunId) (w : W64) (s : State) : Out :=
  fpRow c p [0x2B] "FEXP2" w s (fun t r l => exp2F t l (fa r w l))
/-- FLOG2. -/
def execFlog2 (c : CoreId) (p : PunId) (w : W64) (s : State) : Out :=
  fpRow c p [0x2C] "FLOG2" w s (fun t r l => log2F t l (fa r w l))
/-- FSIN. -/
def execFsin (c : CoreId) (p : PunId) (w : W64) (s : State) : Out :=
  fpRow c p [0x2D] "FSIN" w s (fun t r l => trigF t false l (fa r w l))
/-- FCOS. -/
def execFcos (c : CoreId) (p : PunId) (w : W64) (s : State) : Out :=
  fpRow c p [0x2E] "FCOS" w s (fun t r l => trigF t true l (fa r w l))
/-- CVT. -/
def execCvt (c : CoreId) (p : PunId) (w : W64) (s : State) : Out :=
  fpRow c p [0x30] "CVT" w s (fun t r l => cvtLane w (Config.freeFp t.freeIdx l).toNat (a32 r w l) (r.vg (tD w) l))

/-! ## Predicates and lanes (R188, R191, R192) -/

/-- PCOMB. -/
def execPcomb (c : CoreId) (p : PunId) (w : W64) (s : State) : Out :=
  regRow c p [0x38] "PCOMB" w s (fun _ i => putPred i.r (fld (tMod w) 0 3) i.ex (fun l => (pcombMask i.r w).getLsbD l))

/-- LPOLL. -/
def execLpoll (c : CoreId) (p : PunId) (w : W64) (s : State) : Out :=
  regRow c p [0x39] "LPOLL" w s (fun _ i =>
    let k := fld (tMod w) 0 2
    let hit := i.r.pg (fld (tMod w) 2 3) &&& i.ex
    if k = 2 then (if i.ex = 0 then i.r else i.r.uset (tD w) (hit.setWidth 64))
    else putPred i.r (fld (tMod w) 5 3) i.ex (fun _ => if k = 0 then hit != 0 else hit == i.ex))

/-- Source lane of XLANE; none outside 0 to 31. -/
def xlaneSrc (w : W64) (b : W32) (l : Nat) : Option Nat :=
  let n := b.toNat % 32
  let k := fld (tMod w) 0 2
  if k = 0 then some n
  else if k = 1 then (if n ≤ l then some (l - n) else none)
  else if k = 2 then (if l + n < 32 then some (l + n) else none)
  else some (l ^^^ n)

/-- XLANE. -/
def execXlane (c : CoreId) (p : PunId) (w : W64) (s : State) : Out :=
  regRow c p [0x3A] "XLANE" w s (fun _ i => putLanes i.r (tD w) i.ex (fun l =>
    match xlaneSrc w (b32 i.r w l) l with
    | some k => if i.ex.getLsbD k then a32 i.r w k else a32 i.r w l
    | none => a32 i.r w l))

/-- V2U. -/
def execV2u (c : CoreId) (p : PunId) (w : W64) (s : State) : Out :=
  regRow c p [0x3B] "V2U" w s (fun _ i => match lanesOf i.ex with
    | l :: _ => i.r.uset (tD w) ((a32 i.r w l).setWidth 64)
    | [] => i.r)

/-- A special register (R192). -/
def specialReg (s : State) (c p k : Nat) : Nat :=
  if k = 1 then p else if k = 2 then c else if k = 3 then s.time else if k = 4 then (s.core c).cycles else ledger s

/-- RDSR. -/
def execRdsr (c : CoreId) (p : PunId) (w : W64) (s : State) : Out :=
  regRow c p [0x3C] "RDSR" w s (fun t i =>
    let k := (tImm w).toNat
    putResult i.r w i.ex (fun l => BitVec.ofNat 32 (if k = 0 then l else specialReg t c p k))
      (BitVec.ofNat 64 (specialReg t c p k)))

/-! ## Control (R163, R197, R198) -/

/-- The address `n` words from this instruction. -/
def branchPc (r : PunRegs) (n : Int) : Nat := wrapN ((r.pc : Int) + 8 * n) 64

/-- BRA. -/
def execBra (c : CoreId) (p : PunId) (w : W64) (s : State) : Out :=
  teIssue c p [0x50] "BRA" w s (fun t i =>
    let dst := branchPc i.r (tTarget w)
    if !tPe w ∨ i.ex = i.r.active then .go t { i.r with pc := dst }
    else if i.ex = 0 then .go t i.r.step
    else if 32 ≤ i.r.stack.length then .trap t { cause := 7, mask := i.r.active }
    else
      let e : Reconv := { at_ := branchPc i.r (tReconv w), other := i.r.active &&& ~~~i.ex, otherPc := i.r.step.pc }
      .go t { i.r with stack := e :: i.r.stack, active := i.ex, pc := dst })

/-- CALL. -/
def execCall (c : CoreId) (p : PunId) (w : W64) (s : State) : Out :=
  teIssue c p [0x51] "CALL" w s (fun t i =>
    .go t { i.r.uset (tLink w) (BitVec.ofNat 64 i.r.step.pc) with pc := branchPc i.r (tTarget w) })

/-- BRX: the target is u(a) + imm32, sign-extended. -/
def execBrx (c : CoreId) (p : PunId) (w : W64) (s : State) : Out :=
  teIssue c p [0x52] "BRX" w s (fun t i =>
    let dst := (i.r.ug (tAi w) + (tImm w).signExtend 64).toNat
    if dst % 8 ≠ 0 then .trap t { cause := 4, va := dst, mask := i.r.active } else .go t { i.r with pc := dst })

/-- EXIT. It waits for the punnet's loads, so that each of them completes (R171). -/
def execExit (c : CoreId) (p : PunId) (w : W64) (s : State) : Out :=
  teIssue c p [0x53] "EXIT" w s (fun t i =>
    if !loadsDone t c p then .wait s
    else
      let x := t.pun c p
      .go (t.setPun c p { x with exited := x.exited ||| i.ex }) { i.r.step with active := i.r.active &&& ~~~i.ex })

/-- NOP. -/
def execTeNop (c : CoreId) (p : PunId) (w : W64) (s : State) : Out := regRow c p [0x54] "TE_NOP" w s (fun _ i => i.r)

/-- An instruction that traps where a lane executes (R198). -/
def trapRow (c p op : Nat) (mn : String) (cause : Nat) (w : W64) (s : State) : Out :=
  teIssue c p [op] mn w s (fun t i => if i.ex = 0 then .go t i.r.step else .trap t { cause := cause, mask := i.ex })

/-- TRAP. -/
def execTrap (c : CoreId) (p : PunId) (w : W64) (s : State) : Out := trapRow c p 0x55 "TRAP" 5 w s
/-- BRK. -/
def execBrk (c : CoreId) (p : PunId) (w : W64) (s : State) : Out := trapRow c p 0x56 "BRK" 6 w s

/-! ## Synchronisation (R165, R187, R199) -/

/-- BAR.BLOCK (R165): acts whatever the active mask; it acquires and releases at block scope. -/
def execBarBlock (c : CoreId) (p : PunId) (w : W64) (s : State) : Out :=
  teIssue c p [0x60] "BAR_BLOCK" w s (fun t i =>
    if !loadsDone t c p then .wait s
    else match (t.te c).blockOf p with
      | none => .go t i.r.step
      | some k =>
        let x := t.pun c p
        let again := k.arrived.contains p
        let t0 := releaseAt t c 1
        let t1 := t0.setPun c p { x with hold := if again then .bar (k.gen + 1) else .bar k.gen, nextArr := again, regs := i.r.step }
        let k1 := { k with arrived := if again then k.arrived else k.arrived ++ [p.val] }
        .go (barCheck (t1.setTe c ((t1.te c).setBlock k1)) c k1) i.r.step)

/-- The value of a synchronisation instruction. -/
def sValue (r : PunRegs) (w : W64) : W32 := if tVsrc w then (r.ug (tUa w)).setWidth 32 else BitVec.ofNat 32 (tImm24 w)

/-- An instruction that acts once per punnet, where a lane executes. -/
def onceRow (c p op : Nat) (mn : String) (w : W64) (s : State) (ready : State → Bool) (act : State → TI → State × PunRegs) : Out :=
  teIssue c p [op] mn w s (fun t i =>
    if i.ex = 0 then .go t i.r.step
    else if !ready t then .wait s
    else match act t i with | (u, r) => .go u r.step)

/-- The context of slot `p`. -/
def punCtx (s : State) (c p : Nat) : Nat := (s.pun c p).ctx

/-- CJ.SIG (R199, R253). -/
def execCjSig (c : CoreId) (p : PunId) (w : W64) (s : State) : Out :=
  onceRow c p 0x61 "CJ_SIG" w s (fun t => releaseReady t c p) (fun t i =>
    (sendSignal t { ctx := punCtx t c p, conj := tConj w, n := sValue i.r w, src := sigSrc c .te (punCtx t c p) i.r.pc }, i.r))

/-- A wait of slot `p` found satisfied or registered. -/
def holdOn (c p : Nat) (h : PunHold) (a : State × Bool) (r : PunRegs) : State × PunRegs :=
  if a.2 then (l1Acquire a.1 c, r)
  else
    let x := a.1.pun c p
    (a.1.setPun c p { x with hold := h }, r)

/-- The unit takes a wait or an arrival (R273), and the punnet's loads have landed. -/
def waitReady (t : State) (c p : Nat) : Bool := !t.syn.dumpBusy && loadsDone t c p

/-- CJ.WAIT (R199, R254). -/
def execCjWait (c : CoreId) (p : PunId) (w : W64) (s : State) : Out :=
  onceRow c p 0x62 "CJ_WAIT" w s (fun t => waitReady t c p) (fun t i =>
    let x := punCtx t c p
    let v := sValue i.r w
    holdOn c p (.wait (.conj x (tConj w)) v) (waitConj t x (tConj w) v (engId c .te) p (t.pun c p).cmd) i.r)

/-- CJ.READ (R187, R254). -/
def execCjRead (c : CoreId) (p : PunId) (w : W64) (s : State) : Out :=
  onceRow c p 0x63 "CJ_READ" w s (fun _ => true) (fun t i =>
    (t, i.r.uset (tUa w) ((t.conj (punCtx t c p) (tConj w)).value.setWidth 64)))

/-- An arrival goes to the unit: everything earlier is at home (R199). -/
def arriveReady (t : State) (c p : Nat) : Bool := !t.syn.dumpBusy && releaseReady t c p

/-- BW.ARRIVE (R266). -/
def execTeBwArrive (c : CoreId) (p : PunId) (w : W64) (s : State) : Out :=
  onceRow c p 0x64 "TE_BW_ARRIVE" w s (fun t => arriveReady t c p) (fun t i =>
    match bwArriveOp t c (punCtx t c p) (tBar w) with
    | (u, some g) => (noteArrival u (engId c .te) p (.wire (tBar w)) g, i.r)
    | (u, none) => (u, i.r))

/-- BW.WAIT (R267). -/
def execTeBwWait (c : CoreId) (p : PunId) (w : W64) (s : State) : Out :=
  onceRow c p 0x65 "TE_BW_WAIT" w s (fun t => waitReady t c p) (fun t i =>
    holdOn c p (.wait (.wire (tBar w)) 0)
      (waitBar t (.wire (tBar w)) (punCtx t c p) (t.pun c p).arrival (engId c .te) p) i.r)

/-- GB.ARRIVE (R269, R271): the value is the core mask; without a tracker the punnet is held. -/
def execTeGbArrive (c : CoreId) (p : PunId) (w : W64) (s : State) : Out :=
  onceRow c p 0x66 "TE_GB_ARRIVE" w s (fun t => arriveReady t c p) (fun t i =>
    let m := sValue i.r w
    match gbPerform t c (punCtx t c p) (tBar w) m (engId c .te) p with
    | (u, true) => (u, i.r)
    | (u, false) => (u.setPun c p { u.pun c p with hold := .gb (tBar w) m }, i.r))

/-- GB.WAIT (R267). -/
def execTeGbWait (c : CoreId) (p : PunId) (w : W64) (s : State) : Out :=
  onceRow c p 0x67 "TE_GB_WAIT" w s (fun t => waitReady t c p) (fun t i =>
    let o : Obj := .group (punCtx t c p) (tBar w)
    holdOn c p (.wait o 0) (waitBar t o (punCtx t c p) (t.pun c p).arrival (engId c .te) p) i.r)

end Sys2Proof.Machine
end

