-- ==== Sys2Proof/Machine/ThreadMem.lean ====
section
/-! DEFINITION. Memory instructions of the thread engine and their completion: coalescing (R166), the request entries
(R168), local-store addresses (R169), order and release (R217 to R222), the L1 (R224 to R230), loads, stores, atomics and
fences (R193 to R196), poison at the consumer (R232). -/

namespace Sys2Proof.Machine

/-! ## Lines (R166) -/

/-- First byte of a 128-byte line. -/
def lineOf (a : Nat) : Nat := a / 128 * 128

/-- The lines of an instruction's accesses, in the order of the lowest lane in each. -/
def linesOf (l : List LaneAcc) : List Nat :=
  l.foldl (fun t a => if t.contains (lineOf a.va) then t else t ++ [lineOf a.va]) []

/-- Core at bunch position `k` of core `c`'s bunch (R15, R169). -/
def bunchCore (c k : Nat) : Nat := (bunchCores c).getD k 0

/-- Physical address of a local-store line of context `x` (R169). -/
def lsLine (s : State) (c x a : Nat) : Option Nat :=
  let home := if bit a 26 then bunchCore c (fld a 24 2) else c
  if fld a 27 37 ≠ 0 ∨ (home ≠ c ∧ (s.te home).ctx? ≠ some x) then none else lsAddr s home x (fld a 0 24) 128

/-- An atomic operation may be performed on host memory (R222): ADD, EXCH or CAS, with AtomicOps enabled. -/
def hostAtomOk (s : State) (op : Nat) : Bool := s.hq.atomicOn && (op == 0 || op == 8 || op == 9)

/-- Translation of one line; `atom` is the operation of an atomic. -/
def lineTr (s : State) (c f x space line : Nat) (acc : Acc) (atom : Option Nat) : State × Tr :=
  if space = 0 then
    match translate s c f (some x) line 128 acc with
    | (t, .ok pa b o) =>
      if isHost pa && (match atom with | some op => !hostAtomOk s op | none => false) then (t, .bad 11 0) else (t, .ok pa b o)
    | r => r
  else match lsLine s c x line with
    | some pa => (s, .ok pa true false)
    | none => (s, .bad 8 0)

/-- Translation of every line. -/
def lineTrs (s : State) (c f x space : Nat) (acc : Acc) (atom : Option Nat) (l : List Nat) : State × List (Nat × Tr) :=
  l.foldl (fun r a => match lineTr r.1 c f x space a acc atom with | (t, v) => (t, r.2 ++ [(a, v)])) (s, [])

/-- The trap of one lane's access (R166, R193). -/
def laneTrap (trs : List (Nat × Tr)) (a : LaneAcc) : Option TrapIn :=
  if a.va % a.size ≠ 0 then some { cause := 4, va := a.va }
  else match look trs (lineOf a.va) with
    | some (.bad sub level) => some { cause := 2, sub := sub, level := level, va := a.va }
    | _ => none

/-- The trap of the lowest faulting lane, with every lane of the same cause (R171). -/
def pickTrap (l : List (Nat × TrapIn)) : Option TrapIn :=
  match l with
  | [] => none
  | (_, t) :: _ => some { t with mask := (l.filter (fun x => x.2.cause == t.cause)).foldl (fun m x => m ||| laneBit x.1) 0 }

/-- The faults of an instruction's accesses. -/
def accTrap (trs : List (Nat × Tr)) (l : List LaneAcc) : Option TrapIn :=
  pickTrap (l.filterMap (fun a => (laneTrap trs a).map (fun t => (a.lane, t))))

/-! ## The L1 (R224) -/

def l1Bank (a : Nat) : Nat := fld a 7 4
def l1Set (a : Nat) : Nat := fld a 11 5

/-- The bank of an address is occupied by a miss (R226). -/
def Te.bankBusy (t : Te) (a : Nat) : Bool := t.reqs.any (fun r => r.fill && !r.fin && l1Bank r.line == l1Bank a)

/-- The line held at a virtual address. -/
def Te.l1Find (t : Te) (a : Nat) : Option L1Line := t.l1.find? (fun l => l.va == lineOf a)

def Te.l1Drop (t : Te) (a : Nat) : Te := { t with l1 := t.l1.filter (fun l => l.va != lineOf a) }

/-- The L1 with a new line; a full set gives up one of its eight ways, which one the manual leaves open. -/
def l1Insert (s : State) (t : Te) (l : L1Line) : Te :=
  let same (x : L1Line) : Bool := l1Bank x.va == l1Bank l.va && l1Set x.va == l1Set l.va
  let t1 := t.l1Drop l.va
  let ways := t1.l1.filter same
  let t2 := if ways.length < 8 then t1 else
    match ways[(Config.freeFp s.freeIdx (2 ^ 72)).toNat % 8]? with
    | some v => t1.l1Drop v.va
    | none => t1
  { t2 with l1 := l :: t2.l1 }

/-- A store's bytes in a resident line (R225). -/
def L1Line.write (l : L1Line) (a : Nat) (bs : List Byte) : L1Line :=
  { l with bytes := (List.range 128).map (fun i =>
      if a ≤ l.va + i ∧ l.va + i < a + bs.length then bs.getD (l.va + i - a) 0 else l.bytes.getD i 0) }

/-- A store updates the lines that are resident. -/
def Te.l1Store (t : Te) (l : List LaneAcc) : Te :=
  l.foldl (fun u a => { u with l1 := u.l1.map (fun x => if x.va = lineOf a.va then x.write a.va (leBytes a.size a.data) else x) }) t

/-- A load of space, order, scope and nc whose page is `pa` with `bypass` is served by the L1 (R224). -/
def l1Serves (w : W64) (pa : Nat) (bypass : Bool) : Bool :=
  tSpace w == 0 && (tOrder w == 0 || tScope w ≤ 1) && !tNc w && !bypass && (isHbm pa || isCommons pa || isHost pa)

/-! ## Requests (R168) -/

/-- Accesses of two requests share a byte. -/
def reqMeets (a b : TeReq) : Bool :=
  a.accs.any (fun x => b.accs.any (fun y => x.pa < y.pa + y.size && y.pa < x.pa + x.size))

/-- First byte at home of a request's line. -/
def TeReq.home (r : TeReq) : Nat := match r.accs with | a :: _ => lineOf a.pa | [] => 0

/-- Request `r` needs bytes of store or atomic `q`: it reaches one of them, or fills their line. -/
def needsBytes (q r : TeReq) : Bool := reqMeets q r || (r.fill && q.home == r.home)

/-- Request `q` of the same core, issued by an earlier instruction, comes before the new request `r`: an access of the
same punnet to the same bytes (R217); of two stores or atomics to the same bytes the earlier (R218); a store or atomic
that the core's threads may have observed (R219); for a fill, a store or atomic to its line and a miss of its bank
(R226). -/
def holdsBack (q r : TeReq) : Bool :=
  q.open_ && q.ins != r.ins &&
    ((q.slot == r.slot && reqMeets q r)
    || (q.kind != .load && needsBytes q r && (r.kind != .load || r.fill || q.visCore))
    || (r.fill && q.fill && l1Bank q.line == l1Bank r.line))

/-- The requests that come before a new request `r` of core `c`: of its own core; of its bunch, the stores and atomics
that a release at bunch scope has shown (R219). -/
def heldBy (s : State) (c : Nat) (r : TeReq) : List (Nat × Nat) :=
  (bunchCores c).flatMap (fun n =>
    ((s.te n).reqs.filter (fun q =>
      if n = c then holdsBack q r else q.kind != .load && q.visBunch && needsBytes q r)).map (fun q => (n, q.id)))

/-- Request `d.2` of core `d.1` is not performed yet. -/
def reqOpen (s : State) (d : Nat × Nat) : Bool := (s.te d.1).reqs.any (fun q => q.id == d.2 && q.open_)

/-- Request `r` may be performed: nothing that comes before it is open. -/
def reqReady (s : State) (r : TeReq) : Bool := r.behind.all (fun d => !reqOpen s d)

def findReq (s : State) (c n : Nat) : Option TeReq := (s.te c).reqs.find? (fun r => r.id == n && !r.fin)

def setReq (s : State) (c : Nat) (r : TeReq) : State :=
  s.setTe c { s.te c with reqs := (s.te c).reqs.map (fun q => if q.id = r.id then r else q) }

/-- A load or atomic with acquire order of slot `p` has not landed: later memory instructions wait. -/
def acquireOpen (s : State) (c p : Nat) : Bool := (s.te c).reqs.any (fun r => r.slot == p && r.acquire)

/-! ## Landing (R157, R171, R193) -/

/-- A value read, extended to 32 bits where it is shorter. -/
def extendVal (sext : Bool) (size v : Nat) : Nat := if sext ∧ size < 4 then wrapN (sgn v (8 * size)) 32 else v

/-- The registers with a request's results. -/
def landRegs (r : PunRegs) (q : TeReq) : PunRegs :=
  q.got.foldl (fun t g =>
    let size := match q.accs.find? (fun a => a.lane == g.1) with | some a => a.size | none => 4
    let v := extendVal q.sext size g.2
    match q.dst with
    | some (.vec d) => putVec t d q.regs g.1 v
    | some (.uni d) => t.uset d (BitVec.ofNat 64 v)
    | none => t) r

/-- Requests of slot `p` that belong to instruction `ins`. -/
def groupOfIns (s : State) (c p ins : Nat) : List TeReq := ((s.te c).reqsOf p).filter (fun r => r.ins == ins)

/-- A group's results land, in the punnet's registers and in the registers that younger loads would restore. -/
def landGroup (s : State) (c p ins : Nat) : State :=
  let g := groupOfIns s c p ins
  let land (r : PunRegs) : PunRegs := g.foldl landRegs r
  let t := s.te c
  let x := s.pun c p
  let reqs := (t.reqs.filter (fun q => !(q.slot == p && q.ins == ins))).map (fun q =>
    if q.slot = p ∧ ins < q.ins then { q with ckpt := land q.ckpt } else q)
  let s1 := s.setTe c { t with reqs := reqs, pun := t.pun.put {} p { x with regs := land x.regs } }
  if g.any (·.acqWide) then l1Acquire s1 c else s1

/-- Old value and operand to the new value; none where CAS stores nothing (R195). -/
def atomNew (op size : Nat) (old b k : Nat) : Option Nat :=
  let n := 8 * size
  let pick (x y : Nat) (lt : Bool) : Nat := if lt then x else y
  if op = 0 then some ((old + b) % 2 ^ n)
  else if op = 1 then some (pick old b (sgn old n < sgn b n))
  else if op = 2 then some (pick b old (sgn old n < sgn b n))
  else if op = 3 then some (pick old b (old < b))
  else if op = 4 then some (pick b old (old < b))
  else if op = 5 then some (old &&& b)
  else if op = 6 then some (old ||| b)
  else if op = 7 then some (old ^^^ b)
  else if op = 8 then some b
  else if op = 9 then (if old = k then some b else none)
  else some (addF32 (BitVec.ofNat 32 old) (BitVec.ofNat 32 b)).toNat

/-- Insertion of an access by lane. -/
def byLane (l : List (Nat × LaneAcc)) : List (Nat × LaneAcc) := l.foldl (fun t a => addKey t a.1 a.2) []

/-- The atomics of an instruction are performed in ascending lane order (R167): state and old values by lane. -/
def performAtoms (s : State) (op : Nat) (l : List LaneAcc) : State × List (Nat × Nat) :=
  l.foldl (fun r a =>
    let old := leNat (memBytes r.1 a.pa a.size)
    let s1 := memEvents r.1 a.pa a.size false
    let t := match atomNew op a.size old a.data a.cmp with
      | some v => writePa s1 a.pa (leBytes a.size v)
      | none => s1
    (t, r.2 ++ [(a.lane, old)])) (s, [])

/-- The atomics of a group whose lines are all checked: they are performed, or the lanes that meet poison are noted. -/
def atomGroup (s : State) (c p ins : Nat) : State :=
  let g := groupOfIns s c p ins
  let l := (byLane (g.flatMap (fun r => r.accs.map (fun a => (a.lane, a))))).map (·.2)
  let pre := g.foldl (fun m r => m ||| r.bad) 0
  let bads := l.filter (fun a => poisoned s a.pa a.size || pre.getLsbD a.lane)
  match g with
  | [] => s
  | r :: _ =>
    if bads.isEmpty then
      match performAtoms s r.atomOp l with
      | (t, got) => landGroup (setReq t c { r with got := if r.dst.isSome then got else [], accs := l }) c p ins
    else setReq s c { r with bad := bads.foldl (fun m a => m ||| laneBit a.lane) 0, accs := l }

/-- The group of slot `p`'s oldest request is complete and met poison: the trap of R171 and R232, with the registers as
they were before the instruction. Later requests of the punnet are given up. -/
def poisonTrap (s : State) (c p : Nat) : State :=
  match (s.te c).reqsOf p with
  | [] => s
  | o :: _ =>
    let g := groupOfIns s c p o.ins
    let m := g.foldl (fun m r => m ||| r.bad) 0
    if g.all (·.fin) && m != 0 then
      let va := ((byLane (g.flatMap (fun r => r.accs.map (fun a => (a.lane, a))))).find? (fun a => m.getLsbD a.1)).map (·.2.va)
      trapOp (dropReqs s c p) c p { cause := 3, va := va.getD 0, mask := m } o.ckpt
    else s

/-- After a request of an instruction has completed. -/
def reqSettle (s : State) (c p ins : Nat) : State :=
  let g := groupOfIns s c p ins
  let s1 :=
    if !g.isEmpty && g.all (·.fin) then
      if g.all (fun r => r.kind == .atom) then atomGroup s c p ins
      else if g.all (fun r => r.bad == 0) then landGroup s c p ins
      else s
    else s
  stepSettle (poisonTrap s1 c p) c p

/-- The values that the lanes of a load read from state `s`, and the lanes that meet poison. -/
def loadLanes (s : State) (r : TeReq) : TeReq :=
  let bads := r.accs.filter (fun a => poisoned s a.pa a.size)
  { r with fin := true
           got := r.accs.map (fun a => (a.lane, leNat (memBytes s a.pa a.size)))
           bad := bads.foldl (fun m a => m ||| laneBit a.lane) 0 }

/-- The bytes that a line's stores write, rising; the higher lane stands (R167). -/
def storeBytes (l : List LaneAcc) : List (Nat × Byte) :=
  l.foldl (fun t a => ((List.range a.size).zip (leBytes a.size a.data)).foldl (fun u b => addKey u (a.pa + b.1) b.2) t) []

/-- Consecutive bytes written as one write each. -/
def writeRuns (s : State) : List (Nat × Byte) → Nat → List Byte → State
  | [], a, bs => if bs.isEmpty then s else writePa s a bs
  | (x, b) :: r, a, bs =>
    if bs.isEmpty then writeRuns s r x [b]
    else if x = a + bs.length then writeRuns s r a (bs ++ [b])
    else writeRuns (writePa s a bs) r x [b]

/-- Some granule that the bytes touch is covered in part only. -/
def partCover (l : List (Nat × Byte)) (a : Nat) : Bool :=
  (List.range (granLen a)).any (fun i => (look l (granule a + i)).isNone)

/-- Latency sample of a request (R356 source 3). -/
def reqSample (s : State) (c : Nat) (r : TeReq) : State := monSample s false 3 c ((s.core c).cycles - r.issuedAt)

/-- The store of its own core whose value a load `r` may take before that store is at home: the only one that shares a
byte with it, where nothing comes before the store any more. Whether it does is left open (R216, R223 IRIW1). -/
def takesFrom (s : State) (c : Nat) (r : TeReq) : Option TeReq :=
  match (s.te c).reqs.filter (fun q => q.kind == .store && reqMeets q r) with
  | [q] => if reqReady s q && Config.freeBit s.freeIdx (2 ^ 74 + q.id) then some q else none
  | _ => none

/-- A load is performed: at home, or with the bytes of a store of its core that every thread of the core has then
observed. -/
def loadHome (s : State) (c : Nat) (r : TeReq) : State :=
  match takesFrom s c r with
  | some q =>
    let seen := loadLanes { s with mem := (writeRuns s (storeBytes q.accs) 0 []).mem } r
    setReq (setReq s c { q with visCore := true }) c seen
  | none => setReq s c (loadLanes s r)

/-- MEMORY_REQUEST_COMPLETE (R168, R231, R232): request `n` of core `c` is performed at home; `e` is the check of its
first granule. -/
def execMemoryRequestComplete (c : CoreId) (n : Nat) (e : Ecc) (s : State) : Out :=
  match findReq s c n with
  | none => done s s
  | some r =>
    if r.fill || !reqReady s r then done s s
    else
      let a := match r.accs with | x :: _ => x.pa | [] => 0
      let s0 := reqSample s c r
      match r.kind with
      | .store =>
        let l := storeBytes r.accs
        let s1 := if !l.isEmpty && partCover l a then eccApply s0 (granule a) e else s0
        let s2 := writeRuns s1 l 0 []
        let s3 := s2.setTe c { s2.te c with reqs := (s2.te c).reqs.filter (fun q => q.id != n) }
        done s (reqSettle s3 c r.slot r.ins)
      | .atom =>
        let s1 := r.accs.foldl (fun t x => checkRead t x.pa x.size) (eccApply s0 (granule a) e)
        done s (reqSettle (setReq s1 c { r with fin := true }) c r.slot r.ins)
      | .load =>
        let lo := r.accs.foldl (fun m x => Nat.min m x.pa) a
        let hi := r.accs.foldl (fun m x => Nat.max m (x.pa + x.size)) a
        let s1 := (readPa (eccApply s0 (granule a) e) lo (hi - lo)).1
        done s (reqSettle (loadHome s1 c r) c r.slot r.ins)

/-- L1_FILL (R226): the line of request `n` arrives. A line that an earlier miss of the bank has brought serves it. -/
def execL1Fill (c : CoreId) (n : Nat) (s : State) : Out :=
  match findReq s c n with
  | none => done s s
  | some r =>
    if !r.fill || !reqReady s r then done s s
    else
      let s0 := monSample (reqSample s c r) false 4 c ((s.core c).cycles - r.issuedAt)
      match (if r.keep && l1On s c then (s0.te c).l1Find r.line else none) with
      | some l =>
        let q := { r with fin := true, got := r.accs.map (fun a => (a.lane, leNat ((l.bytes.drop (a.va % 128)).take a.size))) }
        done s (reqSettle (setReq s0 c q) c r.slot r.ins)
      | none =>
        let s1 := (readPa s0 r.home 128).1
        let s2 := setReq s1 c (loadLanes s1 r)
        let s3 := if r.keep && !poisoned s1 r.home 128 then
            s2.setTe c (l1Insert s (s2.te c) { va := r.line, bytes := memBytes s1 r.home 128 })
          else s2
        done s (reqSettle s3 c r.slot r.ins)

/-! ## Issue -/

/-- What the accesses of an instruction are. -/
structure MemOp where
  space : Nat
  acc : Acc
  kind : ReqKind
  accs : List LaneAcc
  dst : Option Dest := none
  regs : Nat := 1
  sext : Bool := false
  atomOp : Nat := 0
  acquire : Bool := false
  release : Bool := false
  scope : Nat := 0

/-- Orders: acquire, release (R194). -/
def isAcquire (o : Nat) : Bool := o == 2 || o == 4
def isRelease (o : Nat) : Bool := o == 3 || o == 4

/-- The request of one line. -/
def mkReq (s : State) (i : TI) (m : MemOp) (ins k line pa : Nat) (old : Bool) : TeReq :=
  let x := s.pun i.c i.p
  { id := ins + k, slot := i.p, ctx := x.ctx, fn := x.fn, kind := m.kind
    line := if m.space = 0 then line else 2 ^ 64 + line
    accs := (m.accs.filter (fun a => lineOf a.va == line)).map (fun a => { a with pa := pa + a.va % 128 })
    dst := m.dst, regs := m.regs, sext := m.sext, atomOp := m.atomOp, global := m.space == 0
    acquire := m.acquire, acqWide := m.acquire && 2 ≤ m.scope
    ins := ins, issuedAt := (s.core i.c).cycles, old := old, ckpt := i.r }

/-- What a release instruction of slot `p` at chip or system scope, or a FENCE before it, puts before a store or atomic
(R219). -/
def ordered (s : State) (c p : Nat) (m : MemOp) : List (Nat × Nat) :=
  if m.kind = .load then []
  else (s.pun c p).relSet ++ (if m.release ∧ 4 ≤ m.scope then releaseList s c p else [])

/-- Of two lanes of one store that reach a byte by different lines the higher stands (R167): the home writes of a request
without those that a later lane of another line overrides. -/
def TeReq.overridden (r : TeReq) (all : List LaneAcc) : TeReq :=
  { r with accs := r.accs.filter (fun a => !all.any (fun b => a.lane < b.lane && b.pa == a.pa)) }

/-- The accesses of an instruction with their physical addresses. -/
def placed (m : MemOp) (trs : List (Nat × Tr)) : List LaneAcc :=
  m.accs.filterMap (fun a => match look trs (lineOf a.va) with
    | some (.ok pa _ _) => some { a with pa := pa + a.va % 128 }
    | _ => none)

/-- Adds the requests of an instruction, by line. A release at a scope below chip shows what precedes it. -/
def addReqs (s : State) (i : TI) (m : MemOp) (ins : Nat) (trs : List (Nat × Tr))
    (one : State → TeReq → Bool → State × TeReq) : State :=
  let s0 := if m.release then releaseAt s i.c m.scope else s
  (trs.zip (List.range trs.length)).foldl (fun t v =>
    match v.1.2 with
    | .ok pa bypass old =>
      match one t (mkReq t i m ins v.2 v.1.1 pa old) bypass with
      | (u, q) =>
        let q1 := if m.kind = .store then q.overridden (placed m trs) else q
        let q2 := { q1 with behind := heldBy u i.c q1 ++ ordered s i.c i.p m }
        u.setTe i.c { u.te i.c with reqs := (u.te i.c).reqs ++ [q2], fresh := ins + trs.length }
    | .bad _ _ => t) s0

/-- A memory instruction with its accesses: it waits for entries (R168), for an acquire, and, unless it is a load, for the
punnet's loads (R171, R221); it traps (R171); or its requests are issued, a global store or atomic waiting for an
occupied bank (R226). -/
def memIssue (s0 s : State) (i : TI) (m : MemOp) (one : State → TeReq → Bool → State × TeReq) : TeRes :=
  if acquireOpen s i.c i.p || (m.kind != .load && !loadsDone s i.c i.p) then .wait s0
  else
    let x := s.pun i.c i.p
    let lines := linesOf m.accs
    match lineTrs s i.c x.fn x.ctx m.space m.acc (if m.kind = .atom then some m.atomOp else none) lines with
    | (t, trs) =>
      match accTrap trs m.accs with
      | some k => .trap t k
      | none =>
        if 2048 < entriesUsed s i.c + lines.length then
          .wait (s0.setPun i.c i.p { s0.pun i.c i.p with waitEnt := true })
        else if m.kind ≠ .load ∧ m.space = 0 ∧ l1On s i.c ∧ lines.any (fun a => (s.te i.c).bankBusy a) then .wait s0
        else
          let ins := (t.te i.c).fresh
          let u := addReqs t i m ins trs one
          -- Lines that hit are complete already.
          let r := i.r.step
          let g := groupOfIns u i.c i.p ins
          if m.kind = .load && g.all (·.fin) then
            let v := u.setPun i.c i.p { u.pun i.c i.p with regs := r }
            let v1 := landGroup v i.c i.p ins
            .go v1 (v1.pun i.c i.p).regs
          else .go u r

/-- A load's line: a hit of the L1 completes at once, a parity error on it being a miss (R230); a miss or an occupied bank
makes it a fill. -/
def loadLine (w : W64) (c : Nat) (s : State) (q : TeReq) (bypass : Bool) : State × TeReq :=
  if !(l1On s c && l1Serves w q.home bypass) then (s, q)
  else if (s.te c).bankBusy q.line then (monEvent s 8 c 1, { q with fill := true })
  else match (s.te c).l1Find q.line with
    | none => (monEvent s 8 c 1, { q with fill := true })
    | some l =>
      if Config.freeBit s.freeIdx (2 ^ 70 + q.line) then
        let s1 := s.setTe c ((s.te c).l1Drop q.line)
        (monEvent (chipErr (inc16 s1 (coreA c 0x614)) 0x49 0 9 c q.home) 8 c 1, { q with fill := true })
      else
        (monEvent s 7 c 1,
          { q with fin := true, got := q.accs.map (fun a => (a.lane, leNat ((l.bytes.drop (a.va % 128)).take a.size))) })

/-- Lanes that access: the executing lanes, or one access for the punnet (R193). -/
def accLanes (i : TI) : List Nat := let l := lanesOf i.ex; if tDu i.w then l.take 1 else l

/-- LD (R193, R194). -/
def execLd (c : CoreId) (p : PunId) (w : W64) (s : State) : Out :=
  teIssue c p [0x40] "LD" w s (fun t i =>
    if i.ex = 0 then .go t i.r.step
    else
      let size := sizeOf (tSize w)
      let m : MemOp := {
        space := tSpace w, acc := .read, kind := .load
        accs := (accLanes i).map (fun l => { lane := l, va := addrOf i.r (tSpace w) (tA w) (tOff w) l, size := size })
        dst := some (if tDu w then .uni (tD w) else .vec (tD w)), regs := regsFor size, sext := tX w
        acquire := isAcquire (tOrder w), scope := tScope w }
      memIssue s t i m (loadLine w c))

/-- A store's line: the L1 is updated where it holds the line (R225), and the threads of the core may then observe it. -/
def storeLine (c : Nat) (s : State) (q : TeReq) (_bypass : Bool) : State × TeReq :=
  if q.global && l1On s c then
    (s.setTe c ((s.te c).l1Store q.accs), { q with visCore := q.accs.any (fun a => ((s.te c).l1Find a.va).isSome) })
  else (s, q)

/-- ST (R193, R194). -/
def execSt (c : CoreId) (p : PunId) (w : W64) (s : State) : Out :=
  teIssue c p [0x41] "ST" w s (fun t i =>
    if i.ex = 0 then .go t i.r.step
    else
      let size := sizeOf (tSize w)
      let m : MemOp := {
        space := tSpace w, acc := .write, kind := .store
        accs := (accLanes i).map (fun l => { lane := l, va := addrOf i.r (tSpace w) (tA w) (tOff w) l, size := size,
                                             data := vecVal i.r (tD w) (regsFor size) l % 2 ^ (8 * size) })
        release := isRelease (tOrder w), scope := tScope w }
      memIssue s t i m (storeLine c))

/-- An atomic's line leaves the L1 (R225). -/
def atomLine (c : Nat) (s : State) (q : TeReq) (_bypass : Bool) : State × TeReq :=
  (if q.global && l1On s c then s.setTe c ((s.te c).l1Drop q.line) else s, q)

/-- An operand of an atomic: 4 bytes, or 8 from a register pair or a whole uniform register. -/
def atomVal (r : PunRegs) (size f l : Nat) : Nat := if size = 4 then (src32 r f l).toNat else (pair64 r f l).toNat

/-- ATOM (R195). -/
def execAtom (c : CoreId) (p : PunId) (w : W64) (s : State) : Out :=
  teIssue c p [0x42] "ATOM" w s (fun t i =>
    if i.ex = 0 then .go t i.r.step
    else
      let k := tMod w
      let size := sizeOf (fld k 0 2)
      let space := fld k 2 1
      let m : MemOp := {
        space := space, acc := .write, kind := .atom
        accs := (accLanes i).map (fun l => { lane := l, va := addrOf i.r space (tA w) 0 l, size := size,
                                             data := atomVal i.r size (tB w) l, cmp := atomVal i.r size (tC w) l })
        dst := if tX w then none else some (if tDu w then .uni (tD w) else .vec (tD w)), regs := regsFor size
        atomOp := fld k 9 4, acquire := isAcquire (fld k 6 3), release := isRelease (fld k 6 3), scope := fld k 3 3 }
      memIssue s t i m (atomLine c))

/-- FENCE (R196, R216, R219, R220, R227). An acquire waits for the punnet's loads and, at bunch scope and wider, empties
the L1. A release at chip or system scope puts what precedes it before the punnet's later stores and atomics; at a
narrower one it shows what precedes it to the threads that the scope covers. The other kinds do both; a sequentially
consistent one at chip or system scope waits until what precedes it is at home. -/
def execFence (c : CoreId) (p : PunId) (w : W64) (s : State) : Out :=
  teIssue c p [0x43] "FENCE" w s (fun t i =>
    if i.ex = 0 then .go t i.r.step
    else
      let kind := fld (tMod w) 3 2
      let sc := fld (tMod w) 0 3
      if (kind ≠ 1 && !loadsDone t c p) || (kind = 3 && 4 ≤ sc && !releaseReady t c p) then .wait s
      else
        let x := t.pun c p
        let t1 := if kind = 0 then t else
          let t0 := if 4 ≤ sc then
              t.setPun c p { x with relSet := x.relSet.filter (reqOpen t) ++ releaseList t c p }
            else t
          releaseAt t0 c sc
        .go (if kind ≠ 1 ∧ 2 ≤ sc then l1Acquire t1 c else t1) i.r.step)

/-! ## L1 control (R228, R229) -/

/-- A write of CORE_L1_CTRL. -/
def l1EnableOp (s : State) (c : Nat) (v : W32) : State := wr s (coreA c 0x600) (v &&& 1)

/-- L1_ENABLE_WRITE (R228). -/
def execL1EnableWrite (c : CoreId) (v : W32) (s : State) : Out := done s (l1EnableOp s c v)

/-- The line lies in the maintenance range (R229). -/
def L1Maint.covers (m : L1Maint) (a : Nat) : Bool :=
  m.size == 0 || (lineOf m.va ≤ a && a < lineOf m.va + (m.va % 128 + m.size + 127) / 128 * 128)

/-- A nonzero op written to CORE_L1_MAINT_OP (R229). -/
def l1MaintOp (s : State) (c op : Nat) : State :=
  let t := s.te c
  if op = 0 then s
  else if t.maint.busy then wrF s (coreA c 0x610) 5 1 1
  else if t.grid.isNone then s
  else
    let m : L1Maint := {
      busy := true, op := op, size := (rd s (coreA c 0x60C)).toNat
      va := rdF s (coreA c 0x604) 7 25 * 128 + rdF s (coreA c 0x608) 0 20 * 2 ^ 32 }
    let m1 := { m with
      lines := (t.l1.filter (fun l => m.covers l.va)).map (·.va)
      stores := (t.reqs.filter (fun r => r.kind == .store && r.global && m.covers r.line)).map (·.id) }
    s.setTe c { t with maint := m1 }

/-- L1_INVALIDATE_OP (R229). -/
def execL1InvalidateOp (c : CoreId) (s : State) : Out := done s (l1MaintOp s c 1)
/-- L1_CLEAN_OP (R229). -/
def execL1CleanOp (c : CoreId) (s : State) : Out := done s (l1MaintOp s c 2)
/-- L1_CLEAN_INVALIDATE_OP (R229). -/
def execL1CleanInvalidateOp (c : CoreId) (s : State) : Out := done s (l1MaintOp s c 3)

/-- L1_MAINT_DONE (R229). -/
def execL1MaintDone (c : CoreId) (s : State) : Out :=
  let t := s.te c
  let m := t.maint
  if !m.busy || (2 ≤ m.op && t.reqs.any (fun r => m.stores.contains r.id)) then done s s
  else
    let l1 := if m.op = 2 then t.l1 else t.l1.filter (fun l => !m.lines.contains l.va)
    done s (s.setTe c { t with l1 := l1, maint := {} })

end Sys2Proof.Machine
end

