-- ==== Sys2Proof/Machine/ThreadRun.lean ====
section
/-! DEFINITION. Launch and end of thread-engine work (R158 to R162, R170), replay and kill of a parked punnet, and its
u63 (R176 to R179). -/

namespace Sys2Proof.Machine

/-! ## TE_LAUNCH (R158, R290) -/

/-- The TE of core `n` may take a new command of function `f` (R290, R312). -/
def teFree (s : State) (n f : Nat) : Bool :=
  let t := s.te n
  t.grid.isNone && t.blocks.isEmpty && t.reqs.isEmpty && !t.saved.any (fun v => v.fn == f)

/-- The command's fields on core `n` (R158, R288). -/
def gridOf (f q : Nat) (c : Cmd) (n : Nat) : Grid :=
  let l := maskCores c.mask.toNat
  { cmd := ⟨f, q, c.seq⟩, ctx := c.ctx, fn := f
    entry := fld (c.w 0) 0 52, blocks := fld (c.w 1) 0 32, threads := fld (c.w 1) 32 9, granules := fld (c.w 1) 41 11
    trapMode := bit (c.w 1) 52, poolOff := fld (c.w 2) 0 13, poolSize := fld (c.w 2) 16 13, trapSize := fld (c.w 2) 32 32
    trapBase := fld (c.w 3) 0 52, args := (List.range 8).map (fun i => c.words.getD (4 + i) 0)
    ci := l.idxOf n, n := l.length }

/-- The command starts on core `n`; a core that has no block of the grid ends at once. -/
def startGrid (s : State) (n : Nat) (g : Grid) : State :=
  if g.blocks ≤ g.ci then cmdEnd s g.cmd n else s.setTe n { s.te n with grid := some g, stopPending := false }

/-- The targeted TEs of TE_LAUNCH `c` that are free for it. -/
def teCores (s : State) (f q : Nat) (c : Cmd) : List Nat :=
  c.toStart.filter (fun n => teFree s n f && firstFor s f q c n)

/-- TE_LAUNCH (R158, R290). -/
def execTeLaunch (f : Fn) (q : Qid) (s : State) : Out :=
  match nextStart s f q 2 (fun c => mayStart s f && resident s c.ctx && !(teCores s f q c).isEmpty) with
  | none => done s s
  | some c =>
    let l := teCores s f q c
    let s1 := modOrder s f q c.order (fun k =>
      { k with started := true, toStart := k.toStart.filter (fun n => !l.contains n) })
    done s (refresh (l.foldl (fun t n => startGrid t n (gridOf f q c n)) s1) f)

/-! ## BLOCK_LAUNCH (R160, R161) -/

/-- Punnets of a block. -/
def Grid.punnets (g : Grid) : Nat := (g.threads + 31) / 32

/-- The next block of this core, if one is left. -/
def Grid.nextBlock (g : Grid) : Option Nat :=
  let b := g.launched * g.n + g.ci
  if b < g.blocks then some b else none

/-- Region slot of block `b`. -/
def Grid.region (g : Grid) (b : Nat) : Option Nat := if g.granules = 0 then none else some (b / g.n % (g.poolSize / g.granules))

/-- Offset of a region slot in the local-store window. -/
def Grid.regionOff (g : Grid) (r : Option Nat) : Nat := match r with | some k => (g.poolOff + k * g.granules) * 4096 | none => 0

/-- Initial active mask of punnet `i`. -/
def Grid.lanes (g : Grid) (i : Nat) : W32 := maskOf (fun l => 32 * i + l < g.threads)

/-- The registers of punnet `i` of block `b` in slot `s` of core `c` (R161). -/
def Grid.regs (g : Grid) (c b i slot : Nat) : PunRegs :=
  let u : List (Nat × Nat) := [(0, b), (1, g.blocks), (2, i), (3, c), (4, g.regionOff (g.region b)),
    (63, g.trapBase + (g.ci * 64 + slot + 1) * 1024)]
  let r0 : PunRegs := { pc := g.entry, active := g.lanes i }
  let r1 := u.foldl (fun (r : PunRegs) k => r.uset k.1 (BitVec.ofNat 64 k.2)) r0
  let r2 := (List.range 8).foldl (fun (r : PunRegs) k => r.uset (8 + k) (g.args.getD k 0)) r1
  (List.range 32).foldl (fun r l => r.vset 0 l (BitVec.ofNat 32 (32 * i + l))) r2

/-- Free punnet slots, lowest first. -/
def freeSlots (t : Te) : List Nat := (List.range 64).filter (fun p => !(t.pun.get {} p).resident)

/-- The block's punnets in their slots. -/
def launchPunnets (s : State) (c : Nat) (g : Grid) (b : Nat) (slots : List Nat) : State :=
  (slots.zip (List.range slots.length)).foldl (fun t v =>
    t.setPun c v.1 { resident := true, ctx := g.ctx, fn := g.fn, cmd := g.cmd, block := b, idx := v.2,
                     regs := g.regs c b v.2 v.1, init := g.lanes v.2 }) s

/-- The L1 of a TE that last ran another context is emptied (R170). -/
def freshCtx (t : Te) (x : Nat) : Te := if t.lastCtx = some x then t else { l1Clear t with lastCtx := some x }

/-- Context number `x` is free for another context: an L1 that holds lines of it does not hold the next one's (R170). -/
def forgetCtx (s : State) (x : Nat) : State :=
  upTo 32 s (fun t c => if (t.te c).lastCtx = some x then t.setTe c { t.te c with lastCtx := none } else t)

/-- BLOCK_LAUNCH (R160, R161): the next block of core `c` launches. -/
def execBlockLaunch (c : CoreId) (s : State) : Out :=
  let t := s.te c
  match t.grid with
  | none => done s s
  | some g =>
    match g.nextBlock with
    | none => done s s
    | some b =>
      let slots := (freeSlots t).take g.punnets
      let r := g.region b
      if gridCut s c || t.stopPending || slots.length < g.punnets || (r.isSome && t.blocks.any (fun k => k.region == r)) then
        done s s
      else
        let k : Block := { b := b, cmd := g.cmd, ctx := g.ctx, region := r, slots := slots }
        let s1 := s.setTe c { freshCtx t g.ctx with grid := some { g with launched := g.launched + 1 }, blocks := t.blocks ++ [k] }
        let s2 := launchPunnets s1 c g b slots
        let tag := match findCmd s g.cmd with | some k => k.tag | none => 0
        done s (if g.launched = 0 then trcEng s2 1 c .te g.ctx g.cmd tag 0 else s2)

/-! ## BLOCK_END (R162, R176, R300) -/

/-- A request writes local store and has not landed. -/
def TeReq.lsWrite (r : TeReq) : Bool := r.kind != .load && r.accs.any (fun a => isLocal a.pa)

/-- A block has nothing more to do: its punnets have ended and its local-store writes have landed (R162); or the grid is
cut (R176, R300), and its requests are done. -/
def blockOver (s : State) (c : Nat) (k : Block) : Bool :=
  if gridCut s c then k.slots.all (fun p => punIdle s c p)
  else k.slots.all (fun p => (s.pun c p).ended) && (s.te c).reqs.all (fun r => !(k.slots.contains r.slot && r.lsWrite))

/-- A slot as its punnet leaves it: the shadow frame and the trap's record stay until it is allocated again (R174). -/
def Punnet.left (x : Punnet) : Punnet := { shadow := x.shadow, trap := x.trap }

/-- The slot number under which the requests of blocks that have ended stand. -/
def goneSlot : Nat := 64

/-- The block's slots and region return. Its global writes may still be on their way: they are no slot's any more. -/
def freeBlock (s : State) (c : Nat) (k : Block) : State :=
  let s1 := k.slots.foldl (fun t p => let u := dropTeWaits t c (some p); u.setPun c p (u.pun c p).left) s
  s1.setTe c { s1.te c with
    blocks := (s1.te c).blocks.filter (fun x => x.b != k.b)
    reqs := (s1.te c).reqs.map (fun r => if k.slots.contains r.slot then { r with slot := goneSlot } else r) }

/-- The command's part on this TE ends when no block is left and none will launch. -/
def endGrid (s : State) (c : Nat) : State :=
  let t := s.te c
  match t.grid with
  | none => s
  | some g =>
    if !t.blocks.isEmpty || !t.reqs.isEmpty || !(gridCut s c || g.nextBlock.isNone) then s
    else
      let outcome := if g.stopped then g.cause else if cmdAborting s g.cmd then 0xFF else 0
      let tag := match findCmd s g.cmd with | some k => k.tag | none => 0
      let s1 := if g.launched = 0 then s else trcEng s 2 c .te g.ctx g.cmd tag outcome
      let s2 := s1.setTe c { s1.te c with grid := none, stopPending := false }
      refresh (cmdEnd s2 g.cmd c) g.fn

/-- BLOCK_END (R162): block `b` of core `c`. A grid that is cut and holds no block ends as well. -/
def execBlockEnd (c : CoreId) (b : Nat) (s : State) : Out :=
  match (s.te c).blocks.find? (fun k => k.b == b) with
  | some k => if blockOver s c k then done s (endGrid (freeBlock s c k) c) else done s s
  | none => if gridCut s c then done s (endGrid s c) else done s s

/-! ## Parked punnets (R177, R179) -/

/-- The selected slot of core `c`. -/
def selSlot (s : State) (c : Nat) : Nat := rdF s (coreA c 0x20C) 0 6

/-- A preemption is pending on core `c`. -/
def preemptPending (s : State) (c : Nat) : Bool :=
  let x := s.core c
  x.te.stopPending || x.mx.stopPending || x.tx.stopPending || (match x.glPass with | some w => w.stop | none => false)

/-- pc, active mask and predicates of a frame, and its uniform registers below `n`. An ended lane stays ended. -/
def PunRegs.reload (r : PunRegs) (may : W32) (b : List Byte) (n : Nat) : PunRegs :=
  let r1 := { r with pc := at_ b 0 8, active := BitVec.ofNat 32 (at_ b 0x0C 4) &&& may }
  let r2 := (List.range 8).foldl (fun (t : PunRegs) i => t.pset i (BitVec.ofNat 32 (at_ b (0x60 + 4 * i) 4))) r1
  (List.range n).foldl (fun (t : PunRegs) i => t.uset i (BitVec.ofNat 64 (at_ b (0x80 + 8 * i) 8))) r2

/-- A replay of the selected punnet (R179): its result, and the state. -/
def replayOp (s : State) (c : Nat) : State :=
  let p := selSlot s c
  let x := s.pun c p
  let res (t : State) (n : Nat) : State := wrF t (coreA c 0x224) 4 2 n
  let go (t : State) (r : PunRegs) : State :=
    res (t.setPun c p { x with regs := r.settle, parked := false, trap := { x.trap with parked := false } }) 0
  let may := x.init &&& ~~~x.exited
  if !x.parked || preemptPending s c then res s 1
  else if x.trap.double then
    if !x.trap.u63Written then res s 2 else go s (x.regs.reload may x.shadow 48)
  else match readVa s c x.fn (some x.ctx) (x.regs.ug 63).toNat 640 .read with
    | (t, .inr _) => res t 3
    | (t, .inl b) => go t ((x.regs.reload may b 64).uset 63 (BitVec.ofNat 64 (at_ b 0x38 8)))

/-- REPLAY (R179). -/
def execReplay (c : CoreId) (s : State) : Out := done s (replayOp s c)

/-- A kill of the selected punnet (R176, R177): the fault record and the end of the context on this TE. -/
def punKillOp (s : State) (c : Nat) : State :=
  let p := selSlot s c
  let x := s.pun c p
  match (s.te c).grid with
  | none => s
  | some g =>
    if !x.parked then s
    else
      let k := x.trap
      let r : FltRec := {
        code := if k.double then 0x13 else k.cause, sub := if k.double then k.cause else k.sub, level := k.level
        double := k.double, parked := true, va := k.va, mask := k.mask
        eng := some (engId c .te), slot := p, q := some g.cmd.q, ctx := some g.ctx, seq := g.cmd.seq, pc := x.regs.pc
        block := 9, inst := c }
      endTe (if k.cause = 8 ∧ !k.double then s else fnNew s g.fn r) c k.cause

/-- PUNNET_KILL (R177). -/
def execPunnetKill (c : CoreId) (s : State) : Out := done s (punKillOp s c)

/-- A write of CORE_TE_U63_HI: held. -/
def u63HiOp (s : State) (c : Nat) (v : W32) : State :=
  if (s.pun c (selSlot s c)).parked then s.setTe c { s.te c with u63Hi := v } else s

/-- A write of CORE_TE_U63_LO: commits both halves to a parked punnet. -/
def u63LoOp (s : State) (c : Nat) (v : W32) : State :=
  let p := selSlot s c
  let x := s.pun c p
  if x.parked then
    s.setPun c p { x with regs := x.regs.uset 63 ((s.te c).u63Hi ++ v), trap := { x.trap with u63Written := true } }
  else s

/-- U63_HI_WRITE (R179). -/
def execU63HiWrite (c : CoreId) (v : W32) (s : State) : Out := done s (u63HiOp s c v)
/-- U63_LO_WRITE (R179). -/
def execU63LoWrite (c : CoreId) (v : W32) (s : State) : Out := done s (u63LoOp s c v)

end Sys2Proof.Machine
end

