-- ==== Sys2Proof/Machine/SaveArea.lean ====
section
/-! DEFINITION. What engines leave in a context's save area and take back from it (R124, R125, R154, R180, R298, R313).
DESIGN CHOICE (log entry 48): the manual gives the items and their sizes; their order and the places of their fields are
the model's. What an item's bytes have no room for stays with the engine's record of the saved work. -/

namespace Sys2Proof.Machine

/-! ## Places in a core's part -/

def offPun (p : Nat) : Nat := 33888 * p
def offBank (b : Nat) : Nat := 2168832 + 262144 * b
def offEng : CE → Nat | .mx => 2693120 | .tx => 2693712
def offBar (i : Nat) : Nat := 2694304 + 16 * i
def offGl : Nat := 2695328

/-- Reads pieces of a save area, given as (offset, length): their bytes, or the first failure. -/
def saveReads (s : State) (x : Nat) (l : List (Nat × Nat)) : State × (List (List Byte) ⊕ XF) :=
  l.foldl (fun r p => match r with
    | (t, .inr e) => (t, .inr e)
    | (t, .inl bs) => match saveRead t x p.1 p.2 with
      | (u, .inl b) => (u, .inl (bs ++ [b]))
      | (u, .inr e) => (u, .inr e)) (s, .inl [])

/-! ## Clause streams (R124) -/

/-- A generator in 40 bytes: the fields of its mode (R118). -/
def Agu.pack (g : Agu) : List Byte :=
  if g.index then leBytes 4 1 ++ leBytes 4 g.pos.toNat ++ leBytes 8 g.rowBase.toNat ++ leBytes 8 g.rowStride.toNat
    ++ List.replicate 16 0
  else leBytes 4 0 ++ leBytes 2 g.count0.toNat ++ leBytes 2 g.pos0.toNat ++ leBytes 8 g.start.toNat ++ leBytes 8 g.addr.toNat
    ++ leBytes 8 g.step0.toNat ++ leBytes 8 g.step1.toNat

/-- The generator with what 40 bytes hold. -/
def Agu.unpack (g : Agu) (b : List Byte) : Agu :=
  let n (o k w : Nat) : BitVec w := BitVec.ofNat w (at_ b o k)
  if at_ b 0 4 = 1 then { g with index := true, pos := n 4 4 32, rowBase := n 8 8 64, rowStride := n 16 8 64 }
  else { g with index := false, count0 := n 4 2 16, pos0 := n 6 2 16, start := n 8 8 64, addr := n 16 8 64
                step0 := n 24 8 64, step1 := n 32 8 64 }

/-- A stopped stream in 592 bytes: program counter and flags, s1 to s31, lc0 to lc3, a0 to a7. The flags are acc_live and
the tags of the banks. -/
def StreamSave.pack (v : StreamSave) : List Byte :=
  let y := v.eng
  let tag (b : Nat) : Nat := if (v.banks.get {} b).isInt then 1 else 0
  leBytes 8 y.pc ++ leBytes 8 (y.accLive + 4 * tag 0 + 8 * tag 1)
    ++ (List.range 31).flatMap (fun i => leBytes 8 (y.scal.get 0 (i + 1)).toNat)
    ++ (List.range 4).flatMap (fun i => leBytes 2 (y.lc.get 0 i).toNat)
    ++ (List.range 8).flatMap (fun i => (y.ag.get {} i).pack)

/-- The elements of a bank, row by row. -/
def Bank.pack (k : Bank) : List Byte := (List.range 65536).flatMap (fun i => leBytes 4 (k.el.get 0 i).toNat)

/-- Words of 4 bytes as a table from key `k` on. -/
def wordsAt (t : Tbl W32) (k n : Nat) (b : List Byte) : Tbl W32 :=
  (List.range n).foldl (fun t i => t.put 0 (k + i) (BitVec.ofNat 32 (at_ b (4 * i) 4))) t

/-- Banks that a saved stream holds. -/
def StreamSave.live (v : StreamSave) : List Nat := if v.e = .mx then (List.range 2).filter (bit v.eng.accLive) else []

/-- Where a saved stream lies in the save area. -/
def StreamSave.places (v : StreamSave) (p : Nat) : List (Nat × Nat) :=
  (p + offEng v.e, 592) :: v.live.map (fun b => (p + offBank b, 262144))

/-- A saved stream's pieces for the save area. -/
def StreamSave.pieces (v : StreamSave) (p : Nat) : List (Nat × List Byte) :=
  (p + offEng v.e, v.pack) :: v.live.map (fun b => (p + offBank b, (v.banks.get {} b).pack))

/-- The saved stream with what its pieces hold. -/
def StreamSave.unpack (v : StreamSave) (l : List (List Byte)) : StreamSave :=
  let b := l.headD []
  let flags := at_ b 8 8
  let y := v.eng
  let live := v.live
  { v with
    eng := { y with
      pc := at_ b 0 8, accLive := fld flags 0 2
      scal := (List.range 31).foldl (fun t i => t.put 0 (i + 1) (BitVec.ofNat 64 (at_ b (16 + 8 * i) 8))) {}
      lc := (List.range 4).foldl (fun t i => t.put 0 i (BitVec.ofNat 16 (at_ b (264 + 2 * i) 2))) {}
      ag := (List.range 8).foldl (fun t i => t.put {} i ((y.ag.get {} i).unpack ((b.drop (272 + 40 * i)).take 40))) {} }
    banks := (live.zip l.tail).foldl (fun t z => t.put {} z.1
      { isInt := bit flags (2 + z.1), el := wordsAt {} 0 65536 z.2, bad := (v.banks.get {} z.1).bad }) {} }

/-! ## Thread-engine work (R180) -/

/-- A reconvergence stack entry in 16 bytes: the join, the other lanes, and their address from the join. -/
def Reconv.pack (r : Reconv) : List Byte :=
  leBytes 8 r.at_ ++ leBytes 4 r.other.toNat ++ leBytes 4 (wrapN ((r.otherPc : Int) - r.at_) 32)

def Reconv.unpack (r : Reconv) (b : List Byte) : Reconv :=
  let n (o k : Nat) : Nat := leNat ((b.drop o).take k)
  { r with at_ := n 0 8, other := BitVec.ofNat 32 (n 8 4), otherPc := wrapN ((n 0 8 : Int) + sgn (n 12 4) 32) 64 }

/-- A punnet in 33,888 bytes: vector registers, uniform registers, predicates, reconvergence stack, control state with the
parked and double flags. -/
def Punnet.pack (x : Punnet) : List Byte :=
  let r := x.regs
  let f (v : Bool) (n : Nat) : Nat := if v then 2 ^ n else 0
  (List.range 8192).flatMap (fun i => leBytes 4 (r.v.get 0 i).toNat)
    ++ (List.range 64).flatMap (fun i => leBytes 8 (r.u.get 0 i).toNat)
    ++ (List.range 8).flatMap (fun i => leBytes 4 (r.p.get 0 i).toNat)
    ++ (List.range 32).flatMap (fun i => (r.stack.getD i {}).pack)
    ++ leBytes 8 r.pc ++ leBytes 4 r.active.toNat ++ leBytes 4 x.init.toNat ++ leBytes 4 x.exited.toNat
    ++ leBytes 4 (f x.ended 0 + f x.parked 1 + f x.trap.double 2 + f x.trap.parked 3 + f x.trap.u63Written 4 + f x.nextArr 5
        + f x.stepDue 6 + r.stack.length * 256)
    ++ leBytes 4 x.trap.cause ++ leBytes 4 x.idx ++ leBytes 4 (x.trap.sub + x.trap.level * 256)
    ++ leBytes 4 x.trap.mask.toNat ++ leBytes 8 x.trap.va ++ List.replicate 16 0

/-- The punnet with what 33,888 bytes hold. -/
def Punnet.unpack (x : Punnet) (b : List Byte) : Punnet :=
  let r := x.regs
  let c := b.drop 33824
  let flags := at_ c 20 4
  { x with
    regs := { r with
      v := wordsAt {} 0 8192 b
      u := (List.range 64).foldl (fun t i => t.put 0 i (BitVec.ofNat 64 (at_ b (32768 + 8 * i) 8))) {}
      p := wordsAt {} 0 8 (b.drop 33280)
      stack := (List.range (fld flags 8 6)).map (fun i => (r.stack.getD i {}).unpack ((b.drop (33312 + 16 * i)).take 16))
      pc := at_ c 0 8, active := BitVec.ofNat 32 (at_ c 8 4) }
    init := BitVec.ofNat 32 (at_ c 12 4), exited := BitVec.ofNat 32 (at_ c 16 4)
    ended := bit flags 0, parked := bit flags 1, nextArr := bit flags 5, stepDue := bit flags 6
    trap := {
              double := bit flags 2, parked := bit flags 3, u63Written := bit flags 4, cause := at_ c 24 4
              sub := at_ c 32 1, level := at_ c 33 1, mask := BitVec.ofNat 32 (at_ c 36 4), va := at_ c 40 8 }
    idx := at_ c 28 4 }

/-- A block's barrier state in 16 bytes: the slots that have arrived, the generation, the block. -/
def Block.pack (k : Block) : List Byte :=
  leBytes 8 ((List.range 64).filter (fun p => k.arrived.contains p) |>.map (2 ^ ·)).sum ++ leBytes 4 k.gen ++ leBytes 4 k.b

def Block.unpack (k : Block) (b : List Byte) : Block :=
  { k with arrived := (List.range 64).filter (bit (at_ b 0 8)), gen := at_ b 8 4 }

/-- Slots whose punnets saved TE work holds. -/
def TeSave.slots (v : TeSave) : List Nat := (List.range 64).filter (fun p => (v.punnets.get {} p).resident)

/-- The blocks' regions of saved TE work: offset in the window, and length. -/
def TeSave.regions (v : TeSave) : List (Nat × Nat) :=
  match v.grid with
  | some g => (v.blocks.filter (fun k => k.region.isSome)).map (fun k => (g.regionOff k.region, g.granules * 4096))
  | none => []

/-- Where saved TE work lies in the save area, but for its regions, which lie in the window's place. -/
def TeSave.places (v : TeSave) (p : Nat) : List (Nat × Nat) :=
  v.slots.map (fun i => (p + offPun i, 33888)) ++ (List.range v.blocks.length).map (fun i => (p + offBar i, 16))

def TeSave.pieces (v : TeSave) (p : Nat) : List (Nat × List Byte) :=
  v.slots.map (fun i => (p + offPun i, (v.punnets.get {} i).pack))
    ++ (List.range v.blocks.length).map (fun i => (p + offBar i, (v.blocks.getD i {}).pack))

/-- The saved TE work with what its pieces hold. -/
def TeSave.unpack (v : TeSave) (l : List (List Byte)) : TeSave :=
  let ps := v.slots
  { v with
    punnets := (ps.zip l).foldl (fun t z => t.put {} z.1 ((v.punnets.get {} z.1).unpack z.2)) v.punnets
    blocks := (v.blocks.zip (l.drop ps.length)).map (fun z => z.1.unpack z.2) }

/-! ## Gleaning passes (R154) -/

/-- Banks of a pass that hold accumulation: none before the pair's first K tile. -/
def GlWin.banks (w : GlWin) : Nat := if w.tile = 0 then 0 else Nat.min 2 ((w.nCols - 512 * w.pair + 255) / 256)

/-- An admitted request in 16 bytes. -/
def GlReq.pack (r : GlReq) : List Byte :=
  leBytes 8 (r.aNoun + r.oNoun * 2 ^ 12 + r.m * 2 ^ 24 + r.conj * 2 ^ 30 + (if r.sig then 2 ^ 39 else 0) + r.base * 2 ^ 40)
    ++ leBytes 8 r.cmd.seq.toNat

def GlReq.unpack (r : GlReq) (b : List Byte) : GlReq :=
  let w := at_ b 0 8
  { r with aNoun := fld w 0 12, oNoun := fld w 12 12, m := fld w 24 6, conj := fld w 30 9, sig := bit w 39, base := fld w 40 6 }

/-- The 64 bytes of sequencer state: the pair of N tiles, its K tiles accumulated, the requests. -/
def GlWin.pack (w : GlWin) : List Byte :=
  leBytes 4 w.pair ++ leBytes 4 w.tile ++ leBytes 4 w.reqs.length ++ List.replicate 52 0 ++ w.reqs.flatMap (·.pack)

/-- The accumulated rows of bank `b` of the pair. -/
def GlWin.packRows (w : GlWin) (b : Nat) : List Byte :=
  (List.range w.rows).flatMap (fun r => (List.range 256).flatMap (fun j =>
    leBytes 4 (w.acc.get 0 (65536 * r + 512 * w.pair + 256 * b + j)).toNat))

def GlWin.places (w : GlWin) (p : Nat) : List (Nat × Nat) :=
  (p + offGl, 64 + 16 * w.reqs.length) :: (List.range w.banks).map (fun b => (p + offBank b, 1024 * w.rows))

def GlWin.pieces (w : GlWin) (p : Nat) : List (Nat × List Byte) :=
  (p + offGl, w.pack) :: (List.range w.banks).map (fun b => (p + offBank b, w.packRows b))

/-- The pass with what its pieces hold. -/
def GlWin.unpack (w : GlWin) (l : List (List Byte)) : GlWin :=
  let b := l.headD []
  let pair := at_ b 0 4
  { w with
    pair := pair, tile := at_ b 4 4
    reqs := (List.range w.reqs.length).map (fun i => (w.reqs.getD i {}).unpack ((b.drop (64 + 16 * i)).take 16))
    acc := ((List.range w.banks).zip l.tail).foldl (fun t z => (List.range w.rows).foldl (fun t r =>
      wordsAt t (65536 * r + 512 * pair + 256 * z.1) 256 (z.2.drop (1024 * r))) t) {} }

/-! ## Block regions (R180, R313) -/

/-- The regions of saved TE work as pieces for the save area, from core `c`'s local store. -/
def regionPieces (s : State) (c : Nat) (v : TeSave) : List (Nat × List Byte) :=
  v.regions.map (fun r => (savePart s v.ctx c + saveWin + r.1, memBytes s ((winRange s v.ctx c).1 + r.1) r.2))

/-- The regions are read back into the window. -/
def loadRegions (s : State) (c : Nat) (v : TeSave) : State × Option XF :=
  v.regions.foldl (fun r k => match r with
    | (t, some e) => (t, some e)
    | (t, none) => match saveRead t v.ctx (savePart t v.ctx c + saveWin + k.1) k.2 with
      | (u, .inr e) => (u, some e)
      | (u, .inl bs) => (memWrite u ((winRange u v.ctx c).1 + k.1) bs, none)) (s, none)

end Sys2Proof.Machine
end

