-- ==== Sys2Proof/Machine/Sched.lean ====
section
/-! DEFINITION. Slices, handover, preemption and restore (R124, R154, R180, R181, R307 to R314). -/

namespace Sys2Proof.Machine

/-! ## Slices (R307, R308, R311) -/

/-- Partition `p`'s slice has ended: the holder has used it and another tenant is active, or is inactive (R307). -/
def sliceOver (s : State) (p : Nat) : Bool :=
  match (s.partS p).holder with
  | none => false
  | some f =>
    !isActive s f ||
      ((sliceLen s p * 65536 : Nat) ≤ (s.partS p).used && (tenantsOf s p).any (fun g => g != f && isActive s g))

/-- SLICE_EXPIRY (R307, R308, R310): the slice that has ended passes on, and what an exhausted partition put off is made. -/
def execSliceExpiry (p : PartId) (s : State) : Out :=
  if gateClosed s p then done s s
  else if (takeoverDue s p).isSome || !sliceOver s p then done s (regrant s p)
  else done s (grantBest s p)

/-- An engine of core `x` still has to stop for a handover. -/
def Core.stopping (x : Core) : Bool :=
  x.mx.stopPending || x.tx.stopPending || x.te.stopPending || (match x.glPass with | some w => w.stop | none => false)

/-- HANDOVER_COMPLETE (R311): every engine that was asked has ended or been copied. The trackers pass to the tenant that
holds the slice, or was the last to (R271). -/
def execHandoverComplete (p : PartId) (s : State) : Out :=
  let k := s.partS p
  if k.outgoing.isNone || (coresOf s p).any (fun c => (s.core c).stopping) then done s s
  else
    let s1 := s.setPartS p { k with outgoing := none }
    done s (match k.last with | some f => switchTrackers s1 p f | none => s1)

/-! ## Copies into the preemption buffer (R313) -/

/-- Size of the preemption buffer. -/
def preSize : Nat := 2097152

/-- The buffer has room for `n` bytes; a copy larger than the buffer needs all of it and goes on as it is written out. -/
def preRoom (x : Core) (n : Nat) : Bool := x.preUsed + n ≤ preSize || (preSize < n && x.preUsed == 0)

/-- Counts a preemption of an engine of core `c` that ran function `f`. -/
def countPreempt (s : State) (c f : Nat) : State :=
  let p := (tenant s f).part
  let s1 := inc32 (monEvent s 16 c 1) (coreA c 0x804) 1
  let s2 := s1.setPartS p { s1.partS p with preempts := (s1.partS p).preempts + 1 }
  s2.setFnS f { s2.fnS f with preempted := (s2.fnS f).preempted + 1 }

/-- Bytes of a clause stream's state: the engine's, and 256 KiB for each live accumulator bank (R124). -/
def streamBytes (e : CE) (y : ClEng) : Nat := if e = .tx then 592 else 592 + 262144 * popTo y.accLive 2

/-- A stopped stream is copied. One that is being aborted ends instead. -/
def copyStream (s : State) (c : Nat) (e : CE) : State :=
  let x := s.core c
  let y := x.eng e
  let n := streamBytes e y
  if !y.stopped then s
  else if y.aborting then s.setEng c e { y with stopped := false, stopPending := false }
  else if !preRoom x n then s
  else
    let v : StreamSave := {
      e := e, eng := { y with stopped := false, stopPending := false }, banks := if e = .mx then x.banks else {}
      bytes := Nat.min n preSize, stamp := x.preNext }
    let s1 := clearEng (s.setCore c { x with streams := x.streams ++ [v], preNext := x.preNext + 1 }) c e
    trcEng (countPreempt s1 c y.fn) 3 c (CE.eng e) y.ctx y.cmd (tagOf s y.cmd) 0

/-- Bytes of a pass's state (R154): the sequencer, the requests, and the rows of each bank that holds accumulation. -/
def passBytes (w : GlWin) : Nat := 64 + 16 * w.reqs.length + 1024 * w.rows * w.banks

/-- A gleaning pass at its stop point is copied. -/
def copyPass (s : State) (c : Nat) : State :=
  let x := s.core c
  match x.glPass with
  | none => s
  | some w =>
    let n := passBytes w
    if !w.stopped || !preRoom x n then s
    else
      let v := { w with stop := false, bytes := n, stamp := x.preNext }
      let s1 := s.setCore c { x with glPass := none, glSaved := x.glSaved ++ [v], preNext := x.preNext + 1 }
      w.reqs.foldl (fun t r => trcEng t 3 c .mx w.ctx r.cmd (tagOf t r.cmd) 0) (countPreempt s1 c w.fn)

/-- Bytes of TE work that pass through the buffer (R180): the resident punnets and the blocks' barrier state. -/
def teBytes (t : Te) : Nat :=
  33888 * ((List.range 64).filter (fun p => (t.pun.get {} p).resident)).length + 16 * t.blocks.length

/-- TE work with no outstanding request is copied (R180), its slots one after another in one step (log entry 82): a slot
keeps the frame that R174 leaves in it. One whose command is cut ends by BLOCK_END instead. -/
def copyTe (s : State) (c : Nat) : State :=
  let x := s.core c
  let t := x.te
  match t.grid with
  | none => s
  | some g =>
    let n := teBytes t
    if !t.stopPending || !t.reqs.isEmpty || gridCut s c || !preRoom x n then s
    else
      let held := t.pun.entries.filter (fun e => e.2.resident)
      let v : TeSave := {
        ctx := g.ctx, fn := g.fn, grid := some g, blocks := t.blocks, punnets := ⟨held⟩
        bytes := Nat.min n preSize, stamp := x.preNext }
      let t1 := { t with grid := none, blocks := [], stopPending := false, saved := t.saved ++ [v]
                         pun := held.foldl (fun p e => p.put {} e.1 e.2.left) t.pun }
      let s1 := dropTeWaits (s.setCore c { x with te := t1, preNext := x.preNext + 1 }) c none
      trcEng (countPreempt s1 c g.fn) 3 c .te g.ctx g.cmd (tagOf s g.cmd) 0

/-- PREEMPT_COPY_DONE (R313): the state of the stopped engine is in the buffer and the engine is free. -/
def execPreemptCopyDone (c : CoreId) (e : Eng) (s : State) : Out :=
  done s (match e with
    | .mx => if (s.core c).glPass.isSome then copyPass s c else copyStream s c .mx
    | .tx => copyStream s c .tx
    | .te => copyTe s c)

/-! ## Write-out (R313, R314) -/

/-- The copies still in the buffer: stamp, bytes, context. -/
def inBuffer (x : Core) : List (Nat × Nat × Nat) :=
  (x.streams.map (fun v => (v.stamp, v.bytes, v.eng.ctx)) ++ x.te.saved.map (fun v => (v.stamp, v.bytes, v.ctx))
    ++ x.glSaved.map (fun w => (w.stamp, w.bytes, w.ctx))).filter (fun v => v.2.1 != 0)

/-- The oldest copy in the buffer. -/
def oldestCopy (x : Core) : Option (Nat × Nat × Nat) :=
  (inBuffer x).foldl (fun b v => match b with | none => some v | some w => if v.1 < w.1 then some v else some w) none

/-- The copy `stamp` has left the buffer. -/
def Core.wroteOut (x : Core) (stamp : Nat) : Core :=
  { x with streams := x.streams.map (fun v => if v.stamp = stamp then { v with bytes := 0 } else v)
           te := { x.te with saved := x.te.saved.map (fun v => if v.stamp = stamp then { v with bytes := 0 } else v) }
           glSaved := x.glSaved.map (fun w => if w.stamp = stamp then { w with bytes := 0 } else w) }

/-- The pieces of copy `stamp` of core `c` for its context's save area; a block's region comes from local store (R313). -/
def copyPieces (s : State) (c stamp : Nat) : List (Nat × List Byte) :=
  let x := s.core c
  (x.streams.filter (fun v => v.stamp == stamp)).flatMap (fun v => v.pieces (savePart s v.eng.ctx c))
  ++ (x.te.saved.filter (fun v => v.stamp == stamp)).flatMap (fun v => v.pieces (savePart s v.ctx c) ++ regionPieces s c v)
  ++ (x.glSaved.filter (fun w => w.stamp == stamp)).flatMap (fun w => w.pieces (savePart s w.ctx c))

/-- BUFFER_WRITE_OUT_DONE (R313, R298): the oldest copy has been written to its context's save area. -/
def execBufferWriteOutDone (c : CoreId) (s : State) : Out :=
  match oldestCopy (s.core c) with
  | none => done s s
  | some (stamp, _, x) =>
    let s1 := s.setCore c ((s.core c).wroteOut stamp)
    match saveAll s1 x (copyPieces s c stamp) with
    | (t, some e) => done s (saveFail t x e none)
    | (t, none) => done s t

/-! ## Restore (R125, R181, R312): state that has left the buffer is read from the save area -/

/-- A saved stream of core `c` as it is restored. -/
def streamBack (s : State) (c : Nat) (v : StreamSave) : State × (StreamSave ⊕ XF) :=
  if v.bytes ≠ 0 then (s, .inl v)
  else match saveReads s v.eng.ctx (v.places (savePart s v.eng.ctx c)) with
    | (t, .inl l) => (t, .inl (v.unpack l))
    | (t, .inr e) => (t, .inr e)

/-- A saved pass of core `c` as it is restored. -/
def passBack (s : State) (c : Nat) (w : GlWin) : State × (GlWin ⊕ XF) :=
  if w.bytes ≠ 0 then (s, .inl w)
  else match saveReads s w.ctx (w.places (savePart s w.ctx c)) with
    | (t, .inl l) => (t, .inl (w.unpack l))
    | (t, .inr e) => (t, .inr e)

/-- Saved TE work of core `c` as it is restored; its regions are in their window again. -/
def teBack (s : State) (c : Nat) (v : TeSave) : State × (TeSave ⊕ XF) :=
  if v.bytes ≠ 0 then (s, .inl v)
  else match saveReads s v.ctx (v.places (savePart s v.ctx c)) with
    | (t, .inr e) => (t, .inr e)
    | (t, .inl l) => match loadRegions t c v with
      | (u, none) => (u, .inl (v.unpack l))
      | (u, some e) => (u, .inr e)

/-- The function that may restore on core `c`: the holder, while its work may start. -/
def restoreFor (s : State) (c : Nat) : Option Nat :=
  match (s.partS (partOfCore s c)).holder with
  | some f => if mayStart s f then some f else none
  | none => none

/-- A saved clause stream resumes on its engine. -/
def restoreStream (s : State) (c : Nat) (e : CE) (f : Nat) : State :=
  let x := s.core c
  match x.streams.find? (fun v => v.e == e && v.eng.fn == f) with
  | none => s
  | some v =>
    if (x.eng e).st != .idle || (e == .mx && x.glPass.isSome) || !resident s v.eng.ctx then s
    else match streamBack s c v with
      | (t, .inr er) => saveFail t v.eng.ctx er none
      | (t, .inl b) =>
        let y := b.eng
        let z := t.core c
        let z1 := { z with streams := z.streams.filter (fun w => w.stamp != v.stamp) }
        let z2 := match e with
          | .mx => { z1 with mx := y, banks := b.banks, bufs := {}, heldRows := {}, nounMx := z1.nounStamp }
          | .tx => { z1 with tx := y, nounTx := z1.nounStamp }
        flush (trcEng (t.setCore c z2) 4 c (CE.eng e) y.ctx y.cmd (tagOf t y.cmd) 0) c e

/-- A saved gleaning pass resumes from its K tile. -/
def restorePass (s : State) (c f : Nat) : State :=
  let x := s.core c
  match x.glSaved.find? (fun w => w.fn == f) with
  | none => s
  | some w =>
    if x.mx.st != .idle || x.glPass.isSome || !resident s w.ctx then s
    else match passBack s c w with
      | (t, .inr er) => saveFail t w.ctx er none
      | (t, .inl b) =>
        let z := t.core c
        let z1 := { z with glSaved := z.glSaved.filter (fun v => v.stamp != w.stamp),
                           glPass := some { b with bytes := 0, stamp := 0, stopped := false, startAt := z.cycles } }
        w.reqs.foldl (fun u r => trcEng u 4 c .mx w.ctx r.cmd (tagOf u r.cmd) 0) (t.setCore c z1)

/-- A restored punnet's wait or arrival is made again. -/
def rehold (c p : Nat) (s : State) : State :=
  let x := s.pun c p
  let settle (a : State × Bool) : State :=
    if a.2 then l1Acquire (a.1.setPun c p { a.1.pun c p with hold := .none }) c else a.1
  match x.hold with
  | .wait o t => match o with
    | .conj y n => settle (waitConj s y n t (engId c .te) p x.cmd)
    | o => settle (waitBar s o x.ctx x.arrival (engId c .te) p)
  | .gb g m => match gbPerform s c x.ctx g m (engId c .te) p with
    | (u, true) => u.setPun c p { u.pun c p with hold := .none }
    | (u, false) => u
  | _ => s

/-- Saved TE work of context `x` resumes on core `c`, in its slots. -/
def restoreTe (s : State) (c x : Nat) : State :=
  match (s.core c).te.saved.find? (fun v => v.ctx == x) with
  | none => s
  | some v0 => match teBack s c v0 with
    | (u, .inr e) => saveFail u x e none
    | (u, .inl v) =>
      let k := u.core c
      let f := freshCtx k.te x
      let t := { f with
        grid := v.grid, blocks := v.blocks, stopPending := false
        pun := v.punnets.entries.foldl (fun p e => p.put {} e.1 e.2) f.pun
        saved := k.te.saved.filter (fun w => w.stamp != v.stamp) }
      let s1 := u.setCore c { k with te := t }
      let s2 := (v.blocks.flatMap (·.slots)).foldl (fun u p => rehold c p u) s1
      match v.grid with
      | some g => trcEng s2 4 c .te x g.cmd (tagOf s2 g.cmd) 0
      | none => s2

/-- A TE of core `c` still stops work of context `x`. -/
def teStopping (s : State) (c x : Nat) : Bool :=
  (s.te c).stopPending && (match (s.te c).grid with | some g => g.ctx == x | none => false)

/-- Saved TE work of function `f` on core `c`'s bunch resumes together (R181): every core that holds some is free, and none
still stops work of that context. -/
def restoreBunch (s : State) (c f : Nat) : State :=
  match (s.te c).saved.find? (fun v => v.fn == f) with
  | none => s
  | some v =>
    let l := (bunchCores c).filter (fun n => (s.te n).saved.any (fun w => w.ctx == v.ctx))
    let free (n : Nat) : Bool := (s.te n).grid.isNone && (s.te n).reqs.isEmpty
    if !resident s v.ctx || s.syn.dumpBusy || !l.all free || (bunchCores c).any (fun n => teStopping s n v.ctx) then s
    else l.foldl (fun u n => restoreTe u n v.ctx) s

/-- STREAM_RESTORE (R312, R181, R154): an engine resumes the slice holder's saved work. -/
def execStreamRestore (c : CoreId) (e : Eng) (s : State) : Out :=
  match restoreFor s c with
  | none => done s s
  | some f =>
    let t := match e with
      | .mx => if (s.core c).glSaved.any (fun w => w.fn == f) then restorePass s c f else restoreStream s c .mx f
      | .tx => restoreStream s c .tx f
      | .te => restoreBunch s c f
    done s (refresh t f)

end Sys2Proof.Machine
end

