-- ==== Sys2Proof/Machine/Flr.lean ====
section
/-! DEFINITION. Failed host reads (R232, R233), context-domain resets (R13, R263, R297) and function-level resets (R301,
R302, R377). -/

namespace Sys2Proof.Machine

/-! ## Failed host reads (R233) -/

/-- A TE request's read of host memory fails: every lane it serves meets poison (R232). -/
def teHostFail (s : State) (c n : Nat) : Option (Nat × State) :=
  match findReq s c n with
  | none => none
  | some r =>
    if r.kind == .store || !isHost r.home || !reqReady s r then none
    else
      let all := r.accs.foldl (fun m a => m ||| laneBit a.lane) 0
      some (r.fn, reqSettle (setReq (reqSample s c r) c { r with fin := true, bad := all }) c r.slot r.ins)

/-- A transfer's read of host memory fails: it has no effect, and its stream faults (R129, R232). Flits of a PUT that
have not left are discarded. -/
def txHostFail (s : State) (c n : Nat) : Option (Nat × State) :=
  match (s.core c).xfers.find? (fun x => x.id == n && x.host) with
  | none => none
  | some x =>
    let s1 := upTo 16 s (fun t g => modPort t g (fun p => { p with
      outq := p.outq.filter (fun m => m.begun || !m.flits.any (fun f => f.xfer == some (c, n))) }))
    let s2 := xferFail s1 c x { code := 3, va := x.va }
    some (x.cmd.fn, actWaiting c x.cmd (s2.core c).xfers.length s2)

/-- The fetch of a queue's next entry fails: the command completes with BAD_COMMAND (DESIGN CHOICE, log entry 12). -/
def fetchFail (s : State) (f q : Nat) : Option (Nat × State) :=
  if !mayConsume s f q 1 then none
  else
    let c : Cmd := { seq := (s.queue f q).nextSeq, status := 4, started := true, ready := true }
    some (f, refresh (enqueue s f q 1 c) f)

/-- Virtual address of the first descriptor among the handles `l` of context `x` that lies in host memory. -/
def hostNoun (s : State) (c x : Nat) (l : List Nat) : Option Nat :=
  hostAt s c (s.ctx x).fn x (l.map (fun h => ((s.ctx x).nounTable + 128 * h, 128)))

/-- The read of a descriptor that engine `e`'s next clause names fails: the stream consumes poison (R235, R129). -/
def nounHostFail (s : State) (c : Nat) (e : CE) : Option (Nat × State) :=
  let y := s.eng c e
  if !mayFetch s y then none
  else match fetchSlots s c e with
    | (_, .inr _) => none
    | (t, .inl k) => (hostNoun t c y.ctx (k.handles e)).map (fun va => (y.fn, engFail t c e { code := 3, va := va }))

/-- The read of a descriptor fails as a gleaning pass starts (R235, R155). -/
def gleanHostFail (s : State) (c : Nat) : Option (Nat × State) :=
  match nextPass s c with
  | none => none
  | some w =>
    if w.reqs.isEmpty || !engFree s c .mx w.fn then none
    else (hostNoun s c w.ctx w.handles).map (fun va => (w.fn, gleanFail (beginPass s c w) c w { code := 3, va := va }))

/-- Context and place of the saved work that engine `e` of core `c` would restore next from the save area. -/
def savedPlace (s : State) (c : Nat) (e : Eng) (f : Nat) : Option (Nat × List (Nat × Nat)) :=
  let x := s.core c
  let gl := (x.glSaved.find? (fun w => w.fn == f && w.bytes == 0)).map (fun w => (w.ctx, w.places (savePart s w.ctx c)))
  let st (k : CE) := (x.streams.find? (fun v => v.e == k && v.eng.fn == f && v.bytes == 0)).map
    (fun v => (v.eng.ctx, v.places (savePart s v.eng.ctx c)))
  match e with
  | .mx => match gl with | some p => some p | none => st .mx
  | .tx => st .tx
  | .te => (x.te.saved.find? (fun v => v.fn == f && v.bytes == 0)).map (fun v => (v.ctx, v.places (savePart s v.ctx c)))

/-- A read of saved engine state in host memory fails: the state is lost as in R298 (DESIGN CHOICE, log entry 47). -/
def streamHostFail (s : State) (c : Nat) (e : Eng) : Option (Nat × State) :=
  match restoreFor s c with
  | none => none
  | some f => match savedPlace s c e f with
    | none => none
    | some (x, l) => (hostAt s 32 f x (l.map (fun p => ((s.ctx x).save + p.1, p.2)))).map
        (fun va => (f, saveFail s x { code := 3, va := va } none))

/-- A read of the saved records or windows of context `x` in host memory fails as it is restored (R298). -/
def ctxHostFail (s : State) (x : Nat) : Option (Nat × State) :=
  let k := s.ctx x
  if !(k.saved || k.winSaved) then none
  else match hostAt s 32 k.fn x [(k.save, k.saveSize)] with
    | none => none
    | some va => (restoreContext s x (some { code := 3, va := va })).map (fun t => (k.fn, t))

/-- The effect of a failed host read, with the requesting function; none where no such read is outstanding. -/
def hostReadFail (s : State) : HostRead → Option (Nat × State)
  | .te c n => teHostFail s c n
  | .tx c n => txHostFail s c n
  | .fetch f q => fetchFail s f q
  | .noun c e => nounHostFail s c e
  | .glean c => gleanHostFail s c
  | .stream c e => streamHostFail s c e
  | .ctx x => ctxHostFail s x.toNat

/-- HOST_READ_ERROR (R233): the data counts as poisoned, and the completion's error is logged through AER. -/
def execHostReadError (r : HostRead) (e : HostErr) (s : State) : Out :=
  match hostReadFail s r with
  | none => doneBoot s s
  | some (f, t) => doneBoot s (aerLog t f e)

/-! ## The end of work by a reset: as an abort would stop it (R300, R301) -/

/-- Whose work ends. -/
inductive Whose | ctx (x : Nat) | fn (f : Nat)
deriving DecidableEq, Repr

/-- Work of function `f` in context `x` is among it. -/
def Whose.has (w : Whose) (f x : Nat) : Bool := match w with | .ctx y => x == y | .fn g => f == g

/-- The e registers of an MX or TX, and of a TE, of core `c` take their reset values (R377). -/
def engRegsReset (s : State) (c : Nat) : Eng → State
  | .mx => clearRegs (clearRegs s (coreA c 0x10) (coreA c 0x14)) (coreA c 0x100) (coreA c 0x104)
  | .tx => clearRegs s (coreA c 0x50) (coreA c 0x54)
  | .te => clearRegs (clearRegs s (coreA c 0x210) (coreA c 0x228)) (coreA c 0x600) (coreA c 0x618)

/-- The END record of a command's work that a reset ends, and the end of its part on the core. -/
def cutEnd (s : State) (c : Nat) (e : Eng) (x : Nat) (r : CmdRef) : State :=
  cmdEnd (trcEng s 2 c e x r (tagOf s r) 0xFF) r c

/-- The clause that the engine issues runs to its end, in at most `n` steps. -/
def runOut (c : CoreId) (e : CE) : Nat → State → State
  | 0, s => s
  | n + 1, s =>
    let y := s.eng c e
    match y.issuing with
    | (i, w) :: _ => match slotMeaning c e (slotTy e i) (opc w) s with
      | .next t => runOut c e n t
      | _ => s
    | [] => match y.clause with
      | some k => if 0 < y.done then runOut c e n (issueOne s c e k) else s
      | none => s

/-- The transfers of command `r` on core `c` complete: what they have yet to do is done, and their signals are sent. A GET's
response is not waited for (DESIGN CHOICE, log entry 119). -/
def endXfers (s : State) (c : Nat) (r : CmdRef) : State :=
  let s1 := ((s.core c).xfers.filter (fun x => x.cmd == r)).foldl (fun t x => match x.job with
    | some j => actJob t c x j
    | none => t) s
  ((s1.core c).xfers.filter (fun x => x.cmd == r)).foldl (fun t x =>
    completeXfer t c { x with sig := x.sig && !x.isGet } false) s1

/-- A stream that is among `w` ends: its clause runs out, its results land, its transfers and release operations complete. -/
def endStream (w : Whose) (c : CoreId) (e : CE) (s : State) : State :=
  let y := s.eng c e
  if !(y.busy && w.has y.fn y.ctx) then s
  else
    let n := match y.clause with | some k => 16 * (k.execs + 1) | none => 0
    let s1 := flush (landAll (runOut c e n s) c e) c e
    let s2 := match e with | .tx => flush (endXfers s1 c y.cmd) c .tx | .mx => s1
    let s3 := dropWaiter { s2 with syn := { s2.syn with
      heldArr := s2.syn.heldArr.filter (fun h => h.eng != engId c (CE.eng e)) } } c e
    let x := s3.core c
    let s4 := s3.setCore c { x with pools := x.pools.filter (fun p => p.cmd != y.cmd) }
    engRegsReset (clearEng (cutEnd s4 c (CE.eng e) y.ctx y.cmd) c e) c (CE.eng e)

/-- Saved streams that are among `w` end: their transfers and signals complete. -/
def endStreams (w : Whose) (c : Nat) (s : State) : State :=
  let x := s.core c
  let mine (v : StreamSave) : Bool := w.has v.eng.cmd.fn v.eng.ctx
  let l := x.streams.filter mine
  let s1 := s.setCore c { x with streams := x.streams.filter (fun v => !mine v), quits := x.quits ++ l.map (·.quit) }
  settleQuits (((s1.core c).quits.filter mine).foldl (fun t v => endXfers t c v.eng.cmd) s1) c

/-- No transfer among `w` is left. -/
def dropXfers (w : Whose) (c : Nat) (s : State) : State :=
  s.setCore c { s.core c with xfers := (s.core c).xfers.filter (fun y => !w.has y.cmd.fn y.ctx) }

/-- Outstanding requests of a TE among `w` complete: stores and atomics are performed, loads are given up. -/
def endReqs (w : Whose) (c : Nat) (s : State) : State :=
  let mine := (s.te c).reqs.filter (fun r => w.has r.fn r.ctx)
  let s1 := mine.foldl (fun t r => match r.kind with
    | .store => writeRuns t (storeBytes r.accs) 0 []
    | .atom =>
      if (mine.find? (fun q => q.kind == .atom && q.slot == r.slot && q.ins == r.ins)).any (fun q => q.id == r.id) then
        (performAtoms t r.atomOp ((byLane ((mine.filter (fun q => q.slot == r.slot && q.ins == r.ins)).flatMap (fun q =>
          q.accs.map (fun a => (a.lane, a))))).map (·.2))).1
      else t
    | .load => t) s
  s1.setTe c { s1.te c with reqs := (s1.te c).reqs.filter (fun r => !w.has r.fn r.ctx) }

/-- TE work among `w` ends, running and saved; the slots and the TE's e registers are as at reset (R377). -/
def endTeWork (w : Whose) (c : Nat) (s : State) : State :=
  let s1 := endReqs w c s
  let t := s1.te c
  let saved := t.saved.filter (fun v => w.has v.fn v.ctx)
  let s2 := s1.setTe c { t with saved := t.saved.filter (fun v => !w.has v.fn v.ctx) }
  let s3 := saved.foldl (fun u v => match v.grid with | some g => cutEnd u c .te v.ctx g.cmd | none => u) s2
  match t.grid with
  | some g =>
    if !w.has g.fn g.ctx then s3
    else
      let s4 := dropTeWaits s3 c none
      let s5 := s4.setTe c { s4.te c with grid := none, blocks := [], pun := {}, stopPending := false, maint := {}, u63Hi := 0 }
      engRegsReset (if g.launched = 0 then cmdEnd s5 g.cmd c else cutEnd s5 c .te g.ctx g.cmd) c .te
  | none => s3

/-- Gleaning among `w` ends: windows, saved passes and the pass that runs, which is charged (R155). -/
def endGlean (w : Whose) (c : Nat) (s : State) : State :=
  let x := s.core c
  let mine (v : GlWin) : Bool := w.has v.fn v.ctx
  let gone := (x.glean ++ x.glQueue).filter mine
  let saved := x.glSaved.filter mine
  let s1 := s.setCore c { x with glean := x.glean.filter (fun v => !mine v), glQueue := x.glQueue.filter (fun v => !mine v)
                                 glSaved := x.glSaved.filter (fun v => !mine v) }
  let s2 := gone.foldl (fun t v => v.reqs.foldl (fun u r => cmdEnd u r.cmd c) t) s1
  let cut (t : State) (v : GlWin) : State := v.reqs.foldl (fun u r => cutEnd u c .mx v.ctx r.cmd) t
  let s3 := saved.foldl cut s2
  match x.glPass with
  | some v => if mine v then engRegsReset (endPass (cut s3 v) c v) c .mx else s3
  | none => s3

/-- The work among `w` ends on core `c`. -/
def endWork (w : Whose) (s : State) (c : CoreId) : State :=
  endGlean w c (endTeWork w c (dropXfers w c (endStreams w c (endStream w c .tx (endStream w c .mx s)))))

/-- The work among `w` ends on every core. -/
def endAllWork (w : Whose) (s : State) : State := (List.finRange 32).foldl (endWork w) s

/-! ## Context-domain resets of CTX_DESTROY and CTX_RESET (R263, R297) -/

/-- Commands of context `x` whose engines a reset has ended complete with ABORTED (DESIGN CHOICE, log entry 119): those that
have started, on the cores where they had not as well. -/
def abortEnded (s : State) (f x : Nat) : State :=
  upTo 64 s (fun t q => t.setQueue f q { t.queue f q with cmds := (t.queue f q).cmds.map (fun c =>
    if c.ctx = x ∧ (c.op = 1 ∨ c.op = 2 ∨ c.op = 3) ∧ c.started ∧ !c.ready then
      { c with status := if c.status = 0 then 1 else c.status, toStart := [], toEnd := [], ready := true }
    else c) })

/-- CTX_DESTROY (R297): a context-domain reset that leaves the log and the save area alone, and the number is free. Signals
still on their way to the context are discarded, and no L1 keeps its lines for the number (R2, R170). -/
def execCtxDestroy (f : Fn) (q : Qid) (s : State) : Out :=
  match nextOwn s f q 0x11 with
  | none => done s s
  | some c =>
    if !((s.ctx c.ctx).live && (s.ctx c.ctx).fn == f) then done s (commitCmd s f q { c with status := 6 })
    else if !ctxQuiet s f c.ctx c.order then done s s
    else
      let x := c.ctx
      let s1 := dropTransit (ctxDomainReset (abortEnded (endAllWork (.ctx x) s) f x) x false) x
      done s (commitCmd ((forgetCtx (releaseCtxSlot s1 x) x).setCtx x {}) f q c)

/-- CTX_RESET (R263, R297): the engines that execute or hold later commands of the context end, and its state is reset. -/
def execCtxReset (f : Fn) (q : Qid) (s : State) : Out :=
  match nextOwn s f q 0x12 with
  | none => done s s
  | some c =>
    if !((s.ctx c.ctx).live && (s.ctx c.ctx).fn == f) then done s (commitCmd s f q { c with status := 6 })
    else if !ctxQuiet s f c.ctx c.order then done s s
    else done s (commitCmd (ctxDomainReset (abortEnded (endAllWork (.ctx c.ctx) s) f c.ctx) c.ctx true) f q c)

/-! ## Function-level resets (R301, R302) -/

/-- Every context of function `f` is reset without a save and freed (R301 step 3); signals to it are discarded. -/
def flrContexts (s : State) (f : Nat) : State :=
  s.hq.ctxs.entries.foldl (fun t e =>
    if e.2.live ∧ e.2.fn = f then
      (forgetCtx (releaseCtxSlot (dropTransit (ctxDomainReset t e.1 true) e.1) e.1) e.1).setCtx e.1 {}
    else t) s

/-- The queues of function `f` are disabled and empty, and then their slots are free (R301 step 1). -/
def flrQueues (s : State) (f : Nat) : State :=
  let l := (List.range 64).filterMap (fun q => (s.queue f q).slot)
  l.foldl offerSlot (upTo 64 s (fun t q => t.setQueue f q {}))

/-- The sketch slots of function `f` are zeroed, their dumps aborted and their registers reset (R251, R377). -/
def flrSketches (s : State) (f : Nat) : State :=
  upTo 64 s (fun t k => if embOwner t k = some f then clearRegs (t.setSk k {}) (embA k 0) (embA k 8) else t)

/-- The function-domain registers of `f` (R377): queue registers, fault log and counters, MSI-X structures, MMU page,
accounting; the deficit is set to 0 (R306). -/
def flrRegs (s : State) (f : Nat) : State :=
  let s1 := clearRegs (clearRegs s (fpA f 0) (fpA f 0xFFFFF + 1)) (mmuA f 0) (mmuA f 8)
  let s2 := (s1.setFlt f {}).setFnS f { active := (s1.fnS f).active }
  { s2 with hq := { s2.hq with inv := s2.hq.inv.put none f none } }

/-- R301 for function `f`: its work ends, without a record or a message; its translations are dropped (R214). -/
def flrFn (s : State) (f : Nat) : State :=
  let s1 := flrContexts (flrQueues (endAllWork (.fn f) s) f) f
  refresh (dropTlb (flrRegs (flrSketches s1 f) f) f (fun _ => true)) f

/-- FLR_VF (R301). -/
def execFlrVf (f : Fn) (s : State) : Out := if f = 0 then done s s else done s (flrFn s f)

/-- R301 for every virtual function. -/
def flrVfs (s : State) : State := upTo 127 s (fun t i => flrFn t (i + 1))

/-- FLR_STEWARD (R302). -/
def execFlrSteward (s : State) : Out :=
  let t := flrVfs (flrFn s 0)
  done s { t with hq := { t.hq with vfEnable := false } }

/-- VF_ENABLE_CLEAR (R377): the function domain of every virtual function is reset. -/
def execVfEnableClear (s : State) : Out :=
  let t := flrVfs s
  done s { t with hq := { t.hq with vfEnable := false } }

end Sys2Proof.Machine
end

