-- ==== Sys2Proof/Machine/Gov.lean ====
section
/-! DEFINITION. Ledgers, epochs, partition accounts and the twin governors (R58 to R79), with the loops a governor
runs each tick (R90 to R92, R97, R98) and the scheduler's part of a tick (R306, R315, R316). -/

namespace Sys2Proof.Machine

/-! ## Limp power -/

/-- Limp power through a lost shadow entry (R57, R77). -/
def limpPower (s : State) : State := { s with gov := { s.gov with limpPower := true } }

/-- COMPARATOR_LOST (R77): A alone drives, B is halted, limp power until the next chip reset. -/
def comparatorLost (s : State) : State :=
  chipErr { s with gov := { s.gov with lost := true, limpPower := true, bHalted := true, resync := .none, held := none,
                                       injA := none, injB := none } } 0x42 0 1 0 0

/-! ## Inputs and limits -/

/-- The feed cap in effect, W (R77, GOV_CAP_IN_EFFECT). -/
def capW (s : State) : Nat :=
  if s.gov.limpPower then s.charter.limpCapW else if s.charter.loaded then s.gov.feedCap.vote else 350

/-- One watt in the feed loop's unit, 2^-21 W. -/
def oneW : Int := 2097152

/-- The chip's work power in the last completed tick: 1/65,536 LU per us is 100/65,536 W, in 2^-21 W. -/
def workPower (s : State) : Int := (s.gov.lastWork : Int) * 3200

/-- The feed power of a sample: codes of R80 and R81 scaled; a negative product counts zero in the ledger (R62) and is
taken as it is by the loop. -/
def feedPower (v : BitVec 14) (i : BitVec 14) : Int := (v.toNat : Int) * i.toInt * 100

/-- SoC in 2^-16 % (R100). -/
def soc16 (s : State) : Nat := if s.charter.usableLu = 0 then 0 else s.plt.coulomb * 100 / s.charter.usableLu

/-- D_lim in 2^-16 W (R86, R92). -/
def dLimOf (s : State) : Int :=
  let d := s.plt.lim0.vote
  let f := s.plt.lim3.vote * 65536
  if s.charter.usableLu = 0 then 0
  else if f + 5 * 65536 ≤ soc16 s then (d * 65536 : Nat)
  else if soc16 s ≤ f then 0
  else (d * (soc16 s - f) / 5 : Nat)

/-- A gain limited to its hardware range, negative as zero (R90); `hi` in 2^-16. -/
def clipGain (g hi : Int) : Int := max 0 (min g hi)

/-- A value limited to the record's range and then to the hardware's (R90). -/
def limit (v rlo rhi hlo hhi : Int) : Int := max hlo (min hhi (max rlo (min rhi v)))

/-- One loop period (R90): output and integral, both in the unit of gain (2^-16) times error. `one` is one unit of the
record's limits. While the output is limited, the integral is held. -/
def loopStep (g : Gains) (kpMax kiMax one err integ hlo hhi : Int) : Int × Int :=
  let i' := integ + clipGain g.ki kiMax * err
  let raw := clipGain g.kp kpMax * err + i'
  let out := limit raw (g.outMin * one) (g.outMax * one) hlo hhi
  (out, if out = raw then i' else integ)

/-- Hardware limits of kp and ki by loop, in 2^-16 (R90). -/
def kpMax : Nat → Int
  | 0 => 8 * 65536 | 1 => 256 * 65536 | 2 => 100 * 65536 | 3 => 100 * 65536 | _ => 4 * 65536
def kiMax : Nat → Int
  | 0 => 65536 | 1 => 64 * 65536 | 2 => 25 * 65536 | 3 => 25 * 65536 | _ => 65536

def gainsOf (s : State) (n : Nat) : Gains := s.charter.gains.getD n {}

/-! ## The governor's tick -/

/-- The feed target in 2^-21 W (R91). -/
def feedTarget (cap excess : Nat) : Int :=
  (cap : Int) * oneW - max (5 * oneW) ((cap : Int) * oneW / 64) - (if excess = 0 then 0 else (cap : Int) * oneW * 5 / 100)

/-- Nearest watt of u, halves up (R91). -/
def roundW (u : Int) : Int := (u + 2 ^ 36) / 2 ^ 37

/-- The stretch ratio k of 16 for a clamp target in watts (R97). -/
def clampK (s : State) (targetW : Nat) : Nat :=
  let pw := workPower s
  if pw ≤ 0 then 16 else Nat.max 1 (Nat.min 16 ((16 * (targetW : Int) * oneW / pw).toNat))

/-- The ceiling's step towards the power target of `tgt` watts: 25 MHz a tick (R92; log entry 26). -/
def ceilStep (s : State) (tgt : Int) (ceil : Nat) : Nat :=
  if tgt * oneW < workPower s then Nat.max 400 (ceil - 25) else Nat.min s.charter.clockMaxMhz (ceil + 25)

/-- One governor's tick on a sample `p` (2^-21 W): the feed loop, the excess, the clamp and the power target (R91, R92,
R97, R98). The Bool says that the clamp was asserted. DESIGN CHOICE (log entry 17): the feed integral is held while the
clamp or a loss sets u, as while the output is limited. -/
def govTick (s : State) (g : GovLoop) (p : Int) : GovLoop × Bool :=
  let cap := capW s
  let sub := s.plt.active.contains .feedAdc
  let p := if sub then workPower s * 10 / 9 else p
  let capP : Int := (cap : Int) * oneW
  let target := feedTarget cap g.excess
  let excess := (max 0 ((g.excess : Int) + p - capP)).toNat
  let above := if capP < p then Nat.min 2 (g.overCnt + 1) else 0
  let assert := above == 2 && !g.clamp
  let dLim := dLimOf s
  let clampW := s.plt.lim2.vote
  let pw := workPower s
  let k := if assert then clampK s clampW else g.k
  let clamp := g.clamp || assert
  let noRes := s.charter.usableLu == 0 || sub || s.plt.active.contains .resAdc || s.plt.active.contains .conv
  let (u0, i0) := loopStep (gainsOf s 0) (kpMax 0) (kiMax 0) (2 ^ 37) (p - target) g.feedInt (-(g.cReq * 2 ^ 21)) (dLim * 2 ^ 21)
  let u := if noRes then 0 else if clamp then dLim * 2 ^ 21 else u0
  let peak : Int := 1650
  let tgt : Int := if u = dLim * 2 ^ 21 ∧ target < p then max 0 ((pw - (p - target)) / oneW) else peak
  let tgt := if clamp then min tgt clampW else tgt
  let tgt := if sub then min tgt ((cap : Int) * 8 / 10) else tgt
  let tgt := if s.plt.active.contains .pumpTach || s.plt.active.contains .flow then min tgt clampW else tgt
  let ceil := ceilStep s tgt g.ceilMhz
  ({ g with
      feedInt := if noRes || clamp then g.feedInt else i0
      pFeed := p, pPrev := g.pFeed, pFiltered := (p + g.pFeed) / 2
      overCnt := above, excess := excess, clamp := clamp, k := k
      relCnt := if assert then 0 else if clamp && p ≤ target then g.relCnt + 1 else 0
      target := target, u := u, powerTargetW := tgt.toNat, ceilMhz := ceil, dLim := dLim, frame := g.frame + 1 }, assert)

/-- The bits of 8 flags. -/
def flags8 (f : Nat → Bool) : Nat := upTo 8 0 (fun n i => if f i then n ||| (1 <<< i) else n)

/-- What channels 0 to 3 hold after a tick of A (R75): A alone may assert the clamp or tighten a value. The ceiling
follows a held power target below A's. -/
def restrict (s : State) (h : Held) (a : GovLoop) (ex : Nat) : Held :=
  let t := Nat.min h.targetW a.powerTargetW
  { clamp := h.clamp || a.clamp, k := Nat.min h.k a.k, targetW := t
    ceilMhz := Nat.min (Nat.min h.ceilMhz a.ceilMhz) (ceilStep s t h.ceilMhz), exhausted := h.exhausted ||| ex }

/-- Settles what an earlier tick left due: the ledger wrap, the epoch's end, the rollover (R63, R64, R67). -/
def wrapLedgers (s : State) : State :=
  if s.gov.wrapDue then
    let s1 := { s with gov := { s.gov with work := s.gov.work % 2 ^ 48, feed := s.gov.feed % 2 ^ 48, wrapDue := false } }
    wrF s1 0x00020000 4 1 1
  else s

/-- The epoch ends (R64, R68, R74). -/
def endEpoch (s : State) : State :=
  if s.gov.endDue then
    let g := s.gov
    { s with gov := { g with epoch := (g.epoch + 1) % 2 ^ 32, epochStart := g.work % 2 ^ 48, adv := g.workFrac, endDue := false,
                             earlyDue := false, rollDue := true, thisEpochLatent := 0,
                             earlyCount := if g.earlyDue then (g.earlyCount + 1) % 2 ^ 32 else g.earlyCount } }
  else s

/-- The rollover of R67 at the end of its tick: carries within their limits, clips counted, spent to zero plus the
tick's own charges. -/
def rollover (s : State) : State :=
  if s.gov.rollTick then
    let t := upTo 8 s (fun u p =>
      if p < u.charter.partCount then
        let a := u.acct p
        let raw := (budgetOf u p : Int) * 65536 + a.carry - a.spent
        let c : Int := (carryCap u p : Int) * 65536
        let k := max (-c) (min c raw)
        let u1 := if k = raw then u else incF u (0x0002010C + 0x10 * p) 16 16 1
        u1.setAcct p { a with carry := k, spent := a.newSpent, newSpent := 0 }
      else u)
    { t with gov := { t.gov with rollDue := false, rollTick := false } }
  else s

/-- What the tick before left due, but for a capture. -/
def settleTick (s : State) : State := endEpoch (rollover (wrapLedgers s))

/-- Writes a 64-bit value to a pair of registers. -/
def wr64 (s : State) (lo v : Nat) : State := wr (wr s lo (BitVec.ofNat 32 v)) (lo + 4) (BitVec.ofNat 32 (v / 2 ^ 32))

/-- A snapshot is due (R79): a tick boundary has come since its request. -/
def snapDue (s : State) : Bool :=
  s.gov.snapReq && (if s.gov.started then s.gov.snapAt < s.gov.tickNo * 1000 else s.time % 1000 == 0 && s.gov.snapAt < s.time)

/-- The snapshot of a tick boundary (R79): the values stand as the boundary's updates left them. -/
def snapCapture (s : State) : State :=
  let g := s.gov
  let t := wr s 0x00020204 (BitVec.ofNat 32 g.epoch)
  let t := wr64 t 0x00020208 (if g.started then g.tickNo * 1000 else s.time)
  let t := wr64 t 0x00020210 (g.work % 2 ^ 48)
  let t := wr64 t 0x00020218 (g.feed % 2 ^ 48)
  let t := wr t 0x00020220 (BitVec.ofNat 32 ((g.work + 2 ^ 48 - g.epochStart) % 2 ^ 48))
  let t := upTo 8 t (fun u p =>
    wr (wr u (0x00020240 + 8 * p) (BitVec.ofInt 32 ((s.acct p).spent / 65536)))
      (0x00020244 + 8 * p) (BitVec.ofInt 32 ((s.acct p).carry / 65536)))
  { t with gov := { t.gov with snapReq := false, snapValid := true } }

/-- All that the tick before left due, its capture included. -/
def settle (s : State) : State :=
  let t := settleTick s
  if snapDue t then snapCapture t else t

/-- Energy of one class of estimator of core `c`, 1/65,536 LU: each counted event class with its calibration (R36,
R59). -/
def estE (ch : Charter) (c : Nat) (e : CoreEst) (l : List (Fin 64 × Nat)) : Nat :=
  l.foldl (fun a x => a + Config.estEnergy (calWord ch c e.volt.val e.temp.val x.1.val) x.2) 0

/-- The estimates of core `c` in a tick, all idle where the list is short. -/
def estOf (i : TickIn) (c : Nat) : CoreEst := i.est.getD c ⟨0, 0, [], [], [], []⟩

/-- Energy of the estimators of core `c` in a tick, 1/65,536 LU (R59). -/
def coreE (ch : Charter) (i : TickIn) (c : Nat) : Nat :=
  let e := estOf i c
  estE ch c e e.mx + estE ch c e e.tx + estE ch c e e.te + estE ch c e e.idle

/-- The residual's share for tick `k` of 1,000, in 1/16,384,000 of 1/65,536 LU (R60). -/
def residualShare (r : Int) (k : Nat) : Int := if k < 1000 then r * (k + 1) / 1000 - r * k / 1000 else 0

/-- Charges of a tick (R65): the partitions' core parts in 1/65,536 LU with their remainders, and the shared part
divided in proportion to the budgets. -/
def chargeParts (s : State) (i : TickIn) (incr : Nat) : State :=
  let n := s.charter.partCount
  let coreSum (p : Nat) : Nat := (coresOf s p).foldl (fun a c => a + coreE s.charter i c * s.gov.trim) 0
  let part (p : Nat) : Nat := ((s.acct p).coreRem + coreSum p) / 16384
  let total := upTo n 0 (fun a p => a + part p)
  let shared : Int := (incr : Int) - total
  let share (p : Nat) : Int := shared * budgetOf s p / 65536
  let shares := upTo n 0 (fun (a : Int) p => a + share p)
  upTo n s (fun u p =>
    let a := u.acct p
    let c : Int := part p + share p + (if p = 0 then shared - shares else 0)
    let a1 := { a with coreRem := ((s.acct p).coreRem + coreSum p) % 16384, lastCharge := c }
    u.setAcct p (if s.gov.rollDue then { a1 with newSpent := a.newSpent + c } else { a1 with spent := a.spent + c }))

/-- Trimmed energy of core `c`'s engines of one type in a tick, in 1/16,384 of 1/65,536 LU. -/
def engineE (s : State) (i : TickIn) (c : Nat) (e : Eng) : Nat :=
  let k := estOf i c
  estE s.charter c k (match e with | .mx => k.mx | .tx => k.tx | .te => k.te) * s.gov.trim

/-- Trimmed energy of the engines of one type of partition `p` that executed function `f`'s commands in the tick. -/
def tenantE (s : State) (i : TickIn) (p f : Nat) (e : Eng) : Nat :=
  (coresOf s p).foldl (fun a c => a + if (s.core c).ran.contains (e, f) then engineE s i c e else 0) 0

/-- Divides a tick's charge of partition `p` among the counts of its tenant (R316): the four counts take the whole of it,
and what of an engine's energy is below a unit is kept. -/
def accountPart (s : State) (i : TickIn) (p : Nat) : State :=
  match accountedTenant s p with
  | none => s
  | some f =>
    let x := s.fnS f
    let mx := x.mxRem + tenantE s i p f .mx
    let tx := x.txRem + tenantE s i p f .tx
    let te := x.teRem + tenantE s i p f .te
    let rest : Int := (s.acct p).lastCharge - (mx / 16384 + tx / 16384 + te / 16384 : Nat)
    s.setFnS f { x with
      mxLu := x.mxLu + mx / 16384, mxRem := mx % 16384, txLu := x.txLu + tx / 16384, txRem := tx % 16384
      teLu := x.teLu + te / 16384, teRem := te % 16384, otherLu := x.otherLu + rest }

/-- Core `c` when a tick has been accounted: a gleaning pass takes the energy of its MX (R155), and the engines that ran
are noted anew. -/
def closeTick (i : TickIn) (s : State) (c : Nat) : State :=
  let x := s.core c
  s.setCore c { x with
    ran := []
    glPass := x.glPass.map (fun w =>
      if x.ran.contains (.mx, w.fn) then { w with lu := w.lu + (engineE s i c .mx / 16384 : Nat) } else w) }

/-- DEFICIT_UPDATE (R306) and the used count (R307) of partition `p`. -/
def deficits (s : State) (p : Nat) : State :=
  let c := (s.acct p).lastCharge
  let ten := tenantsOf s p
  let act := ten.filter (isActive s)
  let w (f : Nat) : Int := (tenant s f).weight
  let wa := act.foldl (fun a f => a + w f) 0
  let we := ten.foldl (fun a f => a + w f) 0
  let lim : Int := (sliceLen s p : Int) * 65536
  let s1 := ten.foldl (fun t f =>
    let x := t.fnS f
    let d := if chargedTenant s p = some f then x.deficit - c else x.deficit
    let d := if act.contains f then d + (if wa = 0 then 0 else (c * w f).tdiv wa)
             else if d < 0 then min 0 (d + (if we = 0 then 0 else (c * w f).tdiv we)) else d
    t.setFnS f { x with deficit := max (-lim) (min lim d) }) s
  if (s.partS p).holder.isSome ∧ chargedTenant s p = (s.partS p).holder then
    s1.setPartS p { s1.partS p with used := (s1.partS p).used + c }
  else s1

/-- Level samples of the monitors at a tick (R356). -/
def levelSamples (s : State) : State :=
  if !monRuns s then s else
  let s1 := monSample s true 10 0 (s.gov.a.pFeed / oneW).toNat
  let s2 := monSample s1 true 11 0 (workPower s / oneW).toNat
  let s3 := upTo 32 s2 (fun t c =>
    let t := monSample t true 9 c (((s.core c).preUsed + 1023) / 1024)
    let t := monSample t true 12 c (coreMhz s c * ratio16 s c / 16)
    let t := match s.plt.junction.get (some 0) c with
      | some j => monSample t true 13 c j.toNat
      | none => t
    monSample t true 16 c (entriesUsed s c))
  upTo 64 s3 (fun t k =>
    let q := s.hq.qslots.get {} k
    if q.valid then monSample t true 8 k (s.queue q.fn.vote q.q).cmds.length else t)

/-- The IDLE flits that each UP port sent in the tick, for event 13: the spec gives no rate for them, so their number is
free, within a flit each 2.419 ns (R320, R358; log entry 35). -/
def idleFlits (s : State) : State :=
  if !monRuns s then s else
  upTo 16 s (fun t g => if (t.port g).st = .up then monEvent t 13 g ((Config.freeFp s.freeIdx (2 ^ 72 + g)).toNat % 414) else t)

/-- A feed sample at an end of its converter's range (R102; log entry 24). -/
def feedOverrange (v i : BitVec 14) : Bool := v == 0x3FFF || i == 0x1FFF || i == 0x2000

/-- The frame on the RES link that carries setpoint code `c` (R84). -/
def resFrame (c : Nat) : W16 := BitVec.ofNat 16 (0xA000 + c % 4096)

/-- The tick on a settled state: ledgers, charges, deficits, loops (R59, R62, R65, R306, R316, R91, R97). One frame with
the setpoint leaves on the RES link (R84), none after FATAL_N (R391). What the partitions' gates put off is made (R310). -/
def tickBody (i : TickIn) (s : State) : State :=
  let g := s.gov
  -- the core clocks run to the tick boundary
  let target := (g.tickNo + 1) * 1000
  let s := advance s ((target - s.time) / 10)
  let s := { s with time := target % 2 ^ 64 }
  -- work ledger (R59, R60)
  let eSum := upTo 32 0 (fun a c => a + coreE s.charter i c) + i.uncore
  let d := residualShare g.residual g.winTick
  let exact : Int := (g.workRem : Int) + (eSum * g.trim * 1000 : Nat) + d
  let neg := exact < 0
  let exactN := exact.toNat
  let incr := exactN / 16384000
  let wu := g.workFrac + incr
  let work := g.work + wu / 65536
  -- feed ledger (R62): cV x cI / 2^21 LU per tick
  let fe : Nat := if i.feedI.toInt < 0 then 0 else i.feedV.toNat * i.feedI.toNat
  let fu := g.feedRem + fe
  let feed := g.feed + fu / 2 ^ 21
  let adv := g.adv + incr
  let s := chargeParts { s with gov := { s.gov with
      tickNo := g.tickNo + 1
      work := work, workFrac := wu % 65536, workRem := exactN % 16384000
      carried := if neg then g.carried + exact else g.carried
      feed := feed, feedRem := fu % 2 ^ 21
      wrapDue := 2 ^ 48 ≤ work || 2 ^ 48 ≤ feed
      winTick := g.winTick + 1, winEst := g.winEst + eSum, winLed := g.winLed + incr, winFeed := g.winFeed + fe
      adv := adv, lastWork := incr, rollTick := g.rollDue } } i incr
  -- epoch end and early close (R64, R68)
  let full := 65536 * 65536 ≤ adv
  let early := !full && 4096 * 65536 ≤ adv
    && (List.range s.charter.partCount).all (fun p => exhaustedNow s p || !partBusy s p)
  let s := { s with gov := { s.gov with endDue := full || early, earlyDue := early } }
  -- tenants (R306, R316)
  let s := upTo s.charter.partCount s (fun t p => deficits (accountPart t i p) p)
  let s := upTo 32 s (closeTick i)
  -- loops of A and, unless halted, of B on the same inputs (R70)
  let p := feedPower i.feedV i.feedI
  let (a, asserted) := govTick s s.gov.a p
  let b := if s.gov.bHalted then s.gov.b else (govTick s s.gov.b p).1
  let held := s.gov.held.map (fun h => restrict s h a (flags8 (exhaustedNow s)))
  let set := (2048 + roundW a.u).toNat
  let s := { s with gov := { s.gov with a := a, b := b, held := held },
                    plt := { s.plt with sensV := i.feedV.toNat, sensI := i.feedI.toInt,
                                         feedOver := if feedOverrange i.feedV i.feedI then s.plt.feedOver + 1 else 0,
                                         setpoint := if s.boot.fatal.isSome then s.plt.setpoint else set,
                                         frame := if s.boot.fatal.isSome then s.plt.frame else resFrame set,
                                         clampAt := if asserted then s.time + 1554 else s.plt.clampAt } }
  let s := if asserted then chipErr (inc16 s 0x000300AC) 0x45 0 2 0 0 else s
  let s := upTo s.charter.partCount s regrant
  trackInlet (idleFlits (levelSamples s))

/-- GOVERNOR_TICK (R59): at the next tick boundary, while the governors run and the reference runs. -/
def execGovernorTick (i : TickIn) (s : State) : Out :=
  if i.est.length ≠ 32 then bad "GOVERNOR_TICK"
  else if !s.gov.started ∨ !s.boot.refclk ∨ !s.boot.pwrgood then doneTime s s
  else doneTime s (tickBody i (settle s))

/-- GOVERNOR_START (R58, R64): in PLANT_ARM, on a 1 ms frame boundary. -/
def execGovernorStart (s : State) : Out :=
  if s.boot.dev ≠ .plantArm ∨ s.gov.started ∨ s.boot.fatal.isSome ∨ s.time % ms ≠ 0 then done s s
  else
    let lim : GovLoop := { pumpDuty := 104857600 }
    done s { s with gov := { s.gov with started := true, tickNo := s.time / 1000, a := lim, b := lim } }

/-- EPOCH_END (R64, R68). -/
def execEpochEnd (s : State) : Out := done s (endEpoch s)

/-- CARRY_ROLLOVER (R67). -/
def execCarryRollover (s : State) : Out := done s (rollover s)

/-- LEDGER_WRAP (R63). -/
def execLedgerWrap (s : State) : Out := done s (wrapLedgers s)

/-! ## Telemetry (R60, R61) -/

/-- T after a window, in Q2.14: T + (E_tel / E_est - T) / 8 rounded to nearest even, within 0x3334 to 0x5000. -/
def trimNext (t tel est : Nat) : Nat :=
  if est = 0 then t
  else
    let num := 7 * t * est + 16384 * tel
    let den := 8 * est
    let q := num / den
    let r := num % den
    let n := if 2 * r < den then q else if den < 2 * r then q + 1 else if q % 2 = 0 then q else q + 1
    Nat.max 0x3334 (Nat.min 0x5000 n)

/-- A conversion of the feed ADC's internal reference is off by more than 1 % (R102). -/
def refOff (ref : BitVec 14) : Bool :=
  Config.refNominal < 100 * (if ref.toNat < Config.refNominal then Config.refNominal - ref.toNat else ref.toNat - Config.refNominal)

/-- TELEMETRY_WINDOW_END (R60, R61, R81): each regulator's energy of the window in 1/65,536 LU, and the conversion of the
feed ADC's reference. DESIGN CHOICE (log entry 96): the powers of GOV_POWER are means rounded to the nearest watt, halves
up. -/
def execTelemetryWindowEnd (w : TelWindow) (s : State) : Out :=
  let tel := w.regs
  let ref := w.ref
  if tel.length ≠ 8 then bad "TELEMETRY_WINDOW_END"
  else if !s.gov.started ∨ s.gov.winTick < 1000 then done s s
  else
    let g := s.gov
    let named := (List.range 8).filter (fun n => s.charter.regAddr.getD n 0 != 0)
    let missing := named.any (fun n => (tel.getD n none).isNone)
    let eTel := named.foldl (fun a n => a + (tel.getD n none).getD 0) 0
    let base := { g with
      winTick := 0, winEst := 0, winLed := 0, winFeed := 0
      workW := ((g.winLed.toNat + 327680) / 655360), feedW := (g.winFeed + 10485760) / 20971520 }
    let g' :=
      if named = [] then { base with residual := 0, frozen := false }
      else if missing then { base with residual := 0, frozen := true }
      else { base with residual := ((eTel : Int) - g.winLed) * 16384000 + g.carried, carried := 0, frozen := false
                       trim := trimNext g.trim eTel g.winEst }
    done s { s with gov := g', plt := { s.plt with
      refCode := ref.zeroExtend 16, refBad := refOff ref, refOkAt := if refOff ref then s.time else s.plt.refOkAt
      noTel := named.filter (fun n => (tel.getD n none).isNone) } }

/-! ## Comparator (R73 to R78) -/

/-- RESYNC_START (R75): the clamp channels hold, heartbeats are suspended. -/
def startResync (s : State) (h : Held) : State :=
  let s1 := inc16 s 0x00020048
  { s1 with gov := { s1.gov with resync := .waiting, held := some h, injA := none, injB := none, resyncAt := s.time } }

/-- The agreed values of channels 0 to 3. -/
def agreed (s : State) : Held :=
  { clamp := s.gov.a.clamp, k := s.gov.a.k, targetW := s.gov.a.powerTargetW, ceilMhz := s.gov.a.ceilMhz
    exhausted := flags8 (exhaustedNow s) }

/-- Channel `n` carried `a` and `b`: the more restrictive of them (R73). Channel 0 carries 0 for no clamp and t + 1 for a
clamp with target t, and a clamp stretches the clocks (R97); channels 1 and 2 watts and MHz; channel 3 the exhausted
flags. -/
def restrictCh (s : State) (h : Held) (n a b : Nat) : Held :=
  match n with
  | 0 =>
    if a = 0 ∧ b = 0 then h
    else
      let t := if a = 0 then b - 1 else if b = 0 then a - 1 else Nat.min a b - 1
      { h with clamp := true, targetW := Nat.min h.targetW t, k := Nat.min h.k (clampK s t) }
  | 1 => { h with targetW := Nat.min a b }
  | 2 => { h with ceilMhz := Nat.min a b }
  | 3 => { h with exhausted := a ||| b }
  | _ => h

/-- GOV_CHANNEL_MASK.enabled (R71). -/
def chanOn (s : State) (n : Nat) : Bool := n < 16 && bit (keptFld s 0x00020030 0 16 s.charter.channelMask.toNat) n

/-- The channels a state field belongs to (R72). -/
def fieldChans (k : Nat) : List Nat :=
  if k < 8 then [0, 1, 2, 4] else if k < 12 then [3] else if k < 18 then [4] else if k < 22 then [5]
  else if k < 26 then [6] else if k < 30 then [7] else if k < 62 then [8 + (k - 30) / 4] else List.range 16

/-- GOV_STATE_MASK (R72). -/
def fieldOn (s : State) (k : Nat) : Bool :=
  match s.ras.keep.get none (0x00020034 + 4 * (k / 32)) with
  | some w => bit w.toNat (k % 32)
  | none => (fieldChans k).any (chanOn s)

/-- GOV_LAST_DIVERGE's word. -/
def divWord (at_ : DivAt) (en : Bool) : W32 :=
  BitVec.ofNat 32 ((match at_ with | .channel n => n.val | .field k => 32 + k.val * 64) + if en then 4096 else 0)

/-- A divergence may be counted now: the governors run, are compared, and none was counted in this tick. -/
def comparing (s : State) : Bool :=
  s.gov.started && !s.gov.lost && s.gov.resync == .none && s.gov.divTick != some s.gov.tickNo && s.boot.refclk

/-- The place of a divergence counts under R73: its channel is enabled, its state field masked. -/
def divOn (s : State) : DivAt → Bool
  | .channel n => chanOn s n
  | .field k => fieldOn s k

/-- The place that GOV_LAST_DIVERGE records (R73). -/
def lowestDiv : List DivAt → Option DivAt
  | [] => none
  | x :: r => match lowestDiv r with
    | none => some x
    | some y => some (if divRank y < divRank x then y else x)

/-- Channels 0 to 3 after the divergences `ds` of one tick (R73): the more restrictive value on each that differed. -/
def restrictive (s : State) (ds : List Diff) : Held :=
  ds.foldr (fun d h => match d.at_ with | .channel n => restrictCh s h n d.a d.b | .field _ => h) (agreed s)

/-- A divergence that asserts a clamp which A does not is an assertion (R97; DEDUCED, log entry 22). -/
def noteHeldClamp (s : State) : State :=
  match s.gov.held with
  | some h =>
    if h.clamp && !s.gov.a.clamp then
      chipErr { inc16 s 0x000300AC with plt := { s.plt with clampAt := s.time } } 0x45 0 2 0 0
    else s
  | none => s

/-- COMPARATOR_DIVERGENCE (R73): all that differs in one tick, with the values that A and B gave. -/
def execComparatorDivergence (p : List DivAt) (a b : List Nat) (s : State) : Out :=
  if Instr.wf (.comparatorDivergence p a b) then
    let on := (diffsOf p a b).filter (fun d => divOn s d.at_)
    match lowestDiv (on.map (·.at_)) with
    | none => done s s
    | some w =>
      if !comparing s then done s s
      else
        let s1 := inc16 s 0x00020044
        let s1 := { s1 with gov := { s1.gov with lastDiverge := divWord w true, divTick := some s.gov.tickNo } }
        let s2 := noteHeldClamp (startResync s1 (restrictive s on))
        if s.gov.lastResyncEnd.any (fun t => s.time ≤ t + 10 * ms) then done s (comparatorLost s2) else done s s2
  else bad "COMPARATOR_DIVERGENCE"

/-- LATENT_DIVERGENCE (R74): nothing of what differs in the tick is enabled or masked. A mismatch of channel 31 inside a
heartbeat window is that injection's flag, not a latent divergence (R76). -/
def execLatentDivergence (ds : List DivAt) (s : State) : Out :=
  if Instr.wf (.latentDivergence ds) then
    let hb := s.gov.injA.isSome || s.gov.injB.isSome
    match lowestDiv (ds.filter (fun d => !(hb && d == .channel 31))) with
    | none => done s s
    | some w =>
      if !comparing s || ds.any (divOn s) then done s s
      else
        let s1 := incF s 0x00020040 0 16 1
        let n := Nat.min 16 (s.gov.thisEpochLatent + 1)
        let s2 := { s1 with gov := { s1.gov with lastDiverge := divWord w false, divTick := some s.gov.tickNo,
                                                 thisEpochLatent := n } }
        done s (if n = 16 ∧ s.gov.thisEpochLatent ≠ 16 then startResync s2 (agreed s) else s2)
  else bad "LATENT_DIVERGENCE"

/-- RESYNC_HALF_FRAME (R75 steps 2 and 3): at a half-frame boundary B is halted and the copy begins. -/
def execResyncHalfFrame (s : State) : Out :=
  if s.gov.resync ≠ .waiting ∨ s.time % 500000 ≠ 0 then done s s
  else done s { s with gov := { s.gov with resync := .copying, bHalted := true, resyncAt := s.time + 12288 } }

/-- RESYNC_COPY_DONE (R75 steps 3 and 4): B restarts with A's state at the first tick boundary after the copy. -/
def execResyncCopyDone (s : State) : Out :=
  if s.gov.resync ≠ .copying ∨ s.time < s.gov.resyncAt ∨ s.time % 1000 ≠ 0 then done s s
  else done s { s with gov := { s.gov with resync := .restarting, bHalted := false, b := s.gov.a, resyncAt := s.time + 1000 } }

/-- RESYNC_COMPLETE (R75 step 5): the channels follow the governors again. A clamp that only the hold asserted ends
with it, and with its stretch its length is known (PLT_CLAMP_COUNT). -/
def execResyncComplete (s : State) : Out :=
  if s.gov.resync ≠ .restarting ∨ s.time < s.gov.resyncAt then done s s
  else
    let t := if stretchK s < 16 ∧ s.gov.a.k = 16 then
        wrF s 0x000300AC 16 16 (Nat.min ((s.time - s.plt.clampAt) / 1000) 65535) else s
    done s { t with gov := { t.gov with resync := .none, held := none, lastResyncEnd := some s.time } }

/-- HEARTBEAT_INJECT (R76): at frame offset 250 us for A, 750 us for B; none starts during a resynchronisation. -/
def execHeartbeatInject (g : Gv) (s : State) : Out :=
  let off := match g with | .a => 250000 | .b => 750000
  if !s.gov.started ∨ s.gov.lost ∨ s.gov.resync ≠ .none ∨ s.time % ms ≠ off then done s s
  else match g with
    | .a => done s { s with gov := { s.gov with injA := some s.time } }
    | .b => done s { s with gov := { s.gov with injB := some s.time } }

/-- HEARTBEAT_FLAGGED (R76): within 2 ticks of the injection's start. -/
def execHeartbeatFlagged (g : Gv) (s : State) : Out :=
  let inj := match g with | .a => s.gov.injA | .b => s.gov.injB
  if !inj.any (fun t => s.time ≤ t + 2000) then done s s
  else
    let v := s.gov
    match g with
    | .a => done s { s with gov := { v with injA := none, aOk := true, beats := (v.beats + 1) % 65536 } }
    | .b => done s { s with gov := { v with injB := none, bOk := true, beats := (v.beats + 1) % 65536 } }

/-- HEARTBEAT_DEADLINE (R76). -/
def execHeartbeatDeadline (g : Gv) (s : State) : Out :=
  let inj := match g with | .a => s.gov.injA | .b => s.gov.injB
  if !inj.any (fun t => t + 2000 ≤ s.time) then done s s
  else match g with
    | .a => done s (comparatorLost { s with gov := { s.gov with injA := none, aOk := false } })
    | .b => done s (comparatorLost { s with gov := { s.gov with injB := none, bOk := false } })

/-! ## Snapshot (R79) -/

/-- GOV_SNAP_REQUEST (R79, R348). A request while a capture is in progress is ignored. -/
def snapRequestOp (s : State) : State :=
  if s.gov.snapReq then s else { s with gov := { s.gov with snapReq := true, snapValid := false, snapAt := s.time } }

/-- GOV_SNAP_REQUEST (R79, R348). -/
def execGovSnapRequest (s : State) : Out := done s (snapRequestOp s)

/-- GOV_SNAP_CAPTURE (R79): at the tick boundary after the request, with what that boundary's tick left due, the updates
of a rollover tick among it. -/
def execGovSnapCapture (s : State) : Out :=
  if snapDue s then done s (snapCapture (settleTick s)) else done s s

end Sys2Proof.Machine
end

