-- ==== Sys2Proof/Machine/Mon.lean ====
section
/-! DEFINITION. Monitors and event counters (R355 to R359), freeze and thaw (R360, R361), trace (R362 to R366). -/

namespace Sys2Proof.Machine

/-! ## Monitors and counters -/

def monMin0 : W32 := 0xFFFFFFFF

/-- A write of MON_STAT.clear (R357). -/
def monClearOp (s : State) (m : Nat) : State :=
  if !s.charter.dbgMonitors then s
  else
    let x := s.mon.mons.get {} m
    { s with mon := { s.mon with mons := s.mon.mons.put {} m { x with min := monMin0, max := 0, skip := 0, bins := {} } } }

/-- MON_CLEAR (R357). -/
def execMonClear (m : Fin 64) (s : State) : Out := done s (monClearOp s m)

/-- A write of MON_CNT_HI: held (R359). -/
def monHiOp (s : State) (n : Nat) (v : W32) : State :=
  if !s.charter.dbgMonitors then s else { s with mon := { s.mon with cntHi := s.mon.cntHi.put 0 n v } }

/-- MON_CNT_HI_WRITE (R359). -/
def execMonCntHiWrite (n : Fin 64) (v : W32) (s : State) : Out := done s (monHiOp s n v)

/-- A write of MON_CNT_LO: both halves (R359). -/
def monLoOp (s : State) (n : Nat) (v : W32) : State :=
  if !s.charter.dbgMonitors then s
  else { s with mon := { s.mon with cnt := s.mon.cnt.put 0 n ((s.mon.cntHi.get 0 n).toNat * 2 ^ 32 + v.toNat) } }

/-- MON_CNT_LO_WRITE (R359). -/
def execMonCntLoWrite (n : Fin 64) (v : W32) (s : State) : Out := done s (monLoOp s n v)

/-! ## Freeze (R360, R361) -/

/-- The armed source fires now. -/
def freezeDue (s : State) : Bool :=
  match rdF s 0x00604800 0 3 with
  | 1 => rd64 s 0x00604804 0x00604808 % 2 ^ 48 ≤ ledger s
  | 2 => rd64 s 0x00604804 0x00604808 ≤ s.time
  | 3 => s.mon.fire
  | 4 => s.mon.fire
  | _ => false

/-- FREEZE_TRIGGER (R360). -/
def execFreezeTrigger (s : State) : Out :=
  if s.charter.dbgMonitors && rdB s 0x00604800 3 && freezeDue s then done s (freeze s) else done s s

/-- A write of now (R360). -/
def freezeNowOp (s : State) : State := if s.charter.dbgMonitors then freeze s else s

/-- FREEZE_NOW (R360). -/
def execFreezeNow (s : State) : Out := done s (freezeNowOp s)

/-- A core's FIFO has space for a record. -/
def trcRoom (s : State) (c : Nat) : Bool := (s.trc.fifo.get [] c).length < 64

/-- The SYNC record that follows a LOST record, once there is space (R366). -/
def trcSync (s : State) (c : Nat) : State :=
  if s.trc.syncDue.get false c && trcRoom s c then
    trcPush { s with trc := { s.trc with syncDue := s.trc.syncDue.put false c false } } c (syncRec s c)
  else s

/-- As soon as a core's FIFO has space again, before any new record: a LOST record, and a SYNC record (R363, R366). -/
def trcRecover (s : State) (c : Nat) : State :=
  let s1 := trcSync s c
  let n := s1.trc.lost.get 0 c
  if n = 0 ∨ !trcRoom s1 c ∨ s1.trc.stopped then s1
  else
    let r : TrcRec := { kind := 7, b1 := c, cycles := (s.core c).cycles % 2 ^ 32, time := s.time, ledger := ledger s,
                        seq := BitVec.ofNat 32 (Nat.min n 0xFFFFFFFF) }
    trcSync (trcPush { s1 with trc := { s1.trc with lost := s1.trc.lost.put 0 c 0, syncDue := s1.trc.syncDue.put false c true } }
      c r) c

/-- Every core writes a SYNC record (R365). -/
def syncAll (s : State) : State := upTo 32 s (fun t c => trcPush t c (syncRec t c))

/-- A write of thaw (R361, R365). -/
def thawOp (s : State) : State :=
  if !s.charter.dbgMonitors || !s.mon.frozen then s
  else
    let t : State := { s with mon := { s.mon with frozen := false }, trc := { s.trc with stopped := false } }
    if trcRuns t then syncAll (upTo 32 t trcRecover) else t

/-- THAW (R361). -/
def execThaw (s : State) : Out := done s (thawOp s)

/-! ## Trace (R362 to R366) -/

/-- Every FIFO is empty. -/
def trcEmpty (s : State) : Bool := s.trc.fifo.entries.all (fun e => e.2.isEmpty)

/-- A write of TRC_CTRL (R362). -/
def trcCtrlOp (s : State) (v : W32) : State :=
  let on := rdB s 0x00700000 0
  let s1 := wr s 0x00700000 (v &&& 0x3F)
  if bit v.toNat 0 then
    if on then s1
    else
      let t : State := { s1 with trc := { s1.trc with write := 0, full := false, wrapped := false, active := s.charter.dbgTrace } }
      if trcRuns t then syncAll t else t
  else if trcEmpty s1 then { s1 with trc := { s1.trc with active := false } } else s1

/-- TRACE_ENABLE (R362): a write of TRC_CTRL with enable = 1. -/
def execTraceEnable (v : W32) (s : State) : Out := done s (if bit v.toNat 0 then trcCtrlOp s v else s)

/-- TRACE_DISABLE (R362): a write of TRC_CTRL with enable = 0. -/
def execTraceDisable (v : W32) (s : State) : Out := done s (if bit v.toNat 0 then s else trcCtrlOp s v)

/-- A trace record's 32 bytes (R364). -/
def TrcRec.bytes (r : TrcRec) : List Byte :=
  leBytes 1 r.kind ++ leBytes 1 r.b1 ++ leBytes 2 r.ctx ++ leBytes 4 r.cycles ++ leBytes 8 r.time ++ leBytes 6 r.ledger
  ++ leBytes 1 r.fn ++ leBytes 1 r.q ++ leBytes 4 r.seq.toNat ++ leBytes 1 r.outcome ++ leBytes 1 r.flags
  ++ leBytes 2 r.tag.toNat

/-- log2 of the buffer's size, 16 to 34. -/
def trcLog2 (s : State) : Nat := Nat.max 16 (Nat.min 34 (rdF s 0x00700010 0 6))

/-- The record `r` is written at the next index, or counted as dropped (R362, R366). -/
def trcStore (s0 : State) (r : TrcRec) : State :=
  let circular := rdB s0 0x00700000 1
  let s := if circular && s0.trc.full then
      { s0 with trc := { s0.trc with write := 0, full := false, wrapped := true, wraps := (s0.trc.wraps + 1) % 2 ^ 32 } }
    else s0
  if !circular && (s.trc.full || s.trc.wrapped) then
    monEvent { s with trc := { s.trc with full := true, dropped := (s.trc.dropped + 1) % 2 ^ 64 } } 19 0 1
  else
    let va := rdF s 0x00700008 12 20 * 4096 + rdF s 0x0070000C 0 20 * 2 ^ 32 + 32 * s.trc.write
    match translate s 32 0 none va 32 .write with
    | (t, .ok pa _ _) =>
      if isHbm pa || isCommons pa then
        let u := monEvent (writePa t pa r.bytes) 18 0 1
        let n := u.trc.write + 1
        if n < 2 ^ (trcLog2 u - 5) then { u with trc := { u.trc with write := n } }
        else if circular then
          { u with trc := { u.trc with write := 0, wrapped := true, wraps := (u.trc.wraps + 1) % 2 ^ 32 } }
        else { u with trc := { u.trc with write := n, full := true } }
      else inc16 (wrF { t with trc := { t.trc with error := true } } 0x00700000 0 1 0) (mmuA 0 6)
    | (t, .bad _ _) => inc16 (wrF { t with trc := { t.trc with error := true } } 0x00700000 0 1 0) (mmuA 0 6)

/-- The next FIFO with a record, from FIFO `k` on round. -/
def nextFifo (s : State) (k : Nat) : Option Nat :=
  ((List.range 33).map (fun i => (k + i) % 33)).find? (fun c => !(s.trc.fifo.get [] c).isEmpty)

/-- One record leaves a FIFO; which one is free (R366). -/
def trcOne (s : State) (i : Nat) : State :=
  match nextFifo s ((Config.freeFp s.freeIdx i).toNat % 33) with
  | none => s
  | some c => match s.trc.fifo.get [] c with
    | [] => s
    | r :: q => trcRecover (trcStore { s with trc := { s.trc with fifo := s.trc.fifo.put [] c q } } r) c

/-- TRACE_WRITE (R366, R367): one line of up to four records. -/
def execTraceWrite (s : State) : Out :=
  let t := upTo 4 s trcOne
  done s (if !rdB t 0x00700000 0 && trcEmpty t then { t with trc := { t.trc with active := false } } else t)

/-- TRACE_SYNC (R365): bit 30 of the core's cycle count has changed. -/
def execTraceSync (c : CoreId) (s : State) : Out :=
  let b := bit (s.core c).cycles 30
  if s.trc.bit30.get false c = b then done s s
  else
    let t : State := { s with trc := { s.trc with bit30 := s.trc.bit30.put false c b } }
    done s (if trcRuns t then trcPush t c (syncRec t c) else t)

end Sys2Proof.Machine
end

