-- ==== Sys2Proof/Machine/Plant.lean ====
section
/-! DEFINITION. The plant: clamp release, reservoir, pump, valve, voltage, temperatures, droop, junction throttle, losses
(R85 to R103). The period of a periodic row is its sender's. -/

namespace Sys2Proof.Machine

/-- Applies `f` to A's loops and, unless B is halted, to B's (R70). -/
def bothLoops (s : State) (f : GovLoop → GovLoop) : State :=
  { s with gov := { s.gov with a := f s.gov.a, b := if s.gov.bHalted then s.gov.b else f s.gov.b } }

/-- PLT_CLAMP_COUNT.last_us, when the stretch in effect reaches k = 16. -/
def noteClamp (s : State) : State :=
  if stretchK s = 16 then wrF s 0x000300AC 16 16 (Nat.min ((s.time - s.plt.clampAt) / 1000) 65535) else s

/-- The plant's loops run: the governors have started and their clock runs. -/
def plantRuns (s : State) : Bool := s.gov.started && s.boot.refclk && s.boot.pwrgood

/-- CLAMP_RELEASE (R98): the excess is repaid and 200 samples were at or below the target. k rises at once. -/
def execClampRelease (s : State) : Out :=
  if !plantRuns s ∨ !s.gov.a.clamp ∨ s.gov.a.excess ≠ 0 ∨ s.gov.a.relCnt < 200 then done s s
  else
    let t := bothLoops s (fun g => { g with clamp := false, relCnt := 0, k := Nat.min 16 (g.k + 1) })
    done s (noteClamp { t with plt := { t.plt with kStepAt := s.time } })

/-- CLAMP_K_STEP (R98): every 10 us after the release. -/
def execClampKStep (s : State) : Out :=
  if !plantRuns s ∨ s.gov.a.clamp ∨ 16 ≤ s.gov.a.k ∨ s.time < s.plt.kStepAt + 10000 then done s s
  else
    let t := bothLoops s (fun g => { g with k := Nat.min 16 (g.k + 1) })
    done s (noteClamp { t with plt := { t.plt with kStepAt := s.time } })

/-! ## Reservoir (R90, R100, R101) -/

/-- RECONCILIATION (R101). -/
def reconcile (s : State) : State :=
  let e := eVolt s.charter.usableLu s.plt.resV s.plt.vFull.toNat s.plt.vEmpty.toNat
  let diff := if e < s.plt.coulomb then s.plt.coulomb - e else e - s.plt.coulomb
  let full := s.charter.usableLu * 65536
  let s1 := incF s 0x0003002C 0 16 1
  let s2 := wrF s1 0x0003002C 16 16 (diff * 10000 / full)
  let s3 := if 2 * full < 100 * diff then wrF s2 0x00030000 3 1 1 else s2
  { s3 with plt := { s3.plt with coulomb := e, dueAt := none, lastRec := s.time } }

/-- RESERVOIR_LOOP (R90, R101): the recharge request, E_v, and a reconciliation that is due once the current has been
below 1 A for 100 ms; none while a reservoir-ADC loss freezes the coulomb count (R102). A board without a reservoir runs none of it (R86); without a handshake there is no E_v. -/
def execReservoirLoop (s : State) : Out :=
  if !plantRuns s ∨ s.charter.usableLu = 0 then done s s
  else
    let err : Int := (s.charter.socTarget * 65536 : Nat) - (soc16 s : Int)
    let t := bothLoops s (fun g =>
      let (o, i) := loopStep (gainsOf s 1) (kpMax 1) (kiMax 1) (2 ^ 32) err g.resInt 0 ((s.plt.lim1.vote * 2 ^ 32 : Nat))
      { g with cReq := o / 65536, resInt := i })
    let t := { t with plt := { t.plt with
      eVolt := if s.plt.convOk then eVolt s.charter.usableLu s.plt.resV s.plt.vFull.toNat s.plt.vEmpty.toNat else 0 } }
    done s (if t.plt.dueAt.isSome && t.plt.convOk && 10000 ≤ t.plt.quiet && !t.plt.active.contains .resAdc then reconcile t else t)

/-- RECONCILE_DUE (R101): a full-charge event, or 10 min since the last. -/
def execReconcileDue (s : State) : Out :=
  let full := s.plt.convOk && 31840 * s.plt.vFull.toNat ≤ 100000 * s.plt.resV
  if !plantRuns s ∨ s.charter.usableLu = 0 ∨ s.plt.dueAt.isSome ∨ !(full || s.plt.lastRec + 600000 * ms ≤ s.time) then done s s
  else done s { s with plt := { s.plt with dueAt := some s.time } }

/-- RECONCILE_SKIP (R101): 60 s after it fell due. -/
def execReconcileSkip (s : State) : Out :=
  if !s.plt.dueAt.any (fun t => t + 60000 * ms ≤ s.time) then done s s
  else
    let t := inc16 s 0x00030030
    done s { t with plt := { t.plt with dueAt := none, lastRec := s.time } }

/-- A code of the reservoir ADC at the end of its range. -/
def resOverrange (v i : BitVec 12) : Bool := v == 0xFFF || i == 0x7FF || i == 0x800

/-- The reservoir's measured power differs from the setpoint by more than 20 % and 50 W (R102); codes of R80. -/
def powerOff (s : State) (v i : BitVec 12) : Bool :=
  let set : Int := (s.plt.setpoint : Int) - 2048
  let d : Int := 100 * (v.toNat : Int) * i.toInt - 65536 * set
  65536 * (set.natAbs + 250) < 5 * d.natAbs

/-- RESERVOIR_ADC_SAMPLE (R100, R102, R86). -/
def execReservoirAdcSample (v : BitVec 12) (i : BitVec 12) (s : State) : Out :=
  if !plantRuns s ∨ s.charter.usableLu = 0 then done s s
  else
    let cI := i.toInt
    let c : Int := (s.plt.coulomb : Int) - (v.toNat : Int) * cI * 10
    let c := (max 0 (min ((s.charter.usableLu * 65536 : Nat) : Int) c)).toNat
    done s { s with plt := { s.plt with
      resV := v.toNat, resI := cI
      resOver := if resOverrange v i then s.plt.resOver + 1 else 0
      coulomb := if s.plt.active.contains .resAdc then s.plt.coulomb else c
      convOff := if powerOff s v i then some (s.plt.convOff.getD s.time) else none
      quiet := if cI.natAbs * 200 < 4096 then s.plt.quiet + 1 else 0 } }

/-! ## Coolant (R90, R95, R102) -/

/-- Pump duty in effect, 2^-20 % (R50, R77, R90, R102). -/
def pumpEffect (s : State) : Int :=
  let full := s.charter.isLimp || s.gov.lost || [Loss.pumpTach, .flow, .inletAll, .outletAll].any (s.plt.active.contains ·)
  if full then 104857600
  else if s.gov.limpPower then max s.gov.a.pumpDuty (s.charter.limpPumpPct * 1048576 : Nat) else s.gov.a.pumpDuty

/-- PUMP_LOOP (R90): the duty from the outlet temperature in use. -/
def execPumpLoop (rpm : W16) (s : State) : Out :=
  if !plantRuns s then done s s
  else
    let t : State := { s with plt := { s.plt with rpm := rpm } }
    match roleTemps s 2 with
    | [] => done s t
    | x :: r =>
      let err : Int := r.foldl max x - s.charter.outletTarget * 16
      if s.charter.isLimp then done s t
      else done s (bothLoops t (fun g =>
        let (o, i) := loopStep (gainsOf s 2) (kpMax 2) (kiMax 2) (2 ^ 20) err g.pumpInt ((s.plt.lim4.vote * 1048576 : Nat)) 104857600
        { g with pumpDuty := o, pumpInt := i }))

/-- VALVE_LOOP (R90): the bypass from the inlet temperature in use; closed where valve_mode is 0. -/
def execValveLoop (s : State) : Out :=
  if !plantRuns s then done s s
  else
    let err : Int := 320 - inletUse s
    let hi : Int := if s.charter.valveMode = 0 ∨ s.charter.isLimp then 0 else 104857600
    done s (bothLoops s (fun g =>
      let (o, i) := loopStep (gainsOf s 3) (kpMax 3) (kiMax 3) (2 ^ 20) err g.valveInt 0 hi
      { g with valveDuty := o, valveInt := i }))

/-- VOLTAGE_LOOP (R89, R90): regulator n's Vout write. After 3 unacknowledged frames the trim is held and the bunch
capped, until one is acknowledged. -/
def execVoltageLoop (n : Fin 8) (slack : Int) (ack : Bool) (s : State) : Out :=
  if !plantRuns s ∨ s.charter.regAddr.getD n 0 = 0 then done s s
  else
    let t := bothLoops s (fun g =>
      let nak := if ack then 0 else g.nak.get 0 n + 1
      let g1 := { g with nak := g.nak.put 0 n nak }
      if 3 ≤ nak then g1
      else
        let (o, i) := loopStep (gainsOf s 4) (kpMax 4) (kiMax 4) 65536 (slack - 8) (g.voltInt.get 0 n) (-50 * 65536) (50 * 65536)
        { g1 with trim := g.trim.put 0 n o, voltInt := g.voltInt.put 0 n i })
    done s { t with plt := { t.plt with avsOk := t.plt.avsOk.put false n ack,
                                        active := if ack then t.plt.active.filter (· != .avsbus n) else t.plt.active } }

/-- SENSOR_POLL (R87): a reading, or none, of each sensor enumerated. DESIGN CHOICE (log entry 112): a named sensor that
did not answer the enumeration is never polled, and by itself no loss. Three failed reads in a row lose a sensor; one
that is lost counts again when its response ends. -/
def execSensorPoll (rd : List (Option Int)) (s : State) : Out :=
  if rd.length ≠ 8 then bad "SENSOR_POLL"
  else if !plantRuns s then done s s
  else
    let t := { s with plt := { s.plt with sensors := upTo 8 s.plt.sensors (fun t i =>
      let x := t.get {} i
      if !x.enumerated then t
      else match rd.getD i none with
        | some v => t.put {} i { x with temp := v, fails := 0, valid := x.valid || !s.plt.active.contains (.temp (Fin.ofNat 8 i)) }
        | none => t.put {} i { x with fails := x.fails + 1, valid := x.valid && x.fails + 1 < 3 }) } }
    done s (trackInlet t)

/-- INLET_OVER (R95). -/
def execInletOver (s : State) : Out :=
  if s.plt.inletOver ∨ !s.plt.overSince.any (fun t => t + 10000 * ms ≤ s.time) then done s s
  else done s { s with plt := { s.plt with inletOver := true } }

/-- INLET_OVER_CLEAR (R95). -/
def execInletOverClear (s : State) : Out :=
  if !s.plt.inletOver ∨ !s.plt.underSince.any (fun t => t + 10000 * ms ≤ s.time) then done s s
  else done s { s with plt := { s.plt with inletOver := false } }

/-- FLOW_GATE (R102): pulses of the 1 s gate. In LIMP the flow is not monitored (R51). -/
def execFlowGate (pulses : Nat) (s : State) : Out :=
  if !plantRuns s ∨ s.charter.flowPpl = 0 then done s s
  else
    let ml := pulses * 60000 / s.charter.flowPpl
    let bad := pulses = 0 ∨ (ml < 1000 ∧ (s.plt.lim4.vote * 1048576 : Nat) ≤ pumpEffect s)
    done s { s with plt := { s.plt with mlMin := ml, badGates := if bad then s.plt.badGates + 1 else 0,
                                         goodGates := if bad then 0 else s.plt.goodGates + 1 } }

/-! ## Droop and junctions (R93, R94) -/

/-- DROOP_STRETCH (R93). -/
def execDroopStretch (c : CoreId) (s : State) : Out :=
  if s.plt.droop.get false c then done s s
  else
    let t := inc32 s 0x000300B4 1
    done s { t with plt := { t.plt with droop := t.plt.droop.put false c true } }

/-- DROOP_RELEASE (R93). -/
def execDroopRelease (c : CoreId) (s : State) : Out :=
  done s { s with plt := { s.plt with droop := s.plt.droop.put false c false } }

/-- The junction throttle threshold, whole C (R94). -/
def threshold (s : State) : Nat :=
  let t := inletUse s
  let th (i : Nat) : Nat := s.charter.thermal.getD i 0
  if t ≤ 320 then th 0
  else if 960 ≤ t then th 8
  else
    let d := (t - 320).toNat
    let i := d / 80
    let f := d % 80
    (th i * (80 - f) + th (i + 1) * f) / 80

/-- How a core's junction stands to the threshold: 2 hot, 0 cool (2 C or more below), 1 between (R94). -/
def jClass (s : State) (c : Nat) : Nat :=
  match s.plt.junction.get (some 0) c with
  | none => 1
  | some j => if (threshold s * 16 : Nat) ≤ j then 2 else if j + 32 ≤ (threshold s * 16 : Nat) then 0 else 1

/-- JUNCTION_READ (R94): the 32 junctions; 110 C drops a ceiling to 400 MHz at once. -/
def execJunctionRead (rd : List (Option Int)) (s : State) : Out :=
  if rd.length ≠ 32 then bad "JUNCTION_READ"
  else if !plantRuns s then done s s
  else done s (upTo 32 s (fun t c =>
    let j := rd.getD c none
    let t1 := { t with plt := { t.plt with junction := t.plt.junction.put (some 0) c j } }
    let t2 := if jClass t1 c ≠ jClass t c then { t1 with plt := { t1.plt with jStep := t1.plt.jStep.put 0 c s.time } } else t1
    if j.any (fun x => 1760 ≤ x) then
      { t2 with plt := { t2.plt with jCeil := t2.plt.jCeil.put 1800 c (Nat.min 400 (t2.plt.jCeil.get 1800 c)) } }
    else t2))

/-- JUNCTION_CEILING_STEP (R94): 100 MHz down each 100 us while hot, 100 MHz up each 1 ms once cool. DESIGN CHOICE (log
entry 113): a core's ceiling starts at and rises to 1,800 MHz whatever the Charter's clock is. -/
def execJunctionCeilingStep (c : CoreId) (s : State) : Out :=
  let at_ := s.plt.jStep.get 0 c
  let v := s.plt.jCeil.get 1800 c
  let set (n : Nat) : State := { s with plt := { s.plt with jCeil := s.plt.jCeil.put 1800 c n, jStep := s.plt.jStep.put 0 c s.time } }
  if !plantRuns s then done s s
  else if jClass s c = 2 ∧ at_ + 100000 ≤ s.time then done s (set (Nat.max 400 (v - 100)))
  else if jClass s c = 0 ∧ at_ + ms ≤ s.time then done s (set (Nat.min 1800 (v + 100)))
  else done s s

/-! ## Losses (R102) -/

/-- What the state shows of a loss's source is consistent with its detection. -/
def lossSeen (s : State) : Loss → Bool
  | .feedAdc => s.plt.refBad || 3 ≤ s.plt.feedOver
  | .resAdc => s.charter.usableLu != 0 && 3 ≤ s.plt.resOver
  | .conv => s.charter.usableLu != 0 && s.plt.convOff.any (fun t => t + 10 * ms ≤ s.time)
  | .pumpTach => true
  | .flow => 3 ≤ s.plt.badGates
  | .inletAll => (roleTemps s 1).isEmpty && s.charter.sensors.any (fun x => x.2 == 1)
  | .outletAll => (roleTemps s 2).isEmpty && s.charter.sensors.any (fun x => x.2 == 2)
  | .temp n => (s.plt.sensors.get {} n).enumerated && 3 ≤ (s.plt.sensors.get {} n).fails
  | .pmbus n => s.charter.regAddr.getD n 0 != 0 && s.plt.noTel.contains n.val
  | .avsbus n => 3 ≤ s.gov.a.nak.get 0 n
  | .junction c => (s.plt.junction.get (some 0) c).isNone

/-- SENSOR_LOST (R102). A loss already in effect is not raised again. -/
def execSensorLost (l : Loss) (s : State) : Out :=
  if !plantRuns s ∨ lossOn s l ∨ !lossSeen s l then done s s
  else
    let t := activate (raiseLoss s (lossBit l)) l
    done s (trackInlet (if l = .feedAdc then { t with plt := { t.plt with refOkAt := s.time } } else t))

/-- What the state shows of a loss's source is consistent with its having been valid. The converter's loss lasts until
the chip reset. -/
def lossOver (s : State) : Loss → Bool
  | .conv => false
  | .resAdc => s.plt.resOver == 0
  | .flow => 3 ≤ s.plt.goodGates
  | .temp n => (s.plt.sensors.get {} n).fails == 0
  | .inletAll => (List.range 8).any (fun i => (s.charter.sensors.getD i (0, 0)).2 == 1 && (s.plt.sensors.get {} i).enumerated
      && (s.plt.sensors.get {} i).fails == 0)
  | .outletAll => (List.range 8).any (fun i => (s.charter.sensors.getD i (0, 0)).2 == 2 && (s.plt.sensors.get {} i).enumerated
      && (s.plt.sensors.get {} i).fails == 0)
  | .junction c => (s.plt.junction.get (some 0) c).isSome
  | .avsbus n => s.gov.a.nak.get 0 n == 0
  | .feedAdc => !s.plt.refBad && s.plt.feedOver < 3 && s.plt.refOkAt + ms ≤ s.time
  | .pumpTach => true
  | .pmbus n => !s.plt.noTel.contains n.val

/-- LOSS_RESPONSE_END (R102): the source has been valid for the required time. A sensor counts again. -/
def execLossResponseEnd (l : Loss) (s : State) : Out :=
  if !lossOn s l ∨ !lossOver s l then done s s
  else
    let t := { s with plt := { s.plt with active := s.plt.active.filter (· != l) } }
    let t := match l with
      | .temp n => { t with plt := { t.plt with sensors := t.plt.sensors.put {} n { t.plt.sensors.get {} n with valid := true } } }
      | _ => t
    done s (trackInlet t)

end Sys2Proof.Machine
end

