-- ==== Sys2Proof/Machine/RegMap.lean ====
section
/-! DEFINITION. The register map (16, and the register tables of 02 to 15): canonical addresses, writable fields, W1C
fields, protection, and where a register is reported (R351, R370 to R377). -/

namespace Sys2Proof.Machine

/-! ## Addresses (R371 to R373) -/

/-- The canonical address of offset `p` of function `f`'s page, for a write; none where the offset has no register or
is RO at this address. -/
def pageAddr (s : State) (f p : Nat) : Option Nat :=
  if 0x1E000 ≤ p ∧ p < 0x1E800 then
    (if embOwner s ((p - 0x1E000) / 0x20) = some f then some (0x02001000 + (p - 0x1E000)) else none)
  else if 0x1F000 ≤ p ∧ p < 0x1F080 then some (0x00200000 + 0x100 * f + (p - 0x1F000))
  else if p < 0x1000 ∨ (0x1F080 ≤ p ∧ p < 0x20000) ∨ (0x30000 ≤ p ∧ p < 0x30800) then none
  else some (fpA f p)

/-- The canonical address that a write of function `f` at offset `off` of its BAR0 reaches. -/
def writeAddr (s : State) (f off : Nat) : Option Nat :=
  if f = 0 then
    if 0x41000 ≤ off ∧ off < 0x100000 then pageAddr s 0 (off - 0x40000)
    else if off < 0x04000000 then some off else none
  else if off < 0x100000 then pageAddr s f off else none

/-! ## Fields (R9) -/

/-- The RW fields of a function-page register. -/
def pageRw (p : Nat) : Nat :=
  if 0x10000 ≤ p ∧ p < 0x12000 then
    match p % 0x80 with
    | 0x00 => 0xFFFFF000 | 0x04 => 0x7FFFF | 0x08 => 0xFFFFF000 | 0x0C => 0x7FFFF | 0x10 => 0x1F1F | 0x14 => 0x3F01
    | 0x1C => 0xFFFFFFFF | _ => 0
  else if p = 0x20000 then 0x3F01
  else if p = 0x20008 ∨ (0x30800 ≤ p ∧ p < 0x3081C) then 0xFFFF
  else if 0x40000 ≤ p ∧ p < 0x40400 then (if p % 16 = 12 then 1 else 0xFFFFFFFF)
  else 0

/-- The RW fields of a register of a core window. -/
def coreRw (o : Nat) : Nat :=
  match o with
  | 0x00C => 1 | 0x04C => 1 | 0x014 => 0xFFFF | 0x054 => 0xFFFF | 0x104 => 0xFFFF | 0x20C => 0x3F | 0x224 => 4
  | 0x228 => 0xFFFFFFFF | 0x600 => 1 | 0x604 => 0xFFFFFF80 | 0x608 => 0xFFFFF | 0x60C => 0xFFFFFFFF | 0x614 => 0xFFFF
  | _ => 0

/-- The RW fields of a register of the governors, the plant and the host-queue globals. -/
def govRw (a : Nat) : Nat :=
  if a = 0x20040 ∨ a = 0x20044 ∨ a = 0x20048 ∨ a = 0x20054 then 0xFFFF
  else if 0x20100 ≤ a ∧ a < 0x20180 ∧ a % 16 = 12 then 0xFFFF0000
  else if a = 0x30008 ∨ a = 0x3002C ∨ a = 0x30030 ∨ a = 0x300A8 ∨ a = 0x300AC then 0xFFFF
  else if 0x40200 ≤ a ∧ a < 0x40400 then 0x1FFF
  else if a = 0x40620 then 0xFFFF
  else 0

/-- The RW fields of a register of the MMU and SYN blocks. -/
def mmuSynRw (a : Nat) : Nat :=
  if 0x200000 ≤ a ∧ a < 0x208000 then
    match a % 0x100 with
    | 0x00 => 0xFFFFF001 | 0x04 => 0xFFFFF | 0x08 => 0xFFFF0000 | 0x0C => 0xFFFFF | 0x10 => 0xFFFFFF | 0x18 => 0xFFFF
    | _ => 0
  else if 0x208000 ≤ a ∧ a < 0x20C000 then (if a % 8 = 0 then 0xFFFFFFFF else 0x3FFFF)
  else if a = 0x400000 then 0x7FFF
  else if 0x400200 ≤ a ∧ a < 0x400300 then (if a % 16 = 0 then 0x1FFF else if a % 16 = 4 then 0xFFFFFFFF else 0)
  else if a = 0x400800 then 0xFFFFFFC0 else if a = 0x400804 then 0xFFFFF
  else if a = 0x400808 then 0xFFFFFFFF else if a = 0x40080C then 0x3F10
  else if 0x400820 ≤ a ∧ a < 0x400834 then 0xFFFF
  else 0

/-- The RW fields of a register of the LNK, MON, TRC, RAS and MEM blocks. -/
def lnkMemRw (a : Nat) : Nat :=
  if 0x500000 ≤ a ∧ a < 0x600000 then
    let o := a % 0x10000
    if o = 4 then 1
    else if o = 0x24 ∨ o = 0x28 ∨ o = 0x2C ∨ o = 0x38 ∨ o = 0x3C ∨ o = 0x40 then 0xFFFF
    else if a = 0x508004 then 3 else if 0x508010 ≤ a ∧ a < 0x508024 then 0xFFFF else 0
  else if 0x600000 ≤ a ∧ a < 0x604000 then (if a % 0x100 = 0 then 0x9F077F3F else 0)
  else if 0x604000 ≤ a ∧ a < 0x604400 then (if a % 16 = 0 then 0x8000FF3F else 0)
  else if a = 0x604800 then 0x8F else if a = 0x60480C then 0x7FFF
  else if a = 0x604804 ∨ a = 0x604808 ∨ a = 0x604810 then 0xFFFFFFFF
  else if a = 0x700000 then 0x3F else if a = 0x700008 then 0xFFFFF000 else if a = 0x70000C then 0xFFFFF
  else if a = 0x700010 then 0x3F else if 0x700040 ≤ a ∧ a < 0x700050 then 0xFFFFFFFF
  else if a = 0x800004 then 0x3F01 else if a = 0x80000C then 0xFFFFFFFF
  else if 0x800100 ≤ a ∧ a < 0x80012C then 0xFFFF
  else if 0x2000010 ≤ a ∧ a < 0x2000030 then 0xFFFF
  else if 0x2000800 ≤ a ∧ a < 0x2000900 then 0xFF
  else if 0x2001000 ≤ a ∧ a < 0x2001800 then
    (if a % 0x20 = 0 then 0xFFFF8000 else if a % 0x20 = 4 then 0xFFFFF else if a % 0x20 = 12 then 0xFFFFFFFF else 0)
  else 0

/-- The RW fields of the register at a canonical address. -/
def rwMask (a : Nat) : Nat :=
  if 0x40000000 ≤ a then pageRw ((a - 0x40000000) % 0x100000)
  else if 0x1000000 ≤ a ∧ a < 0x1800000 then coreRw (a % 0x40000)
  else if a < 0x100000 then govRw a
  else if a < 0x500000 then mmuSynRw a
  else lnkMemRw a

/-- The W1C fields that the register file holds. -/
def w1cMask (a : Nat) : Nat :=
  if 0x1000000 ≤ a ∧ a < 0x1800000 then
    (if a % 0x40000 = 0x100 then 7 else if a % 0x40000 = 0x610 then 0x20 else 0)
  else if 0x200000 ≤ a ∧ a < 0x208000 then (if a % 0x100 = 0x14 then 7 else 0)
  else if 0x508100 ≤ a ∧ a < 0x508180 then 0xFFFFFFFF
  else if 0x2001000 ≤ a ∧ a < 0x2001800 then (if a % 0x20 = 8 then 0xC else 0)
  else if a = 0x20000 then 0x10 else if a = 0x30000 then 8 else if a = 0x30004 then 0x7FF
  else if a = 0x400300 then 1 else if a = 0x40080C then 0xC
  else if a = 0x508004 then 0x100 else if a = 0x508008 then 7 else if a = 0x800000 then 3
  else 0

/-- A register's word after a write of `v`: RW fields take it, a 1 clears a W1C bit (R9). -/
def writeWord (a : Nat) (old v : W32) : W32 :=
  let m := BitVec.ofNat 32 (rwMask a)
  ((old &&& ~~~m) ||| (v &&& m)) &&& ~~~(v &&& BitVec.ofNat 32 (w1cMask a))

/-! ## Protection (R376) -/

/-- The register is marked P: parity over its RW fields. -/
def isP (a : Nat) : Bool :=
  let m := rwMask a
  m != 0 && m != 0xFFFF && 0x40000 ≤ a
  && !(0x1000000 ≤ a && a < 0x1800000 && a % 0x40000 == 0x228)
  && !(0x40000000 ≤ a && 0x40000 ≤ (a - 0x40000000) % 0x100000)
  && !(0x2001000 ≤ a && a < 0x2001800 && a % 0x20 == 12)

/-- The fields of Charter origin of a register marked C that are not TRV. -/
def charterMask (a : Nat) : Nat :=
  if a = 0x10004 ∨ (0x10010 ≤ a ∧ a < 0x10040) ∨ a = 0x20034 ∨ a = 0x20038 then 0xFFFFFFFF
  else if a = 0x20030 then 0xFFFF
  else if 0x20100 ≤ a ∧ a < 0x20180 ∧ a % 16 = 0 then 0x1FFFF
  else if 0x300000 ≤ a ∧ a < 0x300100 then (if a % 0x20 = 0 then 0x7F00 else if a % 0x20 = 4 then 0x1FFFF else 0)
  else if a = 0x508000 then 0xFFF else if a = 0x508004 then 0xF0
  else 0

/-! ## Where a register is reported (R351) -/

/-- Source block and instance of a register. -/
def blockInst (a : Nat) : Nat × Nat :=
  if 0x40000000 ≤ a then (14, (a - 0x40000000) / 0x100000)
  else if 0x2000000 ≤ a then (8, if 0x2001000 ≤ a then (a - 0x2001000) / 0x20 else if 0x2000800 ≤ a then (a - 0x2000800) / 4 else 0)
  else if 0x1000000 ≤ a then (9, (a - 0x1000000) / 0x40000)
  else if 0x800000 ≤ a then (12, 0)
  else if 0x700000 ≤ a then (11, 0)
  else if 0x600000 ≤ a then (10, if a < 0x604000 then (a - 0x600000) / 0x100 else if a < 0x604400 then 64 + (a - 0x604000) / 16 else 0)
  else if 0x500000 ≤ a then (7, (a - 0x500000) / 0x10000)
  else if 0x400000 ≤ a then (6, if 0x400200 ≤ a ∧ a < 0x400300 then (a - 0x400200) / 16 else 0)
  else if 0x300000 ≤ a then (5, if a < 0x300100 then (a - 0x300000) / 0x20 else 0)
  else if 0x208000 ≤ a then (4, (a - 0x208000) / 0x80)
  else if 0x200000 ≤ a then (4, (a - 0x200000) / 0x100)
  else if 0x100000 ≤ a then (13, (a - 0x100000) / 0x1000)
  else if 0x40000 ≤ a then (3, if 0x40200 ≤ a ∧ a < 0x40400 then (a - 0x40200) / 4 else 0)
  else if 0x30000 ≤ a then (2, 0)
  else if 0x20000 ≤ a then (1, if 0x20100 ≤ a ∧ a < 0x20180 then (a - 0x20100) / 16 else 0)
  else (0, 0)

/-- Detail of a chip-log record about a register (R351). -/
def regDetail (a : Nat) : Nat :=
  if a < 0x40000000 then a
  else
    let f := (a - 0x40000000) / 0x100000
    let p := (a - 0x40000000) % 0x100000
    if f = 0 then 0x40000 + p else p + f * 2 ^ 32 + 2 ^ 63

/-- The function whose page shows the register, and the register's offset in that function's BAR0 (R347, R353). -/
def pageOf (s : State) (a : Nat) : Option (Nat × Nat) :=
  let at_ (f p : Nat) : Option (Nat × Nat) := some (f, if f = 0 then 0x40000 + p else p)
  if 0x40000000 ≤ a then at_ ((a - 0x40000000) / 0x100000) ((a - 0x40000000) % 0x100000)
  else if 0x200000 ≤ a ∧ a < 0x208000 then at_ ((a - 0x200000) / 0x100) (0x1F000 + a % 0x100)
  else if 0x208000 ≤ a ∧ a < 0x20C000 then at_ ((a - 0x208000) / 0x80) (0x1F080 + a % 0x80)
  else if 0x2001000 ≤ a ∧ a < 0x2001800 then
    match embOwner s ((a - 0x2001000) / 0x20) with | some f => at_ f (0x1E000 + (a - 0x2001000)) | none => none
  else none

end Sys2Proof.Machine
end

