-- ==== Sys2Proof/Machine/Ras.lean ====
section
/-! DEFINITION. Upsets of triplicated fields (R78, R103, R286, R354, R375), parity and its repair (R57, R353), the fault
mailbox (R348 to R350) and the chip RAS log (R351, R352). -/

namespace Sys2Proof.Machine

/-! ## Triplicated fields (R354) -/

/-- The copies of a field. -/
def trvOf (s : State) : TrvField → Trv
  | .skew => s.gov.skew
  | .feedCap => s.gov.feedCap
  | .dischargeMax => s.plt.lim0
  | .rechargeMax => s.plt.lim1
  | .clampTarget => s.plt.lim2
  | .socFloor => s.plt.lim3
  | .pumpMin => s.plt.lim4
  | .bunch b => s.sch.bunch.get {} b
  | .qslot k => (s.qslot k).fn

def setTrv (s : State) (f : TrvField) (t : Trv) : State :=
  match f with
  | .skew => { s with gov := { s.gov with skew := t } }
  | .feedCap => { s with gov := { s.gov with feedCap := t } }
  | .dischargeMax => { s with plt := { s.plt with lim0 := t } }
  | .rechargeMax => { s with plt := { s.plt with lim1 := t } }
  | .clampTarget => { s with plt := { s.plt with lim2 := t } }
  | .socFloor => { s with plt := { s.plt with lim3 := t } }
  | .pumpMin => { s with plt := { s.plt with lim4 := t } }
  | .bunch b => { s with sch := { s.sch with bunch := s.sch.bunch.put {} b t } }
  | .qslot k => s.setQslot k { s.qslot k with fn := t }

/-- The value of a TRV field in a copy of the Charter shadow; none for a field that no shadow reloads (R78, R286). -/
def trvEntry (c : Charter) : TrvField → Option Nat
  | .skew => none
  | .feedCap => some c.feedCapW
  | .dischargeMax => some c.dischargeMaxW
  | .rechargeMax => some c.rechargeMaxW
  | .clampTarget => some c.clampTargetW
  | .socFloor => some c.socFloor
  | .pumpMin => some c.pumpMinPct
  | .bunch b => some (c.bunchPart.getD b 0)
  | .qslot _ => none

/-- Address of the field's register, and of its block's correction counter where it has one. -/
def trvReg : TrvField → Nat × Option Nat
  | .skew => (0x20004, some 0x20054)
  | .feedCap => (0x20008, some 0x20054)
  | .dischargeMax | .rechargeMax => (0x300A0, some 0x300A8)
  | .clampTarget | .socFloor | .pumpMin => (0x300A4, some 0x300A8)
  | .bunch _ => (0x300800, none)
  | .qslot k => (0x100000 + 0x1000 * k, some 0x40620)

/-- What the Charter shadow gives for a field: the first copy whose entry for its register decodes (R57). -/
def trvShadow (s : State) (f : TrvField) : Option Nat :=
  if !s.boot.bad1.contains (trvReg f).1 then trvEntry s.boot.sh1 f
  else if !s.boot.bad2.contains (trvReg f).1 then trvEntry s.boot.sh2 f else none

/-- Reports TRV_CORRECTED with a sub-code. -/
def trvReport (s : State) (f : TrvField) (sub : Nat) : State :=
  let a := (trvReg f).1
  chipErr s 0x41 sub (blockInst a).1 (blockInst a).2 (regDetail a)

/-- The queue that holds slot `k`, as function and queue. -/
def slotQueue (s : State) (k : Nat) : Option (Nat × Nat) :=
  (s.hq.queues.entries.find? (fun e => e.2.slot == some k)).map (fun e => (e.1 / 64, e.1 % 64))

/-- The commands of a queue slot that have been consumed and not started are discarded; the queue consumes them again
from its head, which goes back to the first of them (R286). -/
def unfetch (s : State) (f q : Nat) : State :=
  let x := s.queue f q
  let keep := x.cmds.takeWhile (·.started)
  match x.cmds.drop keep.length with
  | [] => s
  | c :: r =>
    let s1 := s.setQueue f q { x with cmds := keep, head := c.at_, nextSeq := c.seq }
    (c :: r).foldl (fun t d =>
      if d.op = 0x11 ∧ !d.ready ∧ !stillClosing t f d.ctx d.order then t.setCtx d.ctx { t.ctx d.ctx with closing := false } else t) s1

/-- R286 with no two copies in agreement. -/
def slotLost (s : State) (k : Nat) : State :=
  let s1 := chipErr s 0x46 0 13 k 0
  match slotQueue s1 k with
  | none => offerSlot s1 k
  | some (f, q) =>
    let s2 := unfetch s1 f q
    refresh (offerSlot (s2.setQueue f q { s2.queue f q with slot := none, evicted := true }) k) f

/-- TRV_UPSET (R354): the field's copies are found as `c0`, `c1`, `c2`. -/
def execTrvUpset (fld : TrvField) (c0 c1 c2 : Nat) (s : State) : Out :=
  let t : Trv := ⟨c0, c1, c2, (trvOf s fld).vote⟩
  if c0 = c1 ∧ c1 = c2 then done s s
  else if c0 = c1 ∨ c0 = c2 ∨ c1 = c2 then
    let s1 := setTrv s fld ⟨t.vote, t.vote, t.vote, t.vote⟩
    let s2 := match (trvReg fld).2 with | some a => inc16 s1 a | none => s1
    done s (trvReport s2 fld 0)
  else
    let s1 := trvReport (setTrv s fld t) fld 1
    match fld, trvShadow s fld with
    | .skew, _ => done s (comparatorLost s1)
    | .qslot k, _ => done s (slotLost s1 k)
    | _, some v => done s (setTrv s1 fld ⟨v, v, v, v⟩)
    | _, none => done s s1

/-! ## Parity (R57, R353) -/

/-- The repair sources of a hit register are lost: the shadow of a register of Charter origin, the write copy of its RW
fields. -/
def shadowGone (h : ParityHit) : Bool := charterMask h.addr != 0 && !h.sh1 && !h.sh2
def copyGone (h : ParityHit) : Bool := isP h.addr && !h.wc

/-- The queue whose Q_CTRL stands at `a`, as function and queue. -/
def ctrlQueue (a : Nat) : Option (Nat × Nat) :=
  let o := (a - 0x40000000) % 0x100000
  if 0x40000000 ≤ a ∧ 0x10000 ≤ o ∧ o < 0x12000 ∧ o % 0x80 = 0x14 then some ((a - 0x40000000) / 0x100000, (o - 0x10000) / 0x80)
  else none

/-- A register whose RW fields take their reset value: fields that other parts of the state hold as well. A queue whose
enable is lost is disabled as a write of 0 disables it (R281). -/
def resetField (s : State) (a : Nat) : State :=
  if let some (f, q) := ctrlQueue a then qCtrlOp s f q 0
  else if 0x400200 ≤ a ∧ a < 0x400300 then
    let w := (a - 0x400200) / 16
    let x := s.syn.wires.get {} w
    let y := if a % 16 = 0 then { x with ctx := 0, valid := false } else { x with mask := 0 }
    { s with syn := { s.syn with wires := s.syn.wires.put {} w y } }
  else s

/-- CFG_PARITY is raised, counted and logged (R342, R353). -/
def parityRaise (s : State) (h : ParityHit) : State :=
  let sub := if shadowGone h || copyGone h then 1 else 0
  let (b, i) := blockInst h.addr
  let s1 := chipErr s 0x40 sub b i (regDetail h.addr)
  match pageOf s h.addr with
  | none => s1
  | some (f, o) => fnCoal (inc16 s1 (fpA f 0x30818)) f { code := 0x40, sub := sub, detail := o, block := b, inst := i }

/-- The value that uses of the register take from the detection on: its repair source's, which it held before the
upset, or what the outcome of R57 or R353 leaves. -/
def parityValue (s : State) (h : ParityHit) : State :=
  let s1 := if shadowGone h then { s with ras := { s.ras with keep := s.ras.keep.put none h.addr (some h.held) } } else s
  if copyGone h then
    let m := BitVec.ofNat 32 (rwMask h.addr)
    resetField (wr s1 h.addr ((rd s1 h.addr &&& ~~~m) ||| (resetVal h.addr &&& m))) h.addr
  else s1

/-- The mismatch as the repair meets it: a shadow entry once found lost stays lost until the shadow is written again
(R57). -/
def effHit (s : State) (h : ParityHit) : ParityHit :=
  { h with sh1 := h.sh1 && !s.boot.bad1.contains h.addr, sh2 := h.sh2 && !s.boot.bad2.contains h.addr }

/-- Notes which of the shadow entries of a register of Charter origin no longer decode (R57). -/
def noteShadow (s : State) (h : ParityHit) : State :=
  let add (l : List Nat) (ok : Bool) : List Nat := if ok || l.contains h.addr then l else h.addr :: l
  if charterMask h.addr = 0 then s
  else { s with boot := { s.boot with bad1 := add s.boot.bad1 h.sh1, bad2 := add s.boot.bad2 h.sh2 } }

/-- One mismatch that the scan, or a use of the register, finds on a protected register (R353). -/
def parityHit (s : State) (h0 : ParityHit) : State :=
  if (charterMask h0.addr = 0 ∧ !isP h0.addr) ∨ s.ras.parity.any (fun x => x.addr == h0.addr) then s
  else
    let h := effHit s h0
    let s1 := noteShadow (parityValue (parityRaise s h) h) h
    { s1 with ras := { s1.ras with parity := s1.ras.parity ++ [h] } }

/-- PARITY_SCAN (R353): the mismatches that the scan finds, or that hardware uses of registers meet before it (the table
has no other row for those; log entry 36). -/
def execParityScan (hits : List ParityHit) (s : State) : Out :=
  if Instr.wf (.parityScan hits) then doneBoot s (hits.foldl parityHit s) else bad "PARITY_SCAN"

/-- PARITY_REPAIR (R57, R353): the repair of the register at `addr` lands. -/
def execParityRepair (addr : Nat) (s : State) : Out :=
  match s.ras.parity.find? (fun h => h.addr == addr) with
  | none => doneBoot s s
  | some h =>
    let s1 := { s with ras := { s.ras with parity := s.ras.parity.filter (fun x => x.addr != addr) } }
    let s2 := if shadowGone h || copyGone h then wrF s1 0x00800000 0 1 1 else s1
    let s3 := if shadowGone h then limpPower { s2 with boot := { s2.boot with shadowLost := true } } else s2
    doneBoot s s3

/-! ## Fault mailbox (R347 to R350) -/

/-- A fault record's 64 bytes (R347). -/
def FltRec.bytes (r : FltRec) : List Byte :=
  let b (x : Bool) (n : Nat) : Nat := if x then n else 0
  leBytes 2 r.num ++ leBytes 1 r.code ++ leBytes 1 r.sub ++ leBytes 1 (r.level % 16 + b r.double 16 + b r.parked 32)
  ++ leBytes 1 (match r.eng with | some e => e.toNat + 128 | none => 0) ++ leBytes 1 r.slot
  ++ leBytes 1 (match r.q with | some q => q + 128 | none => 0)
  ++ leBytes 2 (match r.ctx with | some c => c + 0x8000 | none => 0) ++ leBytes 2 r.count ++ leBytes 4 r.seq.toNat
  ++ leBytes 8 r.time ++ leBytes 8 r.ledger ++ leBytes 8 r.pc ++ leBytes 8 r.va ++ leBytes 4 r.mask.toNat ++ leBytes 4 0
  ++ leBytes 8 r.detail

/-- A write of pop (R349, R350). -/
def fltPopOp (s : State) (f : Nat) : State :=
  let l := s.flt f
  match l.recs with
  | [] => s.setFlt f { l with valid := true, empty := true, mbx := [] }
  | r :: rest => s.setFlt f { l with recs := rest, valid := true, empty := false, mbx := r.bytes,
                                     notified := l.notified && !rest.isEmpty }

/-- FLT_POP (R349). -/
def execFltPop (f : Fn) (s : State) : Out := done s (fltPopOp s f)

/-! ## Chip RAS log (R351, R352) -/

/-- An entry's 32 bytes (R351). -/
def RasEntry.bytes (e : RasEntry) : List Byte :=
  leBytes 4 e.num ++ leBytes 1 e.code ++ leBytes 1 e.sub ++ leBytes 2 e.count ++ leBytes 8 e.time ++ leBytes 6 e.ledger
  ++ leBytes 1 e.block ++ leBytes 1 e.inst ++ leBytes 8 e.detail

/-- A write of RAS_LOG_CTRL.request (R352). -/
def rasLogOp (s : State) : State :=
  let n := (rd s 0x0080000C).toNat
  let d := (s.ras.next + 2 ^ 32 - n) % 2 ^ 32
  match (if 1 ≤ d ∧ d ≤ 1024 then s.ras.log.find? (fun e => e.num == n) else none) with
  | some e => { s with ras := { s.ras with valid := true, gone := false, mbx := e.bytes } }
  | none => { s with ras := { s.ras with valid := true, gone := true, mbx := [] } }

/-- RAS_LOG_REQUEST (R352). -/
def execRasLogRequest (s : State) : Out := done s (rasLogOp s)

/-- RAS_IRQ_SEND (R352): one message for new entries, at most once per 100 us. -/
def execRasIrqSend (s : State) : Out :=
  let early := match s.ras.irqAt with | some t => decide (s.time < t + 100000) | none => false
  if !s.ras.irqDue || !rdB s 0x00800004 0 || early then done s s
  else
    let s1 := msix s 0 (rdF s 0x00800004 8 6)
    done s { s1 with ras := { s1.ras with irqDue := false, irqAt := some s.time } }

end Sys2Proof.Machine
end

