-- ==== Sys2Proof/Machine/Regs.lean ====
section
/-! DEFINITION. REGISTER_WRITE (R9, R10, R370 to R374): a write of the host to a BAR0, word by word, with the effects
that the registers' own rules give (each of them also has a row of its own, whose operation it calls). -/

namespace Sys2Proof.Machine

/-- The write of a plain register: its RW fields take the value, its W1C bits clear, all else stays (R9, R10). -/
def plainWrite (s : State) (a : Nat) (v : W32) : State :=
  if rwMask a = 0 ∧ w1cMask a = 0 then s else wr s a (writeWord a (rd s a) v)

/-! ## Function page (R282, R284, R295, R346 to R350) -/

/-- A queue register: base, size and first sequence number are locked while the queue is not disabled (R280, R281). -/
def writeQueueReg (s : State) (f q o : Nat) (v : W32) : State :=
  let x := s.queue f q
  match o with
  | 0x14 => qCtrlOp s f q v
  | 0x18 => if bit v.toNat 9 then s.setQueue f q { x with dbError := false } else s
  | 0x28 => abortOp s f q v
  | 0x2C => if bit v.toNat 3 then s.setQueue f q { x with abRefused := false } else s
  | _ => if x.st = .disabled then plainWrite s (qA f q (o / 4)) v else s

/-- The vector control of MSI-X vector `n`: an unmasked vector that is pending is sent. -/
def writeMsixCtrl (s : State) (f n : Nat) (v : W32) : State :=
  let s1 := plainWrite s (fpA f (0x40000 + 16 * n + 12)) v
  if !bit v.toNat 0 && rdB s1 (fpA f (0x41000 + 4 * (n / 32))) (n % 32) then
    msix (wrF s1 (fpA f (0x41000 + 4 * (n / 32))) (n % 32) 1 0) f n
  else s1

/-- A register at offset `p` of function `f`'s page. -/
def writePage (s : State) (f p : Nat) (v : W32) : State :=
  if 0x1000 ≤ p ∧ p < 0x1200 then
    (if p % 8 = 0 then doorbellOp s f ((p - 0x1000) / 8) (some v) none
     else doorbellOp s f ((p - 0x1000) / 8) none (some v))
  else if 0x10000 ≤ p ∧ p < 0x12000 then writeQueueReg s f ((p - 0x10000) / 0x80) (p % 0x80) v
  else if p = 0x2000C then (if bit v.toNat 0 then fltPopOp s f else s)
  else if 0x40000 ≤ p ∧ p < 0x40400 ∧ p % 16 = 12 then writeMsixCtrl s f ((p - 0x40000) / 16) v
  else plainWrite s (fpA f p) v

/-! ## Core windows -/

/-- CORE_HAZARD_CTRL of engine `e` (R130, R131). -/
def writeHazardCtrl (s : State) (c : Nat) (e : CE) (a : Nat) (v : W32) : State :=
  let s1 := plainWrite s a v
  let s2 := if bit v.toNat 1 then hazardResumeOp s1 c e else s1
  if bit v.toNat 2 then hazardKillOp s2 c e else s2

/-- CORE_TE_CTRL (R177 to R179). -/
def writeTeCtrl (s : State) (c a : Nat) (v : W32) : State :=
  let s1 := plainWrite s a v
  let s2 := if bit v.toNat 0 then replayOp s1 c else s1
  if bit v.toNat 1 then punKillOp s2 c else s2

/-- A register at offset `o` of core `c`'s window. -/
def writeCore (s : State) (c o : Nat) (v : W32) : State :=
  match o with
  | 0x00C => writeHazardCtrl s c .mx (coreA c o) v
  | 0x04C => writeHazardCtrl s c .tx (coreA c o) v
  | 0x21C => u63LoOp s c v
  | 0x220 => u63HiOp s c v
  | 0x224 => writeTeCtrl s c (coreA c o) v
  | 0x600 => l1EnableOp s c v
  | 0x610 => l1MaintOp (plainWrite s (coreA c o) v) c (fld v.toNat 0 2)
  | _ => plainWrite s (coreA c o) v

/-! ## MMU, SYN, LNK -/

/-- A register of the MMU block (R211 to R214). -/
def writeMmu (s : State) (a : Nat) (v : W32) : State :=
  if a < 0x208000 then
    let f := (a - 0x200000) / 0x100
    match a % 0x100 with
    | 0x00 => mmuRootWriteOp s f false v
    | 0x04 => mmuRootWriteOp s f true v
    | 0x10 => mmuInvalidateOp s f v
    | _ => plainWrite s a v
  else if a < 0x20C000 then
    allotWriteOp s ((a - 0x208000) / 0x80) (a % 0x80 / 8) (a % 8 == 4) v
  else s

/-- A register of the SYN block (R265, R272, R273). -/
def writeSyn (s : State) (a : Nat) (v : W32) : State :=
  if a = 0x400000 then synSelOp s v
  else if a = 0x40080C then synDumpOp s v
  else if 0x400200 ≤ a ∧ a < 0x400300 then
    (if a % 16 = 0 then bwCfgOp s ((a - 0x400200) / 16) false v
     else if a % 16 = 4 then bwCfgOp s ((a - 0x400200) / 16) true v else s)
  else plainWrite s a v

/-- A register of the LNK block (R337, R339). -/
def writeLnk (s : State) (a : Nat) (v : W32) : State :=
  if a = 0x508004 then routeSelOp s v.toNat
  else if a % 0x10000 = 4 then
    (if bit v.toNat 0 then portFenceOp s ((a - 0x500000) / 0x10000) else portUnfenceOp s ((a - 0x500000) / 0x10000))
  else plainWrite s a v

/-! ## MON, TRC, MEM -/

/-- MON_FREEZE_CTRL (R360, R361): the fields, then now, then thaw. -/
def writeFreezeCtrl (s : State) (v : W32) : State :=
  let s1 := plainWrite s 0x604800 v
  let s2 : State := { s1 with mon := { s1.mon with fire := false } }
  let s3 := if bit v.toNat 4 then freezeNowOp s2 else s2
  if bit v.toNat 5 then thawOp s3 else s3

/-- A register of the MON block (R355 to R361); the block ignores writes where the Charter does not allow it. -/
def writeMon (s : State) (a : Nat) (v : W32) : State :=
  if !s.charter.dbgMonitors then s
  else if a < 0x604000 ∧ a % 0x100 = 0xC then
    let m := (a - 0x600000) / 0x100
    let x := s.mon.mons.get {} m
    let s1 : State :=
      if bit v.toNat 0 then { s with mon := { s.mon with mons := s.mon.mons.put {} m { x with sat := false } } } else s
    if bit v.toNat 1 then monClearOp s1 m else s1
  else if 0x604000 ≤ a ∧ a < 0x604400 ∧ a % 16 = 4 then monLoOp s ((a - 0x604000) / 16) v
  else if 0x604000 ≤ a ∧ a < 0x604400 ∧ a % 16 = 8 then monHiOp s ((a - 0x604000) / 16) v
  else if a = 0x604400 then { s with mon := { s.mon with ovf := s.mon.ovf &&& ~~~(v.zeroExtend 64) } }
  else if a = 0x604404 then { s with mon := { s.mon with ovf := s.mon.ovf &&& ~~~(v.zeroExtend 64 <<< 32) } }
  else if a = 0x604800 then writeFreezeCtrl s v
  else plainWrite s a v

/-- A register of the TRC block (R362 to R366): the buffer registers are locked while enable is 1. -/
def writeTrc (s : State) (a : Nat) (v : W32) : State :=
  if a = 0x700000 then trcCtrlOp s v
  else if a = 0x700004 then
    { s with trc := { s.trc with error := s.trc.error && !bit v.toNat 2, lostFlag := s.trc.lostFlag && !bit v.toNat 3 } }
  else if 0x700008 ≤ a ∧ a ≤ 0x700010 ∧ rdB s 0x700000 0 then s
  else plainWrite s a v

/-- A register of the MEM block, written by function `f` (R249, R250). -/
def writeMem (s : State) (f a : Nat) (v : W32) : State :=
  if 0x2000800 ≤ a ∧ a < 0x2000900 then embOwnerOp s ((a - 0x2000800) / 4) v
  else if 0x2001000 ≤ a ∧ a < 0x2001800 then
    let k := (a - 0x2001000) / 0x20
    if a % 0x20 = 8 then
      let s1 := plainWrite s a v
      if bit v.toNat 0 then embDumpOp s1 f k else s1
    else if a % 0x20 = 12 then
      s.setSk k { s.sk k with dropped := fld v.toNat 0 16, defaulted := fld v.toNat 16 16 }
    else plainWrite s a v
  else plainWrite s a v

/-! ## A word, and a write -/

/-- A write of the aligned word `v` by function `f` at the register whose canonical address is `a`. -/
def writeCanon (s : State) (f a : Nat) (v : W32) : State :=
  if 0x40000000 ≤ a then writePage s ((a - 0x40000000) / 0x100000) ((a - 0x40000000) % 0x100000) v
  else if 0x2000000 ≤ a then writeMem s f a v
  else if 0x1800000 ≤ a then s
  else if 0x1000000 ≤ a then writeCore s ((a - 0x1000000) / 0x40000) (a % 0x40000) v
  else if 0x800000 ≤ a then
    (if a = 0x800010 then (if bit v.toNat 0 then rasLogOp s else s) else plainWrite s a v)
  else if 0x700000 ≤ a then writeTrc s a v
  else if 0x600000 ≤ a then writeMon s a v
  else if 0x500000 ≤ a then writeLnk s a v
  else if 0x400000 ≤ a then writeSyn s a v
  else if 0x300000 ≤ a then s
  else if 0x200000 ≤ a then writeMmu s a v
  else if a = 0x20200 then
    (if bit v.toNat 0 then snapRequestOp s else s)
  else plainWrite s a v

/-- A write of the aligned word `v` at offset `off` of function `f`'s BAR0 (R370 to R373). -/
def writeReg (s : State) (f off : Nat) (v : W32) : State :=
  match writeAddr s f off with
  | some a => writeCanon s f a v
  | none => s

/-- Little-endian word of the first four bytes. -/
def word32 (b : List Byte) : W32 := BitVec.ofNat 32 (at_ b 0 4)

/-- The queue whose doorbell an aligned 8-byte write at offset `off` reaches (R282, R370). -/
def doorbellAt (f off n : Nat) : Option Nat :=
  let p := if f = 0 then off - 0x40000 else off
  if n = 8 ∧ off % 8 = 0 ∧ (f ≠ 0 ∨ 0x40000 ≤ off) ∧ 0x1000 ≤ p ∧ p < 0x1200 then some ((p - 0x1000) / 8) else none

/-- A write of `bytes` at offset `off` of function `f`'s BAR0: each word that it covers completely, in ascending order
(R370). -/
def regWrite (s : State) (f off : Nat) (bytes : List Byte) : State :=
  match doorbellAt f off bytes.length with
  | some q => doorbellOp s f q (some (word32 bytes)) (some (word32 (bytes.drop 4)))
  | none =>
    let a0 := (off + 3) / 4 * 4
    upTo ((off + bytes.length - a0) / 4) s (fun t i => writeReg t f (a0 + 4 * i) (word32 (bytes.drop (a0 - off + 4 * i))))

/-- REGISTER_WRITE (R9, R370). -/
def execRegisterWrite (f : Fn) (off : Nat) (bytes : List Byte) (s : State) : Out :=
  if 1 ≤ bytes.length ∧ off + bytes.length ≤ 0x4000000 then done s (regWrite s f off bytes)
  else bad "REGISTER_WRITE"

end Sys2Proof.Machine
end

