-- ==== Sys2Proof/Machine/Sideband.lean ====
section
/-! DEFINITION. The SMBus sideband bridge to the flash (R52 to R55) and the drive of the outputs (R388, R391). -/

namespace Sys2Proof.Machine

/-- The bridge answers: from CHARTER_LOAD until PWRGOOD falls or FATAL_N asserts (R52). -/
def sbAnswers (s : State) : Bool := s.boot.dev != .off && s.boot.dev != .strap && s.boot.fatal.isNone

/-- The loader is active (R53). -/
def loadActive (s : State) : Bool := s.boot.dev == .charterLoad

/-- A transaction that is not acknowledged: no effect (R52). -/
def sbNack (s : State) : State := { s with sb := { s.sb with ack := false, reply := [] } }

/-- An acknowledged transaction's outcome (R52): from now on last_error and refused report on this command. -/
def sbAck (s : State) (refused error : Bool) (reply : List Byte) : State :=
  { s with sb := { s.sb with ack := true, refused := refused, lastError := error, opLast := false, reply := reply } }

/-- An acknowledged command that starts the operation `op` on the flash (R52): its end reports on this command. -/
def sbStart (s : State) (op : Nat × List Byte ⊕ Nat × Nat) : State :=
  let t := sbAck s false false []
  { t with sb := { t.sb with busy := true, op := some op, opLast := true } }

/-- Runs an acknowledged command other than FLASH_STATUS and DEVICE_STATE: while the loader is active it is refused
(R53). -/
def sbRun (pec : Bool) (s : State) (f : State → State) : Out :=
  if !sbAnswers s || !pec then doneBoot s (sbNack s)
  else if loadActive s then doneBoot s (sbAck s true false [])
  else doneBoot s (f s)

/-- Bytes `a` to `a+n-1`, which may wrap at the end of the flash, touch the slot whose copy was selected, and no
FLASH_UNLOCK lifted the refusal (R54). -/
def slotRefused (s : State) (a n : Nat) : Bool :=
  !s.sb.unlocked && match s.boot.selected with
    | none => false
    | some k => (a < slotBase k + 0x400000 && slotBase k < a + n)
        || (a < slotBase k + 0x4400000 && slotBase k + 0x4000000 < a + n)

/-- FLASH_ADDR (R52). A value above 0x03FF_FFFF is reported in last_error. -/
def execFlashAddr (pec : Bool) (addr : W32) (s : State) : Out :=
  sbRun pec s (fun t =>
    if addr.toNat < 0x4000000 then sbAck { t with sb := { t.sb with addr := addr } } false false []
    else sbAck t false true [])

/-- FLASH_WRITE (R52, R54): starts a program operation and advances the address. -/
def execFlashWrite (pec : Bool) (bytes : List Byte) (s : State) : Out :=
  if bytes.length = 0 ∨ bytes.length > 32 then bad "FLASH_WRITE"
  else sbRun pec s (fun t =>
    if slotRefused t t.sb.addr.toNat bytes.length then sbAck t true false []
    else if t.sb.busy then sbAck t false true []
    else sbStart { t with sb := { t.sb with addr := BitVec.ofNat 32 (flashMod (t.sb.addr.toNat + bytes.length)) } }
          (.inl (t.sb.addr.toNat, bytes)))

/-- FLASH_READ (R52): 32 bytes. DESIGN CHOICE (log entry 10): while an operation runs, the flash returns no stored
bytes, they are free; the command sets last_error and advances the address all the same. -/
def execFlashRead (pec : Bool) (s : State) : Out :=
  sbRun pec s (fun t =>
    let a := t.sb.addr.toNat
    let r := (List.range 32).map (fun i =>
      if t.sb.busy then Config.undefByte t.freeIdx i else flashByte t.flash (flashMod (a + i)))
    sbAck { t with sb := { t.sb with addr := BitVec.ofNat 32 (flashMod (a + 32)) } } false t.sb.busy r)

/-- Starts an erase of the block of `sz` bytes that holds the bridge address (R52, R54). -/
def sbErase (sz : Nat) (t : State) : State :=
  let a := t.sb.addr.toNat / sz * sz
  if slotRefused t a sz then sbAck t true false []
  else if t.sb.busy then sbAck t false true []
  else sbStart t (.inr (a, sz))

/-- FLASH_ERASE_4K (R52, R54). -/
def execFlashErase4k (pec : Bool) (s : State) : Out := sbRun pec s (sbErase 0x1000)

/-- FLASH_ERASE_64K (R52, R54). -/
def execFlashErase64k (pec : Bool) (s : State) : Out := sbRun pec s (sbErase 0x10000)

/-- The FLASH_STATUS byte (R52). -/
def flashStatusByte (s : State) : Byte :=
  BitVec.ofNat 8 ((if s.sb.busy then 1 else 0) + (if s.sb.lastError then 2 else 0) + (if s.sb.refused then 4 else 0)
    + (if loadActive s then 8 else 0) + (if s.sb.unlocked then 16 else 0))

/-- FLASH_STATUS (R52). -/
def execFlashStatus (pec : Bool) (s : State) : Out :=
  if !sbAnswers s || !pec then doneBoot s (sbNack s)
  else doneBoot s { s with sb := { s.sb with ack := true, reply := [flashStatusByte s] } }

/-- FLASH_UNLOCK (R52, R54). DEDUCED (log entry 111): where no copy was selected there is no other slot, and R54's
"otherwise" applies: the command sets refused and has no effect. -/
def execFlashUnlock (pec : Bool) (v : Byte) (s : State) : Out :=
  sbRun pec s (fun t =>
    if v ≠ 0x5A then sbAck t false false []
    else
      let otherOk := match t.boot.selected with
        | none => false
        | some .a => t.boot.copyB.valid
        | some .b => t.boot.copyA.valid
      if otherOk then sbAck { t with sb := { t.sb with unlocked := true } } false false []
      else sbAck t true false [])

/-- CHIP_RESET (R55). -/
def execChipReset (pec : Bool) (v : Byte) (s : State) : Out :=
  sbRun pec s (fun t =>
    if v = 0xA5 then
      sbAck { t with boot := { t.boot with resetReq := true, reqAt := if t.boot.resetReq then t.boot.reqAt else t.time } }
        false false []
    else sbAck t false false [])

/-- CHR_STATUS.state (02, Registers); OFF has no code and does not answer. -/
def devCode : DevState → Nat
  | .off => 0 | .strap => 1 | .charterLoad => 2 | .selftest => 3 | .plantArm => 4 | .ready => 5 | .limp => 6

/-- DEVICE_STATE (R52). -/
def execDeviceState (pec : Bool) (s : State) : Out :=
  if !sbAnswers s || !pec then doneBoot s (sbNack s)
  else doneBoot s { s with sb := { s.sb with ack := true, reply := [BitVec.ofNat 8 (devCode s.boot.dev)] } }

/-- The command codes R52 lists. -/
def sbCodes : List Byte := [0x10, 0x11, 0x12, 0x13, 0x14, 0x15, 0x16, 0x20, 0x21]

/-- SIDEBAND_UNKNOWN_COMMAND (R52): a code the table does not list is not acknowledged. -/
def execSidebandUnknownCommand (code : Byte) (s : State) : Out :=
  if sbCodes.contains code then bad "SIDEBAND_UNKNOWN_COMMAND" else doneBoot s (sbNack s)

/-- FLASH_OPERATION_DONE (R52): the operation ends and busy clears. One that failed leaves a free part of its bytes
changed, and sets last_error where the command that started it is still the one that last_error reports on. -/
def execFlashOperationDone (ok : Bool) (s : State) : Out :=
  match s.sb.op with
  | none => doneFlash s s
  | some op =>
    doneFlash s { s with flash := flashApply s.freeIdx ok s.flash op
                         sb := { s.sb with busy := false, op := none, opLast := false,
                                           lastError := s.sb.lastError || (s.sb.opLast && !ok) } }

/-- RESET_TAKEN (R55, R49): the chip resets, drops the link and restarts at STRAP. -/
def execResetTaken (s : State) : Out :=
  if s.boot.resetReq ∧ s.boot.fatal.isNone then doneBoot s (chipReset s .sideband) else doneBoot s s

/-! ## Outputs (R388, R391) -/

/-- The plant's interfaces are in use: from PLANT_ARM on, until FATAL_N (R388, R391). -/
def plantPins (s : State) : Bool :=
  (s.boot.dev == .plantArm || s.boot.dev == .ready || s.boot.dev == .limp) && s.boot.fatal.isNone

/-- The drive of an output (R388, R391). The SPI pins serve the loader and the bridge's operations; LIMP uses no I3C,
PMBus or AVSBus (R51); FATAL_N is open-drain; TDO is driven only while shifting, which no command of the block is. -/
def pinOut (s : State) : OutPin → PinDrive
  | .pumpPwm => s.boot.pumpPin
  | .valvePwm => s.boot.valvePin
  | .pcieTx => if s.boot.dev ≠ .off ∧ !s.boot.perst then .active else .hiz
  | .spi => if s.boot.fatal.isNone ∧ (s.boot.dev = .charterLoad ∨ (sbAnswers s ∧ s.sb.busy)) then .active else .hiz
  | .sideband => if sbAnswers s then .active else .hiz
  | .resLink => if plantPins s ∧ s.gov.started then .active else .hiz
  | .i3c | .pmbus | .avsbus => if plantPins s ∧ !s.charter.isLimp then .active else .hiz
  | .garkaTx g => if (s.port g).st = .training ∨ (s.port g).st = .up then .active else .hiz
  | .fatalN => if s.boot.fatal.isSome then .low else .hiz
  | .tdo => .hiz

end Sys2Proof.Machine
end

