-- ==== Sys2Proof/Machine/Dispatch.lean ====
section
/-! DEFINITION. One arm per command: a direct call of its meaning. -/

namespace Sys2Proof.Machine

def exec (i : Instr) (s : State) : Host.Outcome State Fault Refusal :=
  match i with
  | .pwrgoodRise st => Sys2Proof.Machine.execPwrgoodRise st s
  | .pwrgoodFall => Sys2Proof.Machine.execPwrgoodFall s
  | .perstAssert => Sys2Proof.Machine.execPerstAssert s
  | .perstDeassert st => Sys2Proof.Machine.execPerstDeassert st s
  | .fatalN cause => Sys2Proof.Machine.execFatalN cause s
  | .lrefLoss => Sys2Proof.Machine.execLrefLoss s
  | .strapComplete => Sys2Proof.Machine.execStrapComplete s
  | .sfdpDiscoveryDone sf => Sys2Proof.Machine.execSfdpDiscoveryDone sf s
  | .copyReadDone k => Sys2Proof.Machine.execCopyReadDone k s
  | .signatureCheckDone => Sys2Proof.Machine.execSignatureCheckDone s
  | .charterLoadDone => Sys2Proof.Machine.execCharterLoadDone s
  | .charterLoadTimeout => Sys2Proof.Machine.execCharterLoadTimeout s
  | .sramClearDone => Sys2Proof.Machine.execSramClearDone s
  | .hbmTrainingDone trained => Sys2Proof.Machine.execHbmTrainingDone trained s
  | .pumpTachWindowExpiry => Sys2Proof.Machine.execPumpTachWindowExpiry s
  | .plantArmDone conv vCode => Sys2Proof.Machine.execPlantArmDone conv vCode s
  | .configRetry => Sys2Proof.Machine.execConfigRetry s
  | .flashAddr pec addr => Sys2Proof.Machine.execFlashAddr pec addr s
  | .flashWrite pec bytes => Sys2Proof.Machine.execFlashWrite pec bytes s
  | .flashRead pec => Sys2Proof.Machine.execFlashRead pec s
  | .flashErase4k pec => Sys2Proof.Machine.execFlashErase4k pec s
  | .flashErase64k pec => Sys2Proof.Machine.execFlashErase64k pec s
  | .flashStatus pec => Sys2Proof.Machine.execFlashStatus pec s
  | .flashUnlock pec v => Sys2Proof.Machine.execFlashUnlock pec v s
  | .chipReset pec v => Sys2Proof.Machine.execChipReset pec v s
  | .deviceState pec => Sys2Proof.Machine.execDeviceState pec s
  | .sidebandUnknownCommand code => Sys2Proof.Machine.execSidebandUnknownCommand code s
  | .flashOperationDone ok => Sys2Proof.Machine.execFlashOperationDone ok s
  | .resetTaken => Sys2Proof.Machine.execResetTaken s
  | .governorTick inp => Sys2Proof.Machine.execGovernorTick inp s
  | .epochEnd => Sys2Proof.Machine.execEpochEnd s
  | .carryRollover => Sys2Proof.Machine.execCarryRollover s
  | .ledgerWrap => Sys2Proof.Machine.execLedgerWrap s
  | .telemetryWindowEnd tel => Sys2Proof.Machine.execTelemetryWindowEnd tel s
  | .comparatorDivergence at_ a b => Sys2Proof.Machine.execComparatorDivergence at_ a b s
  | .latentDivergence ds => Sys2Proof.Machine.execLatentDivergence ds s
  | .resyncHalfFrame => Sys2Proof.Machine.execResyncHalfFrame s
  | .resyncCopyDone => Sys2Proof.Machine.execResyncCopyDone s
  | .resyncComplete => Sys2Proof.Machine.execResyncComplete s
  | .heartbeatInject g => Sys2Proof.Machine.execHeartbeatInject g s
  | .heartbeatFlagged g => Sys2Proof.Machine.execHeartbeatFlagged g s
  | .heartbeatDeadline g => Sys2Proof.Machine.execHeartbeatDeadline g s
  | .trvUpset fld c0 c1 c2 => Sys2Proof.Machine.execTrvUpset fld c0 c1 c2 s
  | .parityScan hits => Sys2Proof.Machine.execParityScan hits s
  | .parityRepair addr => Sys2Proof.Machine.execParityRepair addr s
  | .govSnapRequest => Sys2Proof.Machine.execGovSnapRequest s
  | .govSnapCapture => Sys2Proof.Machine.execGovSnapCapture s
  | .clampRelease => Sys2Proof.Machine.execClampRelease s
  | .clampKStep => Sys2Proof.Machine.execClampKStep s
  | .reservoirLoop => Sys2Proof.Machine.execReservoirLoop s
  | .reconcileDue => Sys2Proof.Machine.execReconcileDue s
  | .reconcileSkip => Sys2Proof.Machine.execReconcileSkip s
  | .pumpLoop rpm => Sys2Proof.Machine.execPumpLoop rpm s
  | .valveLoop => Sys2Proof.Machine.execValveLoop s
  | .voltageLoop n slack ack => Sys2Proof.Machine.execVoltageLoop n slack ack s
  | .sensorPoll rd => Sys2Proof.Machine.execSensorPoll rd s
  | .droopStretch c => Sys2Proof.Machine.execDroopStretch c s
  | .droopRelease c => Sys2Proof.Machine.execDroopRelease c s
  | .junctionRead rd => Sys2Proof.Machine.execJunctionRead rd s
  | .junctionCeilingStep c => Sys2Proof.Machine.execJunctionCeilingStep c s
  | .inletOver => Sys2Proof.Machine.execInletOver s
  | .inletOverClear => Sys2Proof.Machine.execInletOverClear s
  | .sensorLost l => Sys2Proof.Machine.execSensorLost l s
  | .flowGate pulses => Sys2Proof.Machine.execFlowGate pulses s
  | .lossResponseEnd l => Sys2Proof.Machine.execLossResponseEnd l s
  | .clauseFetch c e => Sys2Proof.Machine.execClauseFetch c e s
  | .clauseIssue c e => Sys2Proof.Machine.execClauseIssue c e s
  | .resultLand c e => Sys2Proof.Machine.execResultLand c e s
  | .transferComplete c n => Sys2Proof.Machine.execTransferComplete c n s
  | .streamEnd c e => Sys2Proof.Machine.execStreamEnd c e s
  | .jmp c e => Sys2Proof.Machine.execJmp c e s
  | .brz c e => Sys2Proof.Machine.execBrz c e s
  | .brnz c e => Sys2Proof.Machine.execBrnz c e s
  | .loop c e => Sys2Proof.Machine.execLoop c e s
  | .setlc c e => Sys2Proof.Machine.execSetlc c e s
  | .sig c e => Sys2Proof.Machine.execSig c e s
  | .wait c e => Sys2Proof.Machine.execWait c e s
  | .bwArrive c e => Sys2Proof.Machine.execBwArrive c e s
  | .bwWait c e => Sys2Proof.Machine.execBwWait c e s
  | .gbArrive c e => Sys2Proof.Machine.execGbArrive c e s
  | .gbWait c e => Sys2Proof.Machine.execGbWait c e s
  | .gbTrackerFreed p => Sys2Proof.Machine.execGbTrackerFreed p s
  | .agLin c e => Sys2Proof.Machine.execAgLin c e s
  | .agNoun c e => Sys2Proof.Machine.execAgNoun c e s
  | .agIdx c e => Sys2Proof.Machine.execAgIdx c e s
  | .agStep0 c e => Sys2Proof.Machine.execAgStep0 c e s
  | .agStep1 c e => Sys2Proof.Machine.execAgStep1 c e s
  | .agAdd c e => Sys2Proof.Machine.execAgAdd c e s
  | .agReset c e => Sys2Proof.Machine.execAgReset c e s
  | .ldA c => Sys2Proof.Machine.execLdA c s
  | .ldB c => Sys2Proof.Machine.execLdB c s
  | .ldRow c => Sys2Proof.Machine.execLdRow c s
  | .mma c => Sys2Proof.Machine.execMma c s
  | .mmaAcc c => Sys2Proof.Machine.execMmaAcc c s
  | .shift c => Sys2Proof.Machine.execShift c s
  | .zero c => Sys2Proof.Machine.execZero c s
  | .drain c => Sys2Proof.Machine.execDrain c s
  | .drainZ c => Sys2Proof.Machine.execDrainZ c s
  | .copy c => Sys2Proof.Machine.execCopy c s
  | .reshape c => Sys2Proof.Machine.execReshape c s
  | .convert c => Sys2Proof.Machine.execConvert c s
  | .gather c => Sys2Proof.Machine.execGather c s
  | .scatter c => Sys2Proof.Machine.execScatter c s
  | .embedPool c => Sys2Proof.Machine.execEmbedPool c s
  | .embedGather c => Sys2Proof.Machine.execEmbedGather c s
  | .linkPut c => Sys2Proof.Machine.execLinkPut c s
  | .linkGet c => Sys2Proof.Machine.execLinkGet c s
  | .add c e => Sys2Proof.Machine.execAdd c e s
  | .sub c e => Sys2Proof.Machine.execSub c e s
  | .and c e => Sys2Proof.Machine.execAnd c e s
  | .or c e => Sys2Proof.Machine.execOr c e s
  | .xor c e => Sys2Proof.Machine.execXor c e s
  | .shl c e => Sys2Proof.Machine.execShl c e s
  | .shr c e => Sys2Proof.Machine.execShr c e s
  | .mul c e => Sys2Proof.Machine.execMul c e s
  | .movi c e => Sys2Proof.Machine.execMovi c e s
  | .movhi c e => Sys2Proof.Machine.execMovhi c e s
  | .lds c e => Sys2Proof.Machine.execLds c e s
  | .sts c e => Sys2Proof.Machine.execSts c e s
  | .rdag c e => Sys2Proof.Machine.execRdag c e s
  | .rdtime c e => Sys2Proof.Machine.execRdtime c e s
  | .hazardResume c e => Sys2Proof.Machine.execHazardResume c e s
  | .hazardKill c e => Sys2Proof.Machine.execHazardKill c e s
  | .stopPointReached c e => Sys2Proof.Machine.execStopPointReached c e s
  | .stopTimeout c e => Sys2Proof.Machine.execStopTimeout c e s
  | .preemptCopyDone c e => Sys2Proof.Machine.execPreemptCopyDone c e s
  | .bufferWriteOutDone c => Sys2Proof.Machine.execBufferWriteOutDone c s
  | .streamRestore c e => Sys2Proof.Machine.execStreamRestore c e s
  | .gleanWindowClose c => Sys2Proof.Machine.execGleanWindowClose c s
  | .gleanPassStart c => Sys2Proof.Machine.execGleanPassStart c s
  | .gleanRequestDone c => Sys2Proof.Machine.execGleanRequestDone c s
  | .blockLaunch c => Sys2Proof.Machine.execBlockLaunch c s
  | .blockEnd c b => Sys2Proof.Machine.execBlockEnd c b s
  | .iadd c p w => Sys2Proof.Machine.execIadd c p w s
  | .isub c p w => Sys2Proof.Machine.execIsub c p w s
  | .imul c p w => Sys2Proof.Machine.execImul c p w s
  | .imulhi c p w => Sys2Proof.Machine.execImulhi c p w s
  | .imad c p w => Sys2Proof.Machine.execImad c p w s
  | .imin c p w => Sys2Proof.Machine.execImin c p w s
  | .imax c p w => Sys2Proof.Machine.execImax c p w s
  | .teAnd c p w => Sys2Proof.Machine.execTeAnd c p w s
  | .teOr c p w => Sys2Proof.Machine.execTeOr c p w s
  | .teXor c p w => Sys2Proof.Machine.execTeXor c p w s
  | .teShl c p w => Sys2Proof.Machine.execTeShl c p w s
  | .teShr c p w => Sys2Proof.Machine.execTeShr c p w s
  | .popc c p w => Sys2Proof.Machine.execPopc c p w s
  | .clz c p w => Sys2Proof.Machine.execClz c p w s
  | .brev c p w => Sys2Proof.Machine.execBrev c p w s
  | .sel c p w => Sys2Proof.Machine.execSel c p w s
  | .mov c p w => Sys2Proof.Machine.execMov c p w s
  | .teMovi c p w => Sys2Proof.Machine.execTeMovi c p w s
  | .icmp c p w => Sys2Proof.Machine.execIcmp c p w s
  | .teMovhi c p w => Sys2Proof.Machine.execTeMovhi c p w s
  | .fadd c p w => Sys2Proof.Machine.execFadd c p w s
  | .fsub c p w => Sys2Proof.Machine.execFsub c p w s
  | .fmul c p w => Sys2Proof.Machine.execFmul c p w s
  | .ffma c p w => Sys2Proof.Machine.execFfma c p w s
  | .fmin c p w => Sys2Proof.Machine.execFmin c p w s
  | .fmax c p w => Sys2Proof.Machine.execFmax c p w s
  | .fcmp c p w => Sys2Proof.Machine.execFcmp c p w s
  | .fdiv c p w => Sys2Proof.Machine.execFdiv c p w s
  | .fsqrt c p w => Sys2Proof.Machine.execFsqrt c p w s
  | .frcp c p w => Sys2Proof.Machine.execFrcp c p w s
  | .frsq c p w => Sys2Proof.Machine.execFrsq c p w s
  | .fexp2 c p w => Sys2Proof.Machine.execFexp2 c p w s
  | .flog2 c p w => Sys2Proof.Machine.execFlog2 c p w s
  | .fsin c p w => Sys2Proof.Machine.execFsin c p w s
  | .fcos c p w => Sys2Proof.Machine.execFcos c p w s
  | .cvt c p w => Sys2Proof.Machine.execCvt c p w s
  | .pcomb c p w => Sys2Proof.Machine.execPcomb c p w s
  | .lpoll c p w => Sys2Proof.Machine.execLpoll c p w s
  | .xlane c p w => Sys2Proof.Machine.execXlane c p w s
  | .v2u c p w => Sys2Proof.Machine.execV2u c p w s
  | .rdsr c p w => Sys2Proof.Machine.execRdsr c p w s
  | .ld c p w => Sys2Proof.Machine.execLd c p w s
  | .l1Fill c n => Sys2Proof.Machine.execL1Fill c n s
  | .st c p w => Sys2Proof.Machine.execSt c p w s
  | .atom c p w => Sys2Proof.Machine.execAtom c p w s
  | .fence c p w => Sys2Proof.Machine.execFence c p w s
  | .bra c p w => Sys2Proof.Machine.execBra c p w s
  | .call c p w => Sys2Proof.Machine.execCall c p w s
  | .brx c p w => Sys2Proof.Machine.execBrx c p w s
  | .exit c p w => Sys2Proof.Machine.execExit c p w s
  | .teNop c p w => Sys2Proof.Machine.execTeNop c p w s
  | .trap c p w => Sys2Proof.Machine.execTrap c p w s
  | .brk c p w => Sys2Proof.Machine.execBrk c p w s
  | .barBlock c p w => Sys2Proof.Machine.execBarBlock c p w s
  | .cjSig c p w => Sys2Proof.Machine.execCjSig c p w s
  | .cjWait c p w => Sys2Proof.Machine.execCjWait c p w s
  | .cjRead c p w => Sys2Proof.Machine.execCjRead c p w s
  | .teBwArrive c p w => Sys2Proof.Machine.execTeBwArrive c p w s
  | .teBwWait c p w => Sys2Proof.Machine.execTeBwWait c p w s
  | .teGbArrive c p w => Sys2Proof.Machine.execTeGbArrive c p w s
  | .teGbWait c p w => Sys2Proof.Machine.execTeGbWait c p w s
  | .replay c => Sys2Proof.Machine.execReplay c s
  | .punnetKill c => Sys2Proof.Machine.execPunnetKill c s
  | .u63HiWrite c v => Sys2Proof.Machine.execU63HiWrite c v s
  | .u63LoWrite c v => Sys2Proof.Machine.execU63LoWrite c v s
  | .l1InvalidateOp c => Sys2Proof.Machine.execL1InvalidateOp c s
  | .l1CleanOp c => Sys2Proof.Machine.execL1CleanOp c s
  | .l1CleanInvalidateOp c => Sys2Proof.Machine.execL1CleanInvalidateOp c s
  | .l1MaintDone c => Sys2Proof.Machine.execL1MaintDone c s
  | .l1EnableWrite c v => Sys2Proof.Machine.execL1EnableWrite c v s
  | .mmuRootWrite f hi v => Sys2Proof.Machine.execMmuRootWrite f hi v s
  | .allotWrite f k hi v => Sys2Proof.Machine.execAllotWrite f k hi v s
  | .mmuInvalidate f v => Sys2Proof.Machine.execMmuInvalidate f v s
  | .invalidateDone f => Sys2Proof.Machine.execInvalidateDone f s
  | .patrolScrub a r => Sys2Proof.Machine.execPatrolScrub a r s
  | .hostReadError r e => Sys2Proof.Machine.execHostReadError r e s
  | .embDumpStart f k => Sys2Proof.Machine.execEmbDumpStart f k s
  | .embDumpDone k => Sys2Proof.Machine.execEmbDumpDone k s
  | .embSlotOwnerWrite k v => Sys2Proof.Machine.execEmbSlotOwnerWrite k v s
  | .signalArrival n => Sys2Proof.Machine.execSignalArrival n s
  | .contextRestore ctx => Sys2Proof.Machine.execContextRestore ctx s
  | .contextSave slot => Sys2Proof.Machine.execContextSave slot s
  | .bwCfgWrite wire isMask v => Sys2Proof.Machine.execBwCfgWrite wire isMask v s
  | .synSelCapture v => Sys2Proof.Machine.execSynSelCapture v s
  | .synDumpStart v => Sys2Proof.Machine.execSynDumpStart v s
  | .synDumpDone => Sys2Proof.Machine.execSynDumpDone s
  | .queueEnable f q v => Sys2Proof.Machine.execQueueEnable f q v s
  | .queueDisable f q v => Sys2Proof.Machine.execQueueDisable f q v s
  | .doorbell f q tail head => Sys2Proof.Machine.execDoorbell f q tail head s
  | .commandConsume f q words => Sys2Proof.Machine.execCommandConsume f q words s
  | .run f q => Sys2Proof.Machine.execRun f q s
  | .teLaunch f q => Sys2Proof.Machine.execTeLaunch f q s
  | .glean f q => Sys2Proof.Machine.execGlean f q s
  | .nop f q => Sys2Proof.Machine.execNop f q s
  | .ctxCreate f q => Sys2Proof.Machine.execCtxCreate f q s
  | .ctxDestroy f q => Sys2Proof.Machine.execCtxDestroy f q s
  | .ctxReset f q => Sys2Proof.Machine.execCtxReset f q s
  | .commandCommit f q seq => Sys2Proof.Machine.execCommandCommit f q seq s
  | .abort f q v => Sys2Proof.Machine.execAbort f q v s
  | .ptmDialogue master => Sys2Proof.Machine.execPtmDialogue master s
  | .flrVf f => Sys2Proof.Machine.execFlrVf f s
  | .flrSteward => Sys2Proof.Machine.execFlrSteward s
  | .vfEnableClear => Sys2Proof.Machine.execVfEnableClear s
  | .sliceExpiry p => Sys2Proof.Machine.execSliceExpiry p s
  | .handoverComplete p => Sys2Proof.Machine.execHandoverComplete p s
  | .dataFlitReceive g bytes fecOk => Sys2Proof.Machine.execDataFlitReceive g bytes fecOk s
  | .idleFlit g bytes fecOk => Sys2Proof.Machine.execIdleFlit g bytes fecOk s
  | .stubReceive g bytes fecOk => Sys2Proof.Machine.execStubReceive g bytes fecOk s
  | .putArrival g vc => Sys2Proof.Machine.execPutArrival g vc s
  | .getReqArrival g vc => Sys2Proof.Machine.execGetReqArrival g vc s
  | .getRespArrival g vc => Sys2Proof.Machine.execGetRespArrival g vc s
  | .getTimeout c n => Sys2Proof.Machine.execGetTimeout c n s
  | .retryTimeout g => Sys2Proof.Machine.execRetryTimeout g s
  | .creditSync g held => Sys2Proof.Machine.execCreditSync g held s
  | .ident g inp => Sys2Proof.Machine.execIdent g inp s
  | .fenceControlFlit g => Sys2Proof.Machine.execFenceControlFlit g s
  | .chipFailed g failed reporter => Sys2Proof.Machine.execChipFailed g failed reporter s
  | .portDown g => Sys2Proof.Machine.execPortDown g s
  | .portTrainingDone g => Sys2Proof.Machine.execPortTrainingDone g s
  | .partnerFailed g => Sys2Proof.Machine.execPartnerFailed g s
  | .portFence g => Sys2Proof.Machine.execPortFence g s
  | .fenceDrainEnd g => Sys2Proof.Machine.execFenceDrainEnd g s
  | .portUnfence g => Sys2Proof.Machine.execPortUnfence g s
  | .routeSelect v => Sys2Proof.Machine.execRouteSelect v s
  | .laneDegradeCheck g lanes codewords corrected => Sys2Proof.Machine.execLaneDegradeCheck g lanes codewords corrected s
  | .fltPop f => Sys2Proof.Machine.execFltPop f s
  | .rasLogRequest => Sys2Proof.Machine.execRasLogRequest s
  | .rasIrqSend => Sys2Proof.Machine.execRasIrqSend s
  | .monClear m => Sys2Proof.Machine.execMonClear m s
  | .monCntHiWrite n v => Sys2Proof.Machine.execMonCntHiWrite n v s
  | .monCntLoWrite n v => Sys2Proof.Machine.execMonCntLoWrite n v s
  | .freezeTrigger => Sys2Proof.Machine.execFreezeTrigger s
  | .freezeNow => Sys2Proof.Machine.execFreezeNow s
  | .thaw => Sys2Proof.Machine.execThaw s
  | .traceEnable v => Sys2Proof.Machine.execTraceEnable v s
  | .traceDisable v => Sys2Proof.Machine.execTraceDisable v s
  | .traceWrite => Sys2Proof.Machine.execTraceWrite s
  | .registerWrite f off bytes => Sys2Proof.Machine.execRegisterWrite f off bytes s
  | .governorStart => Sys2Proof.Machine.execGovernorStart s
  | .i3cEnumerationDone answered => Sys2Proof.Machine.execI3cEnumerationDone answered s
  | .reservoirAdcSample v inp => Sys2Proof.Machine.execReservoirAdcSample v inp s
  | .memoryRequestComplete c n r => Sys2Proof.Machine.execMemoryRequestComplete c n r s
  | .traceSync c => Sys2Proof.Machine.execTraceSync c s

end Sys2Proof.Machine
end

