-- ==== Sys2Proof/Machine/RegRead.lean ====
section
/-! DEFINITION. What a read of a register returns (the register tables of 02 to 16; R8 to R10, R355, R370 to R374) and
the capability table (R278, R279). No register has a read side effect (no table lists an RC field), so a read is a
function of the state, not a command. RW fields, W1C bits and counters are in the register file; the other fields are
computed here from the state. A reading that is not a whole number of its unit is cut down to one (DESIGN CHOICE). -/

namespace Sys2Proof.Machine

/-- A word from fields (value, low bit, length). -/
def mk (fs : List (Nat × Nat × Nat)) : W32 :=
  BitVec.ofNat 32 ((fs.map (fun x => x.1 % 2 ^ x.2.2 * 2 ^ x.2.1)).sum)

/-- 1 where `b` holds. -/
def b1 (b : Bool) : Nat := if b then 1 else 0

/-- The value of `n`-bit two's complement of `v`. -/
def tw (n : Nat) (v : Int) : Nat := (BitVec.ofInt n v).toNat

/-- Half `h` (0 low, 1 high) of a 64-bit value. -/
def half (h v : Nat) : W32 := BitVec.ofNat 32 (v / 2 ^ (32 * h))

/-- Word `k` of the bytes of a mailbox. -/
def mbxWord (b : List Byte) (k : Nat) : W32 := BitVec.ofNat 32 (at_ b (4 * k) 4)

/-! ## CHR (02) -/

/-- A copy's fail_step (CHR_STATUS): 0xF once the load is over and the copy's checks had not finished. -/
def failStepOf (s : State) (c : CopySt) : Nat :=
  if c.finished then c.failStep
  else if s.boot.dev = .off ∨ s.boot.dev = .strap ∨ s.boot.dev = .charterLoad then 0 else 15

/-- The selected copy. -/
def selCopy (s : State) : CopySt := match s.boot.selected with | some k => s.boot.copy k | none => {}

def readChr (s : State) (o : Nat) : W32 :=
  let b := s.boot
  if o = 0 then
    mk [(if b.dev = .off then 1 else devCode b.dev, 0, 3), (match b.selected with | none => 0 | some .a => 1 | some .b => 2, 3, 2),
        (b1 b.ambiguous, 5, 1), (b1 b.copyA.valid, 6, 1), (b1 b.copyB.valid, 7, 1), (failStepOf s b.copyA, 8, 4),
        (failStepOf s b.copyB, 12, 4), (b1 (b.dev == .limp), 16, 1), (b1 b.shadowLost, 17, 1),
        (b1 (b.armFail && b.dev == .limp), 18, 1), (b1 b.hbmDegraded, 19, 1)]
  else if o = 4 then BitVec.ofNat 32 (keptFld s 0x10004 0 32 (selCopy s).seq.toNat)
  else if o = 8 then (if b.copyA.seen ∧ b.copyA.failStep ≠ 1 ∧ b.copyA.failStep ≠ 2 then b.copyA.seq else 0)
  else if o = 12 then (if b.copyB.seen ∧ b.copyB.failStep ≠ 1 ∧ b.copyB.failStep ≠ 2 then b.copyB.seq else 0)
  else if 0x10 ≤ o ∧ o < 0x40 then
    let d := (selCopy s).digest.toNat
    let byte (j : Nat) : Nat := d / 2 ^ (8 * (47 - j)) % 256
    BitVec.ofNat 32 (keptFld s (0x10000 + o) 0 32
      ((List.range 4).map (fun i => byte (o - 0x10 + i) * 2 ^ (8 * i))).sum)
  else if o = 0x40 then
    mk [(match b.flashMode with | .m111 => 0 | .m114 => 1 | .m144 => 1 | .m118 => 2 | .m188 => 2, 0, 2),
        (if b.straps.fspd.toNat = 3 then 0 else b.straps.fspd.toNat, 2, 2), (b1 b.sfdp.isSome, 4, 1),
        (match b.sfdp with | some x => x.densityMib | none => 0, 8, 8)]
  else if o = 0x44 then mk [(b.bootMs, 0, 16)]
  else if o = 0x48 then mk [(b.hbmTrained.toNat, 0, 8)]
  else if o = 0x4C then
    (match b.cause with | none => 0 | some .powerOn => 1 | some .perst => 2 | some .sideband => 4)
  else 0

/-! ## GOV (03) -/

/-- Loop `n`'s gains are limited (R90). -/
def gainClipped (s : State) (n : Nat) : Bool :=
  s.charter.loaded && (clipGain (gainsOf s n).kp (kpMax n) != (gainsOf s n).kp
    || clipGain (gainsOf s n).ki (kiMax n) != (gainsOf s n).ki)

/-- Channel 0 asserts the clamp: held during a resynchronisation (R75). -/
def clampOut (s : State) : Bool := s.gov.a.clamp || (match s.gov.held with | some h => h.clamp | none => false)

/-- The registers of partition `p` (GOV_PART_*). -/
def readGovPart (s : State) (p k : Nat) : W32 :=
  if s.charter.partCount ≤ p then 0
  else match k with
    | 0 => BitVec.ofNat 32 (budgetOf s p)
    | 1 => BitVec.ofInt 32 ((s.acct p).spent / 65536)
    | 2 => BitVec.ofInt 32 ((s.acct p).carry / 65536)
    | _ => mk [(b1 (gateClosed s p), 0, 1), (b1 (partBusy s p), 1, 1), (rdF s (0x2010C + 16 * p) 16 16, 16, 16)]

def readGov (s : State) (o : Nat) : W32 :=
  let g := s.gov
  if 0x100 ≤ o ∧ o < 0x180 then readGovPart s ((o - 0x100) / 16) (o % 16 / 4)
  else match o with
    | 0x00 => mk [(b1 g.limpPower, 0, 1), (b1 (g.resync != .none), 1, 1), (b1 (g.endDue || g.rollDue), 2, 1), (b1 g.lost, 3, 1),
                  (rdF s 0x20000 4 1, 4, 1), (b1 (clampOut s), 5, 1), (b1 g.lost, 6, 1)]
    | 0x04 => mk [(g.skew.vote, 0, 4)]
    | 0x08 => mk [(g.feedCap.vote, 0, 11)]
    | 0x0C => mk [(capW s, 0, 11), (if s.isUp then chipMhz s else 400, 16, 11)]
    | 0x10 => half 0 (g.work % 2 ^ 48)
    | 0x14 => half 1 (g.work % 2 ^ 48)
    | 0x18 => half 0 (g.feed % 2 ^ 48)
    | 0x1C => half 1 (g.feed % 2 ^ 48)
    | 0x20 => BitVec.ofNat 32 g.epoch
    | 0x24 => BitVec.ofNat 32 ((g.work + 2 ^ 48 - g.epochStart) % 2 ^ 48)
    | 0x28 => half 0 g.epochStart
    | 0x2C => half 1 g.epochStart
    | 0x30 => mk [(keptFld s 0x20030 0 16 s.charter.channelMask.toNat, 0, 16)]
    | 0x34 => BitVec.ofNat 32 (upTo 32 0 (fun n k => if fieldOn s k then n + 2 ^ k else n))
    | 0x38 => BitVec.ofNat 32 (upTo 32 0 (fun n k => if fieldOn s (32 + k) then n + 2 ^ k else n))
    | 0x40 => mk [(rdF s 0x20040 0 16, 0, 16), (g.thisEpochLatent, 16, 5)]
    | 0x4C => mk [(b1 g.aOk, 0, 1), (b1 g.bOk, 1, 1), (g.beats, 16, 16)]
    | 0x50 => g.lastDiverge
    | 0x58 => mk [(g.trim, 0, 16), (b1 g.frozen, 16, 1)]
    | 0x5C => mk [(g.workW, 0, 11), (g.feedW, 16, 11)]
    | 0x60 => BitVec.ofNat 32 g.earlyCount
    | 0x200 => mk [(b1 g.snapValid, 1, 1)]
    | _ => rd s (0x20000 + o)

/-! ## PLT (04) -/

/-- The hottest valid core junction and its core, lowest core first. -/
def hottest (s : State) : Int × Nat :=
  (List.range 32).foldl (fun (b : Int × Nat) c => match s.plt.junction.get (some 0) c with
    | some j => if b.1 < j then (j, c) else b
    | none => b) (0, 0)

/-- The plant's sensors are read (R51, R87). -/
def sensing (s : State) : Bool := s.boot.i3cDone || s.isUp

def readPlt (s : State) (o : Nat) : W32 :=
  let p := s.plt
  let a := s.gov.a
  if 0x40 ≤ o ∧ o < 0x60 then
    let x := p.sensors.get {} ((o - 0x40) / 4)
    mk [(tw 16 x.temp, 0, 16), (b1 x.valid, 16, 1), ((s.charter.sensors.getD ((o - 0x40) / 4) (0, 0)).2, 17, 3)]
  else if 0x80 ≤ o ∧ o < 0xA0 then
    let n := (o - 0x80) / 4
    mk [(tw 8 ((a.trim.get 0 n + 32768) / 65536), 0, 8), (b1 (p.avsOk.get false n), 8, 1),
        (b1 (s.charter.loaded && s.charter.regAddr.getD n 0 == 0), 9, 1)]
  else match o with
    | 0x00 => mk [(b1 (clampOut s), 0, 1), (b1 (decide (0 < a.dLim)), 1, 1), (b1 (decide (a.u < 0)), 2, 1),
                  (rdF s 0x30000 3 1, 3, 1), (b1 p.dueAt.isSome, 4, 1), (b1 p.inletOver, 5, 1),
                  (b1 (lossOn s .feedAdc), 6, 1), (b1 (lossOn s .conv), 7, 1), (flags8 (fun n => n < 5 && gainClipped s n), 8, 5)]
    | 0x0C => mk [((a.pFiltered / oneW).toNat, 0, 11), ((a.target / oneW).toNat, 16, 11)]
    | 0x10 => mk [(p.sensV * 640 / 16384, 0, 16), (tw 16 (p.sensI * 1000 / 8192), 16, 16)]
    | 0x14 => mk [(p.setpoint, 0, 12)]
    | 0x18 => mk [(p.resV * 12800 / 4096, 0, 16), (tw 16 (p.resI * 10000 / 2048), 16, 16)]
    | 0x1C => mk [(p.vFull.toNat, 0, 16), (p.vEmpty.toNat, 16, 16)]
    | 0x20 => BitVec.ofNat 32 (p.coulomb / 65536)
    | 0x24 => BitVec.ofNat 32 (p.eVolt / 65536)
    | 0x28 => mk [(soc16 s * 100 / 65536, 0, 14)]
    | 0x34 => mk [(if s.isUp then (pumpEffect s * 10 / 1048576).toNat else 1000, 0, 10), (p.rpm.toNat, 16, 16)]
    | 0x38 => mk [((a.valveDuty * 10 / 1048576).toNat, 0, 10)]
    | 0x3C => mk [(p.mlMin, 0, 16)]
    | 0x60 => if sensing s then mk [(tw 16 (inletUse s), 0, 16), (b1 ((roleTemps s 1).isEmpty || lossOn s .inletAll), 16, 1)] else 0
    | 0x64 => mk [(match roleTemps s 2 with | [] => 0 | x :: r => tw 16 (r.foldl max x), 0, 16)]
    | 0x68 => if s.charter.loaded then
                mk [(threshold s, 0, 8), (tw 16 (hottest s).1, 8, 16), ((hottest s).2, 24, 5)] else 0
    | 0x6C => BitVec.ofNat 32 (upTo 32 0 (fun n c => if p.jCeil.get 1800 c < 1800 then n + 2 ^ c else n))
    | 0xA0 => mk [(p.lim0.vote, 0, 11), (p.lim1.vote, 16, 11)]
    | 0xA4 => mk [(p.lim2.vote, 0, 11), (p.lim3.vote, 16, 7), (p.lim4.vote, 24, 7)]
    | 0xB0 => mk [(Nat.min (a.excess * 16 / 209715200) 0xFFFFFF, 0, 24)]
    | _ => rd s (0x30000 + o)

/-! ## Function pages (12, 15, 16) and HQ, QS -/

/-- A queue register (12). -/
def readQueueReg (s : State) (f q o : Nat) : W32 :=
  let x := s.queue f q
  match o with
  | 0x14 => mk [(b1 (x.st == .active), 0, 1), (rdF s (qA f q 5) 8 6, 8, 6)]
  | 0x18 => mk [(match x.st with | .disabled => 0 | .active => 1 | .quiescing => 2, 0, 2), (x.error, 4, 4),
                (b1 x.slot.isSome, 8, 1), (b1 x.dbError, 9, 1)]
  | 0x20 => x.nextSeq
  | 0x24 => mk [(x.head, 0, 16), (x.cqTail, 16, 16)]
  | 0x28 => 0
  | 0x2C => mk [(match x.abSt with | .none => 0 | .pending => 1 | .aborted => 2 | .done => 3 | .notFound => 4, 0, 3),
                (b1 x.abRefused, 3, 1)]
  | 0x30 => half 0 x.committed
  | 0x34 => half 1 x.committed
  | _ => if o < 0x20 then rd s (qA f q (o / 4)) else 0

/-- A register at offset `p` of function `f`'s page that is not a view. Doorbells read zero (R374). -/
def readPage (s : State) (f p : Nat) : W32 :=
  let l := s.flt f
  if p < 0x1800 then 0
  else if p = 0x1800 then half 0 s.time
  else if p = 0x1804 then half 1 s.time
  else if 0x10000 ≤ p ∧ p < 0x12000 then readQueueReg s f ((p - 0x10000) / 0x80) (p % 0x80)
  else if p = 0x20004 then mk [(l.recs.length, 0, 7), (b1 l.notified, 7, 1)]
  else if p = 0x2000C then mk [(b1 l.valid, 1, 1), (b1 l.empty, 2, 1)]
  else if 0x20040 ≤ p ∧ p < 0x20080 then mbxWord l.mbx ((p - 0x20040) / 4)
  else rd s (fpA f p)

/-- A register of the HQ globals (12). -/
def readHq (s : State) (a : Nat) : W32 :=
  if 0x40400 ≤ a ∧ a < 0x40600 then mk [(ctxUsed s ((a - 0x40400) / 4), 0, 13)] else rd s a

/-- A queue slot's registers (12). -/
def readQs (s : State) (k o : Nat) : W32 :=
  let x := s.qslot k
  match o with
  | 0 => mk [(x.fn.vote, 0, 7), (b1 x.valid, 7, 1)]
  | 4 => if x.valid then mk [(x.q, 0, 6)] else 0
  | 8 => if x.valid then mk [((s.queue x.fn.vote x.q).cmds.length, 0, 5)] else 0
  | _ => 0

/-! ## SCH and accounting (13) -/

/-- Function `f`'s accounting at offset `o` (R315, R316). -/
def readAcct (s : State) (f o : Nat) : W32 :=
  let x := s.fnS f
  let h := o % 8 / 4
  match o / 8 with
  | 0 => half h x.mxCyc
  | 1 => half h x.txCyc
  | 2 => half h x.teCyc
  | 3 => half h (x.mxLu / 65536)
  | 4 => half h (x.txLu / 65536)
  | 5 => half h (x.teLu / 65536)
  | 6 => half h (tw 64 (x.otherLu / 65536))
  | _ => BitVec.ofNat 32 (if h = 0 then x.slices else x.preempted)

/-- The registers of partition `p` (SCH_PART_*). -/
def readSchPart (s : State) (p o : Nat) : W32 :=
  let x := s.partS p
  if s.charter.partCount ≤ p then 0
  else match o with
    | 0x00 => mk [(x.holder.getD 0, 0, 7), (b1 x.holder.isSome, 7, 1), ((precedence s p).getD 0, 8, 7),
                  (b1 x.outgoing.isSome, 15, 1)]
    | 0x04 => mk [(sliceLen s p, 0, 17)]
    | 0x08 => BitVec.ofInt 32 (max 0 x.used / 65536)
    | 0x0C => BitVec.ofNat 32 x.grants
    | 0x10 => BitVec.ofNat 32 x.takeovers
    | 0x14 => BitVec.ofNat 32 x.preempts
    | _ => 0

def readSch (s : State) (o : Nat) : W32 :=
  if o < 0x100 then readSchPart s (o / 0x20) (o % 0x20)
  else if 0x400 ≤ o ∧ o < 0x800 then
    let f := (o - 0x400) / 8
    let p := (tenant s f).part
    if o % 8 = 0 then BitVec.ofInt 32 ((s.fnS f).deficit / 65536)
    else mk [(b1 (isActive s f), 0, 1), (b1 ((s.partS p).holder == some f), 1, 1),
             (b1 ((List.range 32).any (fun c => (s.core c).saves f)), 2, 1), (b1 (hasWaiting s f), 3, 1), (p, 8, 3)]
  else if o = 0x800 then mk ((List.range 8).map (fun b => (bunchPart s b, 4 * b, 3)))
  else if 0x1000 ≤ o ∧ o < 0x3000 then readAcct s ((o - 0x1000) / 0x40) (o % 0x40)
  else 0

/-! ## MMU, SYN, LNK (09, 11, 14) -/

def readMmu (s : State) (a : Nat) : W32 :=
  if a < 0x208000 ∧ a % 0x100 = 0x10 then
    mk [(rdF s a 0 24, 0, 24), (b1 (s.hq.inv.get none ((a - 0x200000) / 0x100)).isSome, 25, 1)]
  else rd s a

def readSyn (s : State) (o : Nat) : W32 :=
  if 0x100 ≤ o ∧ o < 0x1C0 then
    let x := s.syn.slots.get {} ((o - 0x100) / 4)
    mk [(x.ctx, 0, 12), (slotCode x.st, 12, 2), (x.inbound.length, 14, 7)]
  else if 0x200 ≤ o ∧ o < 0x300 then
    let w := s.wire ((o - 0x200) / 16)
    (match o % 16 / 4 with
     | 0 => mk [(w.ctx.toNat, 0, 12), (b1 w.valid, 12, 1)]
     | 1 => w.mask
     | 2 => w.raised
     | _ => w.gen)
  else if 0x400 ≤ o ∧ o < 0x600 then
    let t := s.syn.trackers.get {} ((o - 0x400) / 8)
    if !t.busy then 0
    else if o % 8 = 0 then mk [(t.ctx, 0, 12), (t.group, 12, 6), (t.part, 18, 3), (1, 31, 1)]
    else (s.group t.ctx t.group).arrived
  else if o = 0x80C then mk [(rdF s 0x40080C 0 32, 0, 32), (b1 s.syn.dumpBusy, 1, 1)]
  else rd s (0x400000 + o)

/-- A register of port `g`'s page (14). -/
def readPort (s : State) (g o : Nat) : W32 :=
  let p := s.port g
  if 0x10 ≤ o ∧ o < 0x20 then mk [(p.avail.getD ((o - 0x10) / 4) 0, 0, 8), (p.heldSlots.getD ((o - 0x10) / 4) 0, 8, 8)]
  else if 0x80 ≤ o ∧ o < 0xA0 then p.lanes.get 0 ((o - 0x80) / 4)
  else match o with
    | 0x00 => mk [(match p.st with | .fenced => 0 | .training => 1 | .up => 2 | .down => 3, 0, 2), (p.cause, 2, 3),
                  (b1 p.degraded, 5, 1), (match p.partner with | some x => x.1.toNat | none => 0, 6, 10),
                  (match p.partner with | some x => x.2.toNat | none => 0, 16, 4), (b1 p.partner.isSome, 20, 1)]
    | 0x20 => BitVec.ofNat 32 p.retries
    | 0x30 => half 0 p.fecCorr
    | 0x34 => half 1 p.fecCorr
    | _ => rd s (lnkA g o)

def readLnk (s : State) (a : Nat) : W32 :=
  let o := a % 0x10000
  if a = 0x508000 then mk [(ownId s, 0, 10), (keptFld s a 10 2 (match s.charter.topo with | some t => t.dims | none => 0), 10, 2)]
  else if a = 0x508004 then mk [(rdF s a 0 2, 0, 2), (tablesPresent s, 4, 4), (rdF s a 8 1, 8, 1)]
  else if o < 0x8000 then readPort s ((a - 0x500000) / 0x10000) o
  else rd s a

/-! ## MON, TRC, RAS (15) -/

/-- A register of the MON block; all read zero where the Charter does not allow it (R355). -/
def readMon (s : State) (a : Nat) : W32 :=
  if !s.charter.dbgMonitors then 0
  else if a < 0x604000 then
    let m := s.mon.mons.get {} ((a - 0x600000) / 0x100)
    let o := a % 0x100
    if 0x20 ≤ o ∧ o < 0xA0 then half (o % 8 / 4) (m.bins.get 0 ((o - 0x20) / 8))
    else (match o with
      | 0x04 => m.min
      | 0x08 => m.max
      | 0x0C => mk [(b1 m.sat, 0, 1)]
      | 0x10 => half 0 m.skip
      | 0x14 => half 1 m.skip
      | _ => rd s a)
  else if a < 0x604400 then
    let k := (a - 0x604000) / 16
    (match a % 16 with
     | 4 => half 0 (s.mon.cnt.get 0 k)
     | 8 => half 1 (s.mon.cnt.get 0 k)
     | _ => rd s a)
  else if a = 0x604400 then half 0 s.mon.ovf.toNat
  else if a = 0x604404 then half 1 s.mon.ovf.toNat
  else if a = 0x604800 then mk [((rd s a).toNat, 0, 8), (b1 s.mon.frozen, 6, 1)]
  else if a = 0x604814 then half 0 s.mon.frTime
  else if a = 0x604818 then half 1 s.mon.frTime
  else if a = 0x60481C then half 0 s.mon.frLedger
  else if a = 0x604820 then half 1 s.mon.frLedger
  else rd s a

def readTrc (s : State) (a : Nat) : W32 :=
  let t := s.trc
  match a - 0x700000 with
  | 0x04 => mk [(b1 t.active, 0, 1), (b1 t.full, 1, 1), (b1 t.error, 2, 1), (b1 t.lostFlag, 3, 1)]
  | 0x14 => mk [(t.write, 0, 29)]
  | 0x18 => BitVec.ofNat 32 t.wraps
  | 0x1C => half 0 t.dropped
  | 0x20 => half 1 t.dropped
  | _ => rd s a

def readRas (s : State) (a : Nat) : W32 :=
  let r := s.ras
  if 0x800020 ≤ a ∧ a < 0x800040 then mbxWord r.mbx ((a - 0x800020) / 4)
  else match a - 0x800000 with
    | 0x08 => BitVec.ofNat 32 r.next
    | 0x10 => mk [(b1 r.valid, 1, 1), (b1 r.gone, 2, 1)]
    | 0x14 => BitVec.ofNat 32 r.overwritten
    | _ => rd s a

/-! ## Core windows (05, 06, 07, 13) -/

/-- A clause engine's registers, relative to its set. -/
def readEng (s : State) (c : Nat) (e : CE) (o : Nat) : W32 :=
  let y := s.eng c e
  let code := match y.st with
    | .idle => 0
    | .parked => 3
    | _ => if y.waiting.isSome || y.gbHeld then 2 else 1
  match o with
  | 0x0 => mk [(code, 0, 2), (b1 (hwOn s c e), 2, 1), (b1 y.stopPending, 3, 1), (y.ctx, 4, 12)]
  | 0x4 => half 0 y.pc
  | 0x8 => mk [(y.pc / 2 ^ 32, 0, 20)]
  | _ => rd s (coreA c (o + match e with | .mx => 0 | .tx => 0x40))

/-- The gleaning window or pass that CORE_GLEAN_STATUS shows: the pass, else the first open window. -/
def glShown (x : Core) : Option GlWin := match x.glPass with | some w => some w | none => x.glean.head?

def readTe (s : State) (c o : Nat) : W32 :=
  let t := s.te c
  let res := (List.range 64).filter (fun p => (s.pun c p).resident)
  let par := (List.range 64).filter (fun p => (s.pun c p).parked)
  let x := s.pun c (selSlot s c)
  match o with
  | 0x200 => mk [(res.length, 0, 7), (par.length, 7, 7), (b1 t.stopPending, 14, 1),
                 (match t.grid with | some g => g.ctx | none => match t.blocks with | k :: _ => k.ctx | [] => 0, 16, 12)]
  | 0x204 => BitVec.ofNat 32 ((par.filter (· < 32)).map (2 ^ ·)).sum
  | 0x208 => BitVec.ofNat 32 ((par.filter (32 ≤ ·)).map (fun p => 2 ^ (p - 32))).sum
  | 0x210 => half 0 x.regs.pc
  | 0x214 => mk [(x.regs.pc / 2 ^ 32, 0, 20)]
  | 0x218 => mk [(x.trap.cause, 0, 8), (b1 x.trap.double, 8, 1), (b1 x.trap.parked, 9, 1), (b1 x.trap.u63Written, 10, 1)]
  | 0x21C => half 0 (x.regs.ug 63).toNat
  | 0x220 => half 1 (x.regs.ug 63).toNat
  | _ => if 0x400 ≤ o ∧ o < 0x600 then mbxWord x.shadow ((o - 0x400) / 4) else rd s (coreA c o)

def readCore (s : State) (c o : Nat) : W32 :=
  let x := s.core c
  if o < 0x40 then readEng s c .mx o
  else if o < 0x80 then readEng s c .tx (o - 0x40)
  else if o = 0x110 then
    mk [(b1 !x.glean.isEmpty, 0, 1), (match glShown x with | some w => w.rows | none => 0, 1, 9), (b1 x.glPass.isSome, 10, 1),
        (match glShown x with | some w => w.ctx | none => 0, 16, 12)]
  else if o = 0x610 then mk [(b1 x.te.maint.busy, 4, 1), (rdF s (coreA c o) 5 1, 5, 1)]
  else if 0x200 ≤ o ∧ o < 0x600 then readTe s c o
  else if o = 0x800 then mk [((x.preUsed + 1023) / 1024, 0, 12)]
  else rd s (coreA c o)

/-! ## MEM (09, 10) -/

def readMem (s : State) (a : Nat) : W32 :=
  if a = 0x2000000 then mk [(trained s, 0, 4), (trained s * 24, 8, 8)]
  else if 0x2001000 ≤ a ∧ a < 0x2001800 then
    let x := s.sk ((a - 0x2001000) / 0x20)
    (match a % 0x20 with
     | 0x08 => mk [(rdF s a 2 2, 2, 2), (b1 x.busy, 1, 1)]
     | 0x0C => mk [(x.dropped, 0, 16), (x.defaulted, 16, 16)]
     | 0x10 => half 0 x.lookups
     | 0x14 => half 1 x.lookups
     | 0x18 => half 0 x.hits
     | 0x1C => half 1 x.hits
     | _ => rd s a)
  else rd s a

/-! ## Capability table (R278, R279) -/

/-- Little-endian bytes. -/
def leB (n v : Nat) : List Byte := (List.range n).map (fun i => BitVec.ofNat 8 (v / 256 ^ i))

/-- An entry: type, length, value. -/
def capEntry (ty : Nat) (v : List Byte) : List Byte := leB 2 ty ++ leB 2 v.length ++ v

def capDevice (s : State) : List Byte :=
  capEntry 1 (leB 2 0x4832 ++ leB 1 0xA1 ++ leB 1 (b1 Config.partW) ++ leB 4 (selCopy s).seq.toNat)

def capFunction (s : State) (f : Nat) : List Byte :=
  let t := tenant s f
  capEntry 2 (leB 1 f ++ leB 1 (if t.enable then t.part else 0) ++ leB 1 (b1 t.enable) ++ leB 1 (b1 (s.boot.dev == .limp))
    ++ leB 2 (if t.enable then t.weight else 0) ++ leB 2 0)

def capClocks : List Byte := capEntry 7 (leB 2 1500 ++ leB 2 1800 ++ leB 1 1 ++ leB 3 0)

/-- A register as it stood when the table was written: its values do not change until a chip reset (R278). -/
def capRd (s : State) (a : Nat) : Nat := ((look s.hq.capRegs a).getD (resetVal a)).toNat

/-- The entries of an enabled function only: PARTITION, MEMORY, QUEUES, CONTEXTS. -/
def capTenant (s : State) (f : Nat) : List Byte :=
  let p := (tenant s f).part
  let mask := ((coresOf s p).map (2 ^ ·)).sum
  let bunches := (((List.range 8).filter (fun b => bunchPart s b == p)).map (2 ^ ·)).sum
  let allots := (((List.range 16).filter (fun k => (capRd s (allotA f k 0)).testBit 0)).map (2 ^ ·)).sum
  capEntry 3 (leB 4 mask ++ leB 1 bunches ++ leB 1 s.charter.partCount ++ leB 2 0)
  ++ capEntry 4 (leB 8 (hbmTop s) ++ leB 2 256 ++ leB 2 16 ++ leB 2 allots ++ leB 2 0)
  ++ capEntry 5 (leB 1 64 ++ leB 1 16 ++ leB 1 16 ++ leB 1 4 ++ leB 2 64 ++ leB 2 0)
  ++ capEntry 6 (leB 2 (fld (capRd s (0x40200 + 4 * f)) 0 13) ++ leB 2 (ctxUsed s f) ++ leB 2 48 ++ leB 2 0 ++ leB 4 2696192
      ++ leB 4 9216)

/-- FABRIC: without LINK_TOPOLOGY every byte but the first two is zero (R279). -/
def capFabric (s : State) : List Byte :=
  capEntry 8 (leB 2 0xFFFF ++ match s.charter.topo with
    | none => leB 18 0
    | some t => leB 2 t.ports.toNat ++ leB 1 t.dims ++ leB 1 0 ++ leB 2 t.sx ++ leB 2 t.sy ++ leB 2 t.sz ++ leB 2 t.x
        ++ leB 2 t.y ++ leB 2 t.z ++ leB 2 0)

/-- The capability table of function `f`, with its end entry; the rest of its 4 KiB is zero. Contexts in use are live
(R278). -/
def capTable (s : State) (f : Nat) : List Byte :=
  capDevice s ++ capFunction s f ++ (if (tenant s f).enable then capTenant s f else []) ++ capClocks
  ++ (if (tenant s f).enable then capFabric s else []) ++ leB 4 0

/-- A word of the capability table; it is written when the device enters READY or LIMP. -/
def readCap (s : State) (f o : Nat) : W32 := if s.isUp then mbxWord (capTable s f) (o / 4) else 0

/-! ## A read -/

/-- The word of the register at canonical address `a`. -/
def readCanon (s : State) (a : Nat) : W32 :=
  if 0x40000000 ≤ a then readPage s ((a - 0x40000000) / 0x100000) ((a - 0x40000000) % 0x100000)
  else if 0x2000000 ≤ a then readMem s a
  else if 0x1800000 ≤ a then 0
  else if 0x1000000 ≤ a then readCore s ((a - 0x1000000) / 0x40000) (a % 0x40000)
  else if 0x900000 ≤ a then 0
  else if 0x800000 ≤ a then readRas s a
  else if 0x700000 ≤ a then readTrc s a
  else if 0x600000 ≤ a then readMon s a
  else if 0x500000 ≤ a then readLnk s a
  else if 0x400000 ≤ a then readSyn s (a - 0x400000)
  else if 0x300000 ≤ a then readSch s (a - 0x300000)
  else if 0x200000 ≤ a then readMmu s a
  else if 0x140000 ≤ a then 0
  else if 0x100000 ≤ a then readQs s ((a - 0x100000) / 0x1000) (a % 0x1000)
  else if 0x40000 ≤ a then readHq s a
  else if 0x30000 ≤ a then readPlt s (a - 0x30000)
  else if 0x20000 ≤ a then readGov s (a - 0x20000)
  else if 0x10000 ≤ a then readChr s (a - 0x10000)
  else if a < 0x1000 then readCap s 0 a
  else 0

/-- A word of function `f`'s page, with its views (R372, R373). -/
def readPageAt (s : State) (f p : Nat) : W32 :=
  if 0x1E000 ≤ p ∧ p < 0x1E800 then
    (if embOwner s ((p - 0x1E000) / 0x20) = some f then readMem s (0x02001000 + (p - 0x1E000)) else 0)
  else if 0x1F000 ≤ p ∧ p < 0x1F080 then readMmu s (0x00200000 + 0x100 * f + (p - 0x1F000))
  else if 0x1F080 ≤ p ∧ p < 0x1F100 then readMmu s (0x00208000 + 0x80 * f + (p - 0x1F080))
  else if 0x30000 ≤ p ∧ p < 0x30040 then readAcct s f (p - 0x30000)
  else readPage s f p

/-- A read of the aligned word at offset `off` of function `f`'s BAR0 (R370 to R374). -/
def readReg (s : State) (f off : Nat) : W32 :=
  if f = 0 then
    (if 0x41000 ≤ off ∧ off < 0x100000 then readPageAt s 0 (off - 0x40000)
     else if off < 0x4000000 then readCanon s off else 0)
  else if off < 0x1000 then readCap s f off
  else if off < 0x100000 then readPageAt s f off
  else 0

/-- A read of `n` bytes at offset `off` of function `f`'s BAR0: the addressed bytes of each word it touches (R370). -/
def regRead (s : State) (f off n : Nat) : List Byte :=
  (List.range n).map (fun i => BitVec.ofNat 8 ((readReg s f ((off + i) / 4 * 4)).toNat / 256 ^ ((off + i) % 4)))

end Sys2Proof.Machine
end

