-- ==== Sys2Proof/Safety.lean ====
section
/-! DEFINITION. The terms in which claims are made: a command that has its effect, the frame of a command, the
conditions under which whole families of commands run, and the invariants that every step keeps. -/

namespace Sys2Proof.Machine

/-- The command completes: it answers a next state, of which `P` holds. -/
def Runs (i : Instr) (s : State) (P : State → Prop) : Prop := ∃ t, exec i s = .next t ∧ P t

/-- The state with the free-value counter moved on, as every command leaves it. -/
def State.ticked (s : State) : State := { s with freeIdx := s.freeIdx + 1 }

/-! ## Start-up -/

/-- The start-up sequence runs: the given device state, with the clocks running. -/
def State.at_ (s : State) (d : DevState) : Prop := s.boot.dev = d ∧ s.boot.fatal = none

/-- The values of `ch` take effect and fill both copies of the shadow, and of the rest only start-up's own state changes
(R44 step 5, R56, R375). -/
def LoadsCharter (s t : State) (ch : Charter) : Prop :=
  t.boot.charter = ch ∧ t.boot.sh1 = ch ∧ t.boot.sh2 = ch ∧ t.boot.bad1 = [] ∧ t.boot.bad2 = [] ∧
  t.gov = { s.gov with feedCap := Trv.of ch.feedCapW } ∧
  t.plt = { s.plt with lim0 := Trv.of ch.dischargeMaxW, lim1 := Trv.of ch.rechargeMaxW, lim2 := Trv.of ch.clampTargetW,
                       lim3 := Trv.of ch.socFloor, lim4 := Trv.of ch.pumpMinPct } ∧
  t.sch = { s.sch with bunch := t.sch.bunch } ∧ (∀ b < 8, bunchPart t b = ch.bunchPart.getD b 0) ∧
  t = { s.ticked with boot := t.boot, gov := t.gov, plt := t.plt, sch := t.sch, regs := t.regs, ras := t.ras }

/-- The load was abandoned: no copy is loaded, and the values of LIMP take effect (R46). -/
def Abandons (s t : State) : Prop :=
  t.at_ .selftest ∧ t.boot.abandoned = true ∧ t.boot.selected = none ∧ t.boot.ambiguous = s.boot.ambiguous ∧
    LoadsCharter s t limpCharter ∧ t.regs = s.regs ∧ t.ras = s.ras

/-- Within the 500 ms of steps 2 to 5 (R46), with the clocks running. -/
def State.loading (s : State) : Prop := s.at_ .charterLoad ∧ s.time ≤ s.boot.loadAt + 500000000

/-- The sideband bridge takes commands that act: it answers, the PEC is right, the loader is not active (R52, R53). -/
def State.bridge (s : State) (pec : Bool) : Prop :=
  pec = true ∧ s.boot.dev ≠ .off ∧ s.boot.dev ≠ .strap ∧ s.boot.dev ≠ .charterLoad ∧ s.boot.fatal = none

/-- Of `n` bytes from `a` on, which wrap at the end of the flash, one lies in the slot that R54 protects: the loaded one, until
an unlock. -/
def State.inLoadedSlot (s : State) (a n : Nat) : Prop :=
  s.sb.unlocked = false ∧ ∃ k, s.boot.selected = some k ∧
    (a < slotBase k + 0x400000 ∧ slotBase k < a + n ∨ a < slotBase k + 0x4400000 ∧ slotBase k + 0x4000000 < a + n)

/-! ## Clause engines -/

/-- The head slot of the execution that engine `e` of core `c` has issued is slot `i` with word `w`, of the given type
and opcode (R108, R110); the core clocks run (R391). -/
def State.heads (s : State) (c : Nat) (e : CE) (ty : SlotTy) (op i : Nat) (w : W64) : Prop :=
  (s.eng c e).issuing.head? = some (i, w) ∧ slotTy e i = ty ∧ opc w = op ∧ s.clocked = true

/-- Frame: of the whole state only engine `e` of core `c` changes. -/
def OnlyEngine (s t : State) (c : Nat) (e : CE) : Prop :=
  t = { s.ticked with cores := t.cores } ∧ t.core c = (s.core c).setEng e (t.eng c e) ∧ ∀ k, k ≠ c → t.core k = s.core k

/-- The last slot of the last execution of clause `k` is at the head: CTRL acts there (R110, R114). -/
def State.closes (s : State) (c : Nat) (e : CE) (k : Clause) : Prop :=
  (s.eng c e).issuing.length = 1 ∧ (s.eng c e).clause = some k ∧ k.execs ≤ (s.eng c e).done + 1 ∧
    (s.eng c e).branch = none ∧ (s.eng c e).taken = false

/-- The fetched clause `k` has word `w` with opcode `op` in its SYNC slot, and its wait is to be evaluated (R114). -/
def State.waitsOn (s : State) (c : Nat) (e : CE) (k : Clause) (op : Nat) (w : W64) : Prop :=
  (s.eng c e).clause = some k ∧ k.slot 1 = some w ∧ opc w = op ∧ (s.eng c e).live = true ∧ (s.eng c e).st = .issuing ∧
    (s.eng c e).waitOk = false ∧ (s.eng c e).done = 0 ∧ (s.eng c e).issuing = [] ∧ (s.eng c e).aborting = false ∧
    s.syn.dumpBusy = false ∧ s.clocked = true

/-- Nothing holds a release operation of engine `e` back (R115). -/
def State.settled (s : State) (c : Nat) (e : CE) : Prop :=
  (s.eng c e).releases = [] ∧ (s.eng c e).inflight = [] ∧ (s.eng c e).gbHeld = false ∧ s.syn.dumpBusy = false ∧
    (e = .tx → ∀ x ∈ (s.core c).xfers, x.cmd ≠ (s.eng c e).cmd)

/-- The state with the head slot of engine `e` taken: it is acting. -/
def State.popSlot (s : State) (c : Nat) (e : CE) : State :=
  s.setEng c e { s.eng c e with issuing := (s.eng c e).issuing.tail }

/-- What the transfer slot `i` with word `w`, opcode `op`, of core `c` does: operation, slot, the place of the execution in
its clause, nouns and generators (R109, R112, R248). -/
def State.xjob (s : State) (c op i w : Nat) (k : Clause) : XJob :=
  { op := op, slot := i, first := (s.eng c .tx).done == 0, last := (s.eng c .tx).done + 1 == k.execs,
    src := (s.eng c .tx).noun (fld w 14 12), dst := (s.eng c .tx).noun (fld w 26 12),
    sg := (s.eng c .tx).gen (fld w 8 3), dg := (s.eng c .tx).gen (fld w 11 3) }

/-- The same as operands in the engine's address space. -/
def State.xop (s : State) (c : Nat) (w : Nat) : XOp :=
  ⟨.va c (s.eng c .tx).fn (s.eng c .tx).ctx, (s.eng c .tx).noun (fld w 14 12), (s.eng c .tx).noun (fld w 26 12),
   (s.eng c .tx).gen (fld w 8 3), (s.eng c .tx).gen (fld w 11 3)⟩

/-- A transfer of core `c` on the ranges `o` reads no host memory, and no earlier one of its stream has yet to act (R243). -/
def State.actsNow (s : State) (c : Nat) (o : XOp) : Prop :=
  hostAt s c (s.eng c .tx).fn (s.eng c .tx).ctx (readSpans s o) = none ∧ jobsWait (s.core c) (s.eng c .tx).cmd = false

/-! ## Thread engines -/

/-- Punnet `p` of core `c` may issue word `w`, one of the opcodes `ops`; the fetch leaves `u` (R157, R182); no register that the
instruction reads holds a poisoned element (R232). -/
def State.fetched (s : State) (c p : Nat) (ops : List Nat) (w : W64) (u : State) : Prop :=
  tOp w ∈ ops ∧ teLegal w = true ∧ punReady s c p = true ∧ (s.pun c p).stepDue = false ∧ (s.pun c p).regs.pc % 8 = 0 ∧
    scoreOk u c p w = true ∧ badLanes (s.pun c p).regs w (execLanes (s.pun c p).regs w) = 0 ∧
    ∃ bs, readVa s c (s.pun c p).fn (some (s.pun c p).ctx) (s.pun c p).regs.pc 8 .fetch = (u, .inl bs) ∧
      BitVec.ofNat 64 (leNat bs) = w

/-- ... with single step off (R178). -/
def State.issues (s : State) (c p : Nat) (ops : List Nat) (w : W64) (u : State) : Prop :=
  s.fetched c p ops w u ∧ stepOn u c p = false

/-- A lane of the punnet has not executed EXIT. -/
def State.hasLanes (u : State) (c p : Nat) : Prop := (u.pun c p).init &&& ~~~(u.pun c p).exited ≠ 0

/-- Frame: from the state `u` after the fetch, of what memory, registers, logs, synchronisation, links, other cores and other
punnets hold nothing changes; of punnet `p` of core `c` nothing but its registers and what single step and issue note. -/
def OnlyPunnet (u t : State) (c p : Nat) : Prop :=
  t.mem = u.mem ∧ t.poison = u.poison ∧ t.regs = u.regs ∧ t.ras = u.ras ∧ t.gov = u.gov ∧ t.plt = u.plt ∧ t.syn = u.syn ∧
    t.sch = u.sch ∧ t.lnk = u.lnk ∧ t.trc = u.trc ∧ t.sketch = u.sketch ∧ (t.te c).reqs = (u.te c).reqs ∧
    (t.te c).l1 = (u.te c).l1 ∧ (t.te c).grid = (u.te c).grid ∧ (∀ k, k ≠ p → (t.pun c k).regs = (u.pun c k).regs) ∧
    (∀ k, k ≠ c → t.core k = u.core k)

/-- The punnet goes on to the next instruction in line with the registers `q`, whose lanes and stack are those of `r`; at a
reconvergence address it switches or pops (R163). -/
def Proceeds (t : State) (c p : Nat) (r q : PunRegs) : Prop :=
  (t.pun c p).regs = q.settle ∧ q.pc = (r.pc + 8) % 2 ^ 64 ∧ q.active = r.active ∧ q.stack = r.stack

/-- v(d) takes `f` in the executing lanes and nothing else changes. -/
def LandsLanes (t : State) (c p : Nat) (r : PunRegs) (d : Nat) (ex : W32) (f : Nat → W32) : Prop :=
  ∃ q : PunRegs, Proceeds t c p r q ∧ q.u = r.u ∧ q.p = r.p ∧
    ∀ n l, l < 32 → q.vg n l = if n = d ∧ ex.getLsbD l = true then f l else r.vg n l

/-- u(d) takes `v` where a lane executes, and nothing else changes. -/
def LandsUniform (t : State) (c p : Nat) (r : PunRegs) (d : Nat) (ex : W32) (v : W64) : Prop :=
  ∃ q : PunRegs, Proceeds t c p r q ∧ q.v = r.v ∧ q.p = r.p ∧ ∀ n, q.ug n = if n = d ∧ ex ≠ 0 then v else r.ug n

/-- p(d) takes `f` in the executing lanes and nothing else changes. -/
def LandsPred (t : State) (c p : Nat) (r : PunRegs) (d : Nat) (ex : W32) (f : Nat → Bool) : Prop :=
  ∃ q : PunRegs, Proceeds t c p r q ∧ q.v = r.v ∧ q.u = r.u ∧
    ∀ n l, l < 32 → (q.pg n).getLsbD l = if n = d ∧ ex.getLsbD l = true then f l else (r.pg n).getLsbD l

/-- A memory instruction's accesses `accs` translate to `trs` and may be issued: entries are free, nothing orders them after
an access in flight (R166, R168, R221, R226). `v` is the state after the translations. -/
def State.memGoes (u : State) (c p : Nat) (m : MemOp) (v : State) (trs : List (Nat × Tr)) : Prop :=
  acquireOpen u c p = false ∧ (m.kind ≠ .load → loadsDone u c p = true) ∧
    lineTrs u c (u.pun c p).fn (u.pun c p).ctx m.space m.acc (if m.kind = .atom then some m.atomOp else none) (linesOf m.accs)
      = (v, trs) ∧
    accTrap trs m.accs = none ∧ entriesUsed u c + (linesOf m.accs).length ≤ 2048

/-- The requests that a memory instruction adds: one for each line it touches, and each access in one of them at the
address its line translates to; but of the lanes of a store that reach the same bytes, the highest (R167). A release at a scope
below chip shows what precedes it (R219). -/
def AddsRequests (v t : State) (c p : Nat) (m : MemOp) (trs : List (Nat × Tr)) (l : List TeReq) : Prop :=
  (t.te c).reqs = ((if m.release then releaseAt v c m.scope else v).te c).reqs ++ l ∧
    l.length = (linesOf m.accs).length ∧
    (∀ q ∈ l, q.slot = p ∧ q.kind = m.kind ∧ q.dst = m.dst ∧ q.fin = false) ∧
    ∀ a ∈ m.accs, ∃ pa bp o, look trs (lineOf a.va) = some (.ok pa bp o) ∧
      ((m.kind = .store ∧ ∃ z ∈ placed m trs, a.lane < z.lane ∧ z.pa = pa + a.va % 128) ∨
        ∃ q ∈ l, ∃ b ∈ q.accs, b.lane = a.lane ∧ b.va = a.va ∧ b.size = a.size ∧ b.data = a.data ∧ b.pa = pa + a.va % 128)

/-! ## Links -/

/-- The state after the header of an undamaged sequenced flit `b` has been taken on port `g` (R322, R323). -/
def State.tookFlit (s : State) (g : Nat) (b : List Byte) : State :=
  modPort (takeHeader (monEvent s 14 g 1) g (fHdr b)) g (fun q =>
    { q with expect := (q.expect + 1) % 4096, nakSent := false, seqAt := s.time })

/-- A sequenced flit `b` that port `g` accepts; the port has nothing to send or to be acknowledged (R323). -/
def State.accepts (s : State) (g : Nat) (b : List Byte) : Prop :=
  (s.port g).st = .up ∧ crcOk b = true ∧ (s.port g).retry = [] ∧ (s.port g).outq = [] ∧ (s.port g).ctlq = [] ∧
    fld (fHdr b) 8 12 = (s.port g).expect ∧ ((s.port g).rx.get {} (fld (fHdr b) 4 2)).route = .drop

/-- The way out of a message for chip `dst`: the named port where it is direct, else the route (R335, R337). -/
def State.wayOut (s : State) (direct : Bool) (port dst : Nat) : Option Nat :=
  if direct then (if portUp s port then some port else none) else routeTo s dst

/-! ## Invariants -/

/-- The power, start-up and pin state of R41, R386 to R388 and R391: without power the device is OFF and drives nothing; with
power its pump and valve pins carry a static level (100 % pump, closed bypass) or PWM, PWM only in READY and LIMP; after FATAL_N
they carry the static levels; PERST_N holds start-up in STRAP; the PCIe link is up from CHARTER_LOAD on. The flash is a list in
canonical form, chip time a 64-bit count. -/
def PowerInv (s : State) : Prop :=
  (s.boot.pwrgood = false → s.boot.dev = .off ∧ s.boot.pumpPin = .hiz ∧ s.boot.valvePin = .hiz ∧ s.boot.resetReq = false) ∧
  (s.boot.pwrgood = true → s.boot.cause.isSome = true ∧ (s.boot.pumpPin = .high ∧ s.boot.valvePin = .low ∨
    s.boot.pumpPin = .pwm ∧ s.boot.valvePin = .pwm ∧ (s.boot.dev = .ready ∨ s.boot.dev = .limp))) ∧
  (s.boot.fatal.isSome = true → s.boot.pumpPin = .high ∧ s.boot.valvePin = .low) ∧
  (s.boot.perst = true → s.boot.dev = .off ∨ s.boot.dev = .strap ∨ s.boot.fatal.isSome = true) ∧
  (s.boot.link = true ↔ s.boot.dev ≠ .off ∧ s.boot.dev ≠ .strap) ∧
  flashWf s.flash = true ∧ s.time < 2 ^ 64

end Sys2Proof.Machine
end

