-- ==== Sys2Proof/Certificates/Slice0/Obligations.lean ====
section
/-! DEFINITION. The statements for the provers. Names say what they state; docstrings name the rules of spec/. -/

open Sys2Proof Sys2Proof.Machine

/-- The front command of the queue is the one a step runs, on the state with the rest of the queue. -/
def Obligations.StepRunsFrontCommand : Prop :=
  ∀ (c : Instr) (rest : List Instr) (s : State), s.pending = c :: rest → step s = exec c { s with pending := rest }

/-- An empty queue: a step is a period of the clock. Chip time moves on by 10 ns, unless it waits for the governors' tick at
a boundary or the reference stands still, where the step changes nothing. Besides it only these move on: a core's cycle count, the
cycles of its gleaning pass, the note of which engines ran, the functions' engine cycles, the event counters; none of them in
OFF or after FATAL_N. The model's choice (log entry 3). -/
def Obligations.EmptyQueueStepKeepsArchitecturalState : Prop :=
  ∀ s : State, s.pending = [] →
    ∃ t, step s = .next t ∧
      t = { s with time := t.time, cores := t.cores, sch := { s.sch with fns := t.sch.fns },
                   mon := { s.mon with cnt := t.mon.cnt, ovf := t.mon.ovf } } ∧
      (clockRuns s = true → (s.gov.started = false ∨ s.time < (s.gov.tickNo + 1) * 1000) → t.time = (s.time + 10) % 2 ^ 64) ∧
      (clockRuns s = false → t = s) ∧
      (s.gov.started = true → (s.gov.tickNo + 1) * 1000 ≤ s.time → t = s) ∧
      ((s.boot.dev = .off ∨ s.boot.fatal.isSome = true) → t = { s with time := t.time }) ∧
      (∀ c, t.core c = { s.core c with cycles := (t.core c).cycles, cycFrac := (t.core c).cycFrac, ran := (t.core c).ran,
                                       glPass := (t.core c).glPass } ∧
        (s.core c).cycles ≤ (t.core c).cycles ∧ (∀ k ∈ (s.core c).ran, k ∈ (t.core c).ran) ∧
        (t.core c).glPass = (s.core c).glPass.map (fun w =>
          if w.stopped then w else { w with cyc := w.cyc + ((t.core c).cycles - (s.core c).cycles) })) ∧
      (∀ f, t.fnS f = { s.fnS f with mxCyc := (t.fnS f).mxCyc, txCyc := (t.fnS f).txCyc, teCyc := (t.fnS f).teCyc }) ∧
      (monRuns s = false → t.mon = s.mon)

/-! ## Power, pins, start-up -/

/-- R386 to R388, R391, R49, R395, R40, R41: what each row of power and pins leaves, in every state.
Where the manual is open it rests on the model's choices: log entries 9, 10, 31, 104. -/
def Obligations.PowerAndPinRowsTakeEffect : Prop :=
  -- PWRGOOD_RISE: the power-on cause; pump high and valve low; STRAP begins now, or waits for PERST_N
  (∀ (st : Straps) (s : State), s.boot.pwrgood = false → Runs (.pwrgoodRise st) s (fun t =>
      let b : Boot := { s.boot with pwrgood := true, refclk := true, cause := some .powerOn, pumpPin := .high, valvePin := .low }
      t = { s.ticked with boot :=
        if s.boot.perst then b
        else { b with dev := .strap, straps := st, linkGts := if st.pcieRate then 32 else 64,
                      smbAddress := 0x60 + st.smbAddr.toNat, training := true, seqAt := s.time, seqLead := 0 } })) ∧
  -- ... with power good already: nothing
  (∀ (st : Straps) (s : State), s.boot.pwrgood = true → Runs (.pwrgoodRise st) s (fun t => t = s.ticked)) ∧
  -- PWRGOOD_FALL: OFF, and every output released; of memory only the host's stays; of the flash only bytes that a running operation
  -- works on may change
  (∀ s : State, Runs .pwrgoodFall s (fun t =>
      t = { State.reset with flash := t.flash, mem := s.mem.filter (fun c => isHost c.1), pending := s.pending,
                             freeIdx := s.freeIdx + 1, boot := { State.reset.boot with perst := s.boot.perst, lref := s.boot.lref } } ∧
      (∀ o, pinOut t o = .hiz) ∧ (s.sb.op = none → t.flash = s.flash) ∧
      ∀ x, flashByte t.flash x ≠ flashByte s.flash x →
        (∃ a bs i, s.sb.op = some (.inl (a, bs)) ∧ i < bs.length ∧ x = (a + i) % 0x4000000) ∨
        (∃ a n, s.sb.op = some (.inr (a, n)) ∧ a ≤ x ∧ x < a + n))) ∧
  -- PERST_ASSERT with power good: a chip reset with cause perst
  (∀ s : State, s.boot.perst = false → s.boot.pwrgood = true → s.boot.fatal = none → Runs .perstAssert s (fun t =>
      t = { State.reset with
        flash := s.flash, mem := s.mem.filter (fun c => isHost c.1), pending := s.pending, freeIdx := s.freeIdx + 1
        boot := { State.reset.boot with
          dev := .strap, pwrgood := true, perst := true, refclk := s.boot.refclk, lref := s.boot.lref, straps := s.boot.straps
          linkGts := s.boot.linkGts, smbAddress := s.boot.smbAddress, cause := some .perst, pumpPin := .high, valvePin := .low }
        sb := { State.reset.sb with busy := s.sb.busy, op := s.sb.op } })) ∧
  -- ... otherwise only the pin is noted
  (∀ s : State, (s.boot.perst = true ∨ s.boot.pwrgood = false ∨ s.boot.fatal ≠ none) → Runs .perstAssert s (fun t =>
      t = { s.ticked with boot := { s.boot with perst := true } })) ∧
  -- PERST_DEASSERT with power good: the straps are sampled, STRAP begins and the PCIe link starts to train
  (∀ (st : Straps) (s : State), s.boot.perst = true → s.boot.pwrgood = true → s.boot.fatal = none →
    Runs (.perstDeassert st) s (fun t =>
      t = { s.ticked with boot := { s.boot with
        perst := false, dev := .strap, straps := st, linkGts := if st.pcieRate then 32 else 64
        smbAddress := 0x60 + st.smbAddr.toNat, training := true, seqAt := s.time, seqLead := 0 } })) ∧
  -- ... otherwise only the pin is noted
  (∀ (st : Straps) (s : State), (s.boot.perst = false ∨ s.boot.pwrgood = false ∨ s.boot.fatal ≠ none) →
    Runs (.perstDeassert st) s (fun t => t = { s.ticked with boot := { s.boot with perst := false } })) ∧
  -- FATAL_N: pump 100 %, bypass closed, FATAL_N low, the core clocks stop; chip time goes on unless the reference is lost
  (∀ (k : FatalCause) (s : State), s.boot.pwrgood = true → s.boot.fatal = none → Runs (.fatalN k) s (fun t =>
      t = { s.ticked with boot := { s.boot with fatal := some k, pumpPin := .high, valvePin := .low,
                                                refclk := s.boot.refclk && k != .refclk } } ∧
      pinOut t .pumpPwm = .high ∧ pinOut t .valvePwm = .low ∧ pinOut t .fatalN = .low ∧ pinOut t .resLink = .hiz ∧
      pinOut t .sideband = .hiz ∧ t.clocked = false ∧ (idle t).cores = t.cores ∧
      clockRuns t = (s.boot.refclk && k != .refclk))) ∧
  -- ... a second one, or without power: nothing
  (∀ (k : FatalCause) (s : State), (s.boot.pwrgood = false ∨ s.boot.fatal ≠ none) → Runs (.fatalN k) s (fun t => t = s.ticked)) ∧
  -- LREF_LOSS: every UP port goes DOWN, and from there to TRAINING at once (R338); the others stand; the chip keeps running
  (∀ s : State, Runs .lrefLoss s (fun t =>
      t.boot = { s.boot with lref := false } ∧ t.mem = s.mem ∧ t.syn = s.syn ∧ t.gov = s.gov ∧ t.plt = s.plt ∧ t.hq = s.hq ∧
      (∀ c, t.core c = { s.core c with xfers := (t.core c).xfers } ∧
        (t.core c).xfers.map (fun x => (x.id, x.cmd)) = (s.core c).xfers.map (fun x => (x.id, x.cmd))) ∧
      ∀ g < 16, (t.port g).st = (if (s.port g).st = .up then .training else (s.port g).st)))

/-- R44, R29, R37, R38, R46, R47, R41: the rows that end STRAP, the parts of CHARTER_LOAD and SELFTEST. Each needs its own state
of the start-up sequence and no FATAL_N; the rows of CHARTER_LOAD come within its 500 ms.
Where the manual is open it rests on the model's choices: log entries 11, 31, 108. -/
def Obligations.StartUpRowsAdvanceSequence : Prop :=
  -- STRAP_COMPLETE: CHARTER_LOAD begins and the PCIe link is up
  (∀ s : State, s.at_ .strap → s.boot.perst = false → Runs .strapComplete s (fun t =>
      t = { s.ticked with boot := { s.boot with dev := .charterLoad, link := true, training := false, loadAt := s.time } })) ∧
  -- SFDP_DISCOVERY_DONE: the last advertised mode in the order of R29; 1-1-1 for a 4-bit mode without its quad enable
  (∀ (x : Sfdp) (s : State), s.loading → s.boot.sfdpDone = false → Runs (.sfdpDiscoveryDone (some x)) s (fun t =>
      let best := (([.m111, .m114, .m144, .m118, .m188] : List FlashMode).filter (fun m => x.modes.contains m)).getLast?.getD .m111
      t = { s.ticked with boot := { s.boot with
        sfdpDone := true, sfdp := some x
        flashMode := if (best = .m114 ∨ best = .m144) ∧ x.quadOk = false then .m111 else best } })) ∧
  -- ... and no SFDP table: the load is abandoned; a copy that was not read reads fail_step 0xF, not valid, sequence 0
  (∀ s : State, s.loading → s.boot.sfdpDone = false → Runs (.sfdpDiscoveryDone none) s (fun t =>
      Abandons s t ∧ t.boot.sfdpDone = true ∧
      (s.boot.copyA = {} → s.boot.copyB = {} → ∀ k : Slot, t.boot.copy k = { failStep := 15, finished := true }))) ∧
  -- COPY_READ_DONE: a header that fails step 1 or 2 is the copy's verdict; else the image is read and its body hashed
  (∀ (k : Slot) (s : State), s.loading → s.boot.sfdpDone = true → (s.boot.copy k).seen = false →
    Runs (.copyReadDone k) s (fun t =>
      let byte (i : Nat) : Byte := flashByte s.flash (slotBase k + i)
      let h := (List.range 256).map byte
      t = { s.ticked with boot := s.boot.setCopy k (t.boot.copy k) } ∧
      ((le32 h 0 ≠ 0x52484348 ∨ le16 h 4 ≠ 1 ∨ le16 h 6 ≠ 0x100) →
        t.boot.copy k = { seen := true, finished := true, failStep := 1 }) ∧
      (¬ (le32 h 0 ≠ 0x52484348 ∨ le16 h 4 ≠ 1 ∨ le16 h 6 ≠ 0x100) →
        (le32 h 8 % 256 ≠ 0 ∨ le32 h 8 < 0x400 ∨ le32 h 8 > 0x400000 ∨ le32 h 12 < 1 ∨ le32 h 12 > 64 ∨ le32 h 0x14 ≠ 0x4832) →
        t.boot.copy k = { seen := true, finished := true, failStep := 2 }) ∧
      (headerStep h = 0 → t.boot.copy k =
        { seen := true, seq := BitVec.ofNat 32 (le32 h 0x10), len := le32 h 8, image := (List.range (le32 h 8)).map byte
          digest := sha384 (((List.range (le32 h 8)).map byte).take (le32 h 8 - 256)) }))) ∧
  -- SIGNATURE_CHECK_DONE: both copies have their verdict on steps 3 and 4; a verdict reached earlier stands
  (∀ s : State, s.loading → s.boot.copyA.seen = true → s.boot.copyB.seen = true → s.boot.copyA.sigDone = false →
    Runs .signatureCheckDone s (fun t =>
      t = { s.ticked with boot := { s.boot with copyA := t.boot.copyA, copyB := t.boot.copyB } } ∧
      ∀ k : Slot,
        ((s.boot.copy k).finished = true → t.boot.copy k = { s.boot.copy k with sigDone := true }) ∧
        ((s.boot.copy k).finished = false →
          let v := signatureStep (s.boot.copy k).image (s.boot.copy k).digest
          t.boot.copy k = { s.boot.copy k with sigDone := true, failStep := v, finished := v != 0 }))) ∧
  -- CHARTER_LOAD_TIMEOUT, after 500 ms: as if neither copy were valid. A verdict reached stands; a copy whose checks had
  -- not finished reads 0xF; CHR_SEQ_A and CHR_SEQ_B hold a sequence where steps 1 and 2 had passed
  (∀ s : State, s.at_ .charterLoad → s.boot.loadAt + 500000000 < s.time → Runs .charterLoadTimeout s (fun t =>
      Abandons s t ∧ ∀ k : Slot,
        ((s.boot.copy k).finished = true → (t.boot.copy k).failStep = (s.boot.copy k).failStep ∧
          (t.boot.copy k).seq = if (s.boot.copy k).seen ∧ (s.boot.copy k).failStep ≠ 1 ∧ (s.boot.copy k).failStep ≠ 2
            then (s.boot.copy k).seq else 0) ∧
        ((s.boot.copy k).finished = false → (s.boot.copyA.seen = false ∨ s.boot.copyB.seen = false) →
          (s.boot.copy k).sigDone = false → (t.boot.copy k).failStep = 15) ∧
        ((s.boot.copy k).finished = false → (s.boot.copy k).failStep = 0 →
          (t.boot.copy k).seq = if (s.boot.copy k).seen then (s.boot.copy k).seq else 0))) ∧
  -- SRAM_CLEAR_DONE: the SRAM reads zero and holds no poison; HBM3E and host memory stand
  (∀ s : State, s.at_ .selftest → s.boot.sramClear = false → Runs .sramClearDone s (fun t =>
      t = { s.ticked with boot := { s.boot with sramClear := true }, mem := t.mem, poison := t.poison } ∧
      (∀ a, isSram a = true → memByte t a = 0) ∧ (∀ a, isSram a = false → look t.mem a = look s.mem a) ∧
      (∀ g, g ∈ t.poison ↔ g ∈ s.poison ∧ isSram g = false))) ∧
  -- HBM_TRAINING_DONE: PLANT_ARM begins; a stack that failed is out of the map, also where all failed
  (∀ (m : BitVec 8) (s : State), s.at_ .selftest → s.boot.sramClear = true → Runs (.hbmTrainingDone m) s (fun t =>
      t = { s.ticked with boot := { s.boot with dev := .plantArm, hbmTrained := m, hbmDegraded := m != 0xFF } }))

/-- R39, R37, R44, R56: what CHARTER_LOAD_DONE selects, loads and counts, after the walk of the records (R37 steps 5 to 7). -/
def Obligations.CharterSelectionFollowsR39 : Prop :=
  ∀ s : State, s.loading → s.boot.copyA.sigDone = true → s.boot.copyB.sigDone = true →
    Runs .charterLoadDone s (fun t =>
      let a := walkCopy s.boot.copyA
      let b := walkCopy s.boot.copyB
      let values (c : CopySt) : Charter := charterOf ((imageRecords c.image).getD [])
      let loadsA := t.boot.selected = some .a ∧ LoadsCharter s t (values a)
      let loadsB := t.boot.selected = some .b ∧ LoadsCharter s t (values b)
      t.at_ .selftest ∧ t.boot.copyA = { a with image := [] } ∧ t.boot.copyB = { b with image := [] } ∧
      -- both valid: the higher sequence, compared unsigned
      (a.valid = true → b.valid = true → a.seq < b.seq → loadsB) ∧
      (a.valid = true → b.valid = true → b.seq < a.seq → loadsA) ∧
      -- equal sequences: A, and ambiguous where the digests differ
      (a.valid = true → b.valid = true → a.seq = b.seq → loadsA) ∧
      t.boot.ambiguous = (a.valid && b.valid && a.seq == b.seq && a.digest != b.digest) ∧
      -- one valid copy: that one; none: the values of LIMP
      (a.valid = true → b.valid = false → loadsA) ∧
      (a.valid = false → b.valid = true → loadsB) ∧
      (a.valid = false → b.valid = false → t.boot.selected = none ∧ LoadsCharter s t limpCharter) ∧
      -- COPY_AMBIGUOUS is counted once, and nothing else is
      (t.boot.ambiguous = false → t.regs = s.regs ∧ t.ras = s.ras) ∧
      (t.boot.ambiguous = true → rdF t 0x0080010C 0 16 = Nat.min (rdF s 0x0080010C 0 16 + 1) 0xFFFF))

/-- R48, R58, R85, R42, R43, R44, R51: the rows of PLANT_ARM.
Where the manual is open it rests on the model's choices: log entries 11, 98, 110. -/
def Obligations.PlantArmRowsTakeEffect : Prop :=
  -- PUMP_TACH_WINDOW_EXPIRY: SENSOR_LOST with pump_tach
  (∀ s : State, s.at_ .plantArm → s.boot.armTach = false → Runs .pumpTachWindowExpiry s (fun t =>
      t = { s.ticked with boot := { s.boot with armTach := true, armFail := true }, regs := t.regs, ras := t.ras,
                          plt := { s.plt with active := t.plt.active } } ∧
      rdB t 0x00030004 3 = true ∧ rd t 0x00030008 = rd (inc16 s 0x00030008) 0x00030008 ∧
      lossOn t .pumpTach = true)) ∧
  -- I3C_ENUMERATION_DONE: which named sensors answered; inlet_all where no named inlet sensor did
  (∀ (l : List Bool) (s : State), l.length = 8 → s.at_ .plantArm → s.boot.i3cDone = false → s.charter.isLimp = false →
    Runs (.i3cEnumerationDone l) s (fun t =>
      t = { s.ticked with boot := t.boot, plt := { s.plt with sensors := t.plt.sensors, active := t.plt.active },
                          regs := t.regs, ras := t.ras } ∧ t.boot.i3cDone = true ∧
      (∀ i < 8, ((t.plt.sensors.get {} i).enumerated = true ↔
        (s.charter.sensors.getD i (0, 0)).2 ≠ 0 ∧ l.getD i false = true)) ∧
      (if (List.range 8).any (fun i => (s.charter.sensors.getD i (0, 0)).2 == 1 && l.getD i false) then
        t.regs = s.regs ∧ t.ras = s.ras ∧ t.plt.active = s.plt.active ∧ t.boot.armFail = s.boot.armFail
      else rdB t 0x00030004 5 = true ∧ t.boot.armFail = true ∧ lossOn t .inletAll = true))) ∧
  -- PLANT_ARM_DONE without a loss: READY; the pins carry PWM; CRS ends; TotalVFs is 127; the enabled ports train; the boot time
  -- runs from the edge or request that began the sequence
  (∀ (k : Option ConvAnswer) (v : BitVec 12) (s : State), s.at_ .plantArm → s.gov.started = true →
    (0 < s.gov.beats ∨ s.gov.lost = true) → s.boot.i3cDone = true → s.boot.armFail = false → s.charter.isLimp = false →
    Runs (.plantArmDone k v) s (fun t =>
      t.at_ .ready ∧ t.boot = { s.boot with dev := .ready, crs := false, bootMs := (s.time - s.boot.seqAt + s.boot.seqLead) / 1000000,
                                            pumpPin := .pwm, valvePin := .pwm, pci := { s.boot.pci with totalVfs := 127 } } ∧
      cfgValue t 0 .totalVfs = 127 ∧
      (∀ tp, s.charter.topo = some tp → ∀ g < 16, (t.port g).st = if tp.ports.getLsbD g then .training else (s.port g).st) ∧
      (s.charter.topo = none → t.lnk = s.lnk) ∧ t.gov = s.gov ∧ t.sch = s.sch ∧ t.cores = s.cores ∧ t.mem = s.mem ∧
      rdF t 0x00508004 0 2 = lowestTable s.charter)) ∧
  -- ... the converter's answer in its handshake: the reservoir's range, and the count from its voltage; without one, SENSOR_LOST
  -- with conv (R85)
  (∀ (k : Option ConvAnswer) (v : BitVec 12) (s : State), s.at_ .plantArm → s.gov.started = true →
    (0 < s.gov.beats ∨ s.gov.lost = true) → s.boot.i3cDone = true → s.boot.armFail = false → s.charter.isLimp = false →
    Runs (.plantArmDone k v) s (fun t =>
      (s.charter.usableLu = 0 → t.plt = s.plt) ∧
      (∀ c, k = some c → s.charter.usableLu ≠ 0 → c.vEmpty < c.vFull →
        let e := eVolt s.charter.usableLu v.toNat c.vFull.toNat c.vEmpty.toNat
        t.plt = { s.plt with vFull := c.vFull, vEmpty := c.vEmpty, convOk := true, coulomb := e, eVolt := e, resV := v.toNat,
                             lastRec := s.time }) ∧
      (k = none → s.charter.usableLu ≠ 0 → rdB t 0x00030004 2 = true ∧ lossOn t .conv = true))) ∧
  -- ... with a loss of PLANT_ARM: LIMP, the LIMP values in place of the Charter's, its books from zero, no sensor, no reservoir,
  -- T at 1.0 without a residual; ledgers and epoch run on
  (∀ (k : Option ConvAnswer) (v : BitVec 12) (s : State), s.at_ .plantArm → s.gov.started = true →
    (0 < s.gov.beats ∨ s.gov.lost = true) → s.boot.i3cDone = true → s.boot.armFail = true → s.charter.isLimp = false →
    Runs (.plantArmDone k v) s (fun t =>
      t.at_ .limp ∧ t.boot.crs = false ∧ t.boot.pumpPin = .pwm ∧ t.boot.valvePin = .pwm ∧ t.lnk = s.lnk ∧
      t.boot.charter = limpCharter ∧ t.boot.selected = s.boot.selected ∧ cfgValue t 0 .totalVfs = 0 ∧
      t.gov.parts = {} ∧ (∀ p < 8, (t.partS p).used = 0) ∧ (∀ f < 128, (t.fnS f).deficit = 0) ∧
      (∀ p < 8, rd t (0x0002010C + 0x10 * p) = 0) ∧
      t.plt.sensors = {} ∧ t.plt.coulomb = 0 ∧ t.plt.eVolt = 0 ∧ t.gov.a.cReq = 0 ∧ t.gov.trim = 0x4000 ∧ t.gov.residual = 0 ∧
      t.gov.work = s.gov.work ∧ t.gov.feed = s.gov.feed ∧ t.gov.epoch = s.gov.epoch ∧ t.gov.epochStart = s.gov.epochStart)) ∧
  -- ... with no valid Charter: LIMP
  (∀ (k : Option ConvAnswer) (v : BitVec 12) (s : State), s.at_ .plantArm → s.gov.started = true →
    (0 < s.gov.beats ∨ s.gov.lost = true) → s.boot.charter = limpCharter →
    Runs (.plantArmDone k v) s (fun t =>
      t.at_ .limp ∧ t.boot.crs = false ∧ t.boot.pumpPin = .pwm ∧ t.boot.valvePin = .pwm ∧ t.lnk = s.lnk ∧
      t.boot.charter = limpCharter ∧ cfgValue t 0 .totalVfs = 0 ∧ t.gov = s.gov ∧ t.plt = s.plt)) ∧
  -- CONFIG_RETRY: CRS before READY or LIMP, while the link is up
  (∀ s : State, Runs .configRetry s (fun t =>
      t = { s.ticked with boot := { s.boot with
        crs := s.boot.link && s.boot.dev != .ready && s.boot.dev != .limp } } ∧
      (s.boot.link = true → s.boot.dev ≠ .ready → s.boot.dev ≠ .limp → t.boot.crs = true)))

/-! ## Sideband bridge -/

/-- R52 to R55: the bridge's commands, for every address, byte list and value, where the bridge takes them. While the loader is
active, an acknowledged command other than FLASH_STATUS and DEVICE_STATE is refused and does nothing else (R53); a transaction
with a wrong PEC has no effect, nor has any in OFF, STRAP or after FATAL_N (R52).
Where the manual is open it rests on the model's choices: log entries 10, 103, 111. -/
def Obligations.SidebandCommandsTakeEffect : Prop :=
  (-- FLASH_ADDR: an address of the flash is taken, a larger value is reported
     (∀ (addr : W32) (s : State), s.bridge true → Runs (.flashAddr true addr) s (fun t =>
         t = { s.ticked with sb := { s.sb with
           addr := if addr.toNat < 0x4000000 then addr else s.sb.addr, ack := true, refused := false
           lastError := decide (0x4000000 ≤ addr.toNat), opLast := false, reply := [] } })) ∧
     -- FLASH_WRITE: refused in the loaded slot; an error while busy; else a program operation starts
     (∀ (bytes : List Byte) (s : State), s.bridge true → 1 ≤ bytes.length → bytes.length ≤ 32 →
       Runs (.flashWrite true bytes) s (fun t =>
         t = { s.ticked with sb := t.sb } ∧
         (s.inLoadedSlot s.sb.addr.toNat bytes.length →
           t.sb = { s.sb with ack := true, refused := true, lastError := false, opLast := false, reply := [] }) ∧
         (¬ s.inLoadedSlot s.sb.addr.toNat bytes.length → s.sb.busy = true →
           t.sb = { s.sb with ack := true, refused := false, lastError := true, opLast := false, reply := [] }) ∧
         (¬ s.inLoadedSlot s.sb.addr.toNat bytes.length → s.sb.busy = false →
           t.sb = { s.sb with ack := true, refused := false, lastError := false, opLast := true, reply := [], busy := true
                              addr := BitVec.ofNat 32 ((s.sb.addr.toNat + bytes.length) % 0x4000000)
                              op := some (.inl (s.sb.addr.toNat, bytes)) }))) ∧
     -- FLASH_READ: 32 bytes at the bridge address, which moves on; while an operation runs, 32 bytes nothing is said of, and
     -- last_error
     (∀ s : State, s.bridge true → Runs (.flashRead true) s (fun t =>
         t = { s.ticked with sb := { s.sb with
           addr := BitVec.ofNat 32 ((s.sb.addr.toNat + 32) % 0x4000000), ack := true, refused := false
           lastError := s.sb.busy, opLast := false, reply := t.sb.reply } } ∧ t.sb.reply.length = 32 ∧
         (s.sb.busy = false →
           t.sb.reply = (List.range 32).map (fun i => flashByte s.flash ((s.sb.addr.toNat + i) % 0x4000000))))) ∧
     -- FLASH_ERASE_4K, FLASH_ERASE_64K: the block that holds the bridge address; refused in the loaded slot; an error while busy
     (∀ (big : Bool) (s : State), s.bridge true →
       let sz := if big then 0x10000 else 0x1000
       let a := s.sb.addr.toNat / sz * sz
       Runs (if big then .flashErase64k true else .flashErase4k true) s (fun t =>
         t = { s.ticked with sb := t.sb } ∧
         (s.inLoadedSlot a sz →
           t.sb = { s.sb with ack := true, refused := true, lastError := false, opLast := false, reply := [] }) ∧
         (¬ s.inLoadedSlot a sz → s.sb.busy = true →
           t.sb = { s.sb with ack := true, refused := false, lastError := true, opLast := false, reply := [] }) ∧
         (¬ s.inLoadedSlot a sz → s.sb.busy = false →
           t.sb = { s.sb with ack := true, refused := false, lastError := false, opLast := true, reply := [], busy := true
                              op := some (.inr (a, sz)) }))) ∧
     -- FLASH_STATUS: one byte; the outcome of the last command stands
     (∀ s : State, sbAnswers s = true → Runs (.flashStatus true) s (fun t =>
         t = { s.ticked with sb := { s.sb with ack := true, reply := t.sb.reply } } ∧
         ∃ b : Byte, t.sb.reply = [b] ∧ b.getLsbD 0 = s.sb.busy ∧ b.getLsbD 1 = s.sb.lastError ∧
           b.getLsbD 2 = s.sb.refused ∧ b.getLsbD 3 = (s.boot.dev == .charterLoad) ∧ b.getLsbD 4 = s.sb.unlocked ∧ b.toNat < 32)) ∧
     -- FLASH_UNLOCK: 0x5A unlocks where the other slot's copy is valid
     (∀ (v : Byte) (s : State), s.bridge true → Runs (.flashUnlock true v) s (fun t =>
         let other := s.boot.selected = some .a ∧ s.boot.copyB.valid = true ∨ s.boot.selected = some .b ∧ s.boot.copyA.valid = true
         t = { s.ticked with sb := t.sb } ∧
         (v ≠ 0x5A → t.sb = { s.sb with ack := true, refused := false, lastError := false, opLast := false, reply := [] }) ∧
         (v = 0x5A → other → t.sb =
           { s.sb with ack := true, refused := false, lastError := false, opLast := false, reply := [], unlocked := true }) ∧
         (v = 0x5A → ¬ other → t.sb = { s.sb with ack := true, refused := true, lastError := false, opLast := false, reply := [] }))) ∧
     -- CHIP_RESET: 0xA5 requests a reset
     (∀ (v : Byte) (s : State), s.bridge true → Runs (.chipReset true v) s (fun t =>
         t = { s.ticked with
           sb := { s.sb with ack := true, refused := false, lastError := false, opLast := false, reply := [] }
           boot := if v = 0xA5 ∧ s.boot.resetReq = false then { s.boot with resetReq := true, reqAt := s.time } else s.boot })) ∧
     -- DEVICE_STATE
     (∀ s : State, sbAnswers s = true → Runs (.deviceState true) s (fun t =>
         t = { s.ticked with sb := { s.sb with ack := true, reply := t.sb.reply } } ∧
         t.sb.reply = [match s.boot.dev with
           | .charterLoad => 2 | .selftest => 3 | .plantArm => 4 | .ready => 5 | .limp => 6 | _ => 0])) ∧
     -- an unlisted command code is not acknowledged
     (∀ (k : Byte) (s : State), k ∉ ([0x10, 0x11, 0x12, 0x13, 0x14, 0x15, 0x16, 0x20, 0x21] : List Byte) →
       Runs (.sidebandUnknownCommand k) s (fun t => t = { s.ticked with sb := { s.sb with ack := false, reply := [] } }))) ∧
  -- the loader's refusal, the bridge's silence and a wrong PEC, for every operand
  (∀ (addr : W32) (bytes : List Byte) (v : Byte), 1 ≤ bytes.length → bytes.length ≤ 32 →
    ∀ (mk : Bool → Instr),
      mk ∈ ([(.flashAddr · addr), (.flashWrite · bytes), .flashRead, .flashErase4k, .flashErase64k, (.flashUnlock · v),
             (.chipReset · v), .flashStatus, .deviceState] : List (Bool → Instr)) → ∀ s : State,
       (s.at_ .charterLoad → mk true ≠ .flashStatus true → mk true ≠ .deviceState true → Runs (mk true) s (fun t =>
         t = { s.ticked with sb := { s.sb with ack := true, refused := true, lastError := false, opLast := false, reply := [] } })) ∧
       ((s.boot.dev = .off ∨ s.boot.dev = .strap ∨ s.boot.fatal ≠ none) → Runs (mk true) s (fun t =>
         t = { s.ticked with sb := { s.sb with ack := false, reply := [] } })) ∧
       Runs (mk false) s (fun t => t = { s.ticked with sb := { s.sb with ack := false, reply := [] } }))

/-- R52, R55, R49: the end of a flash operation, and the chip reset that a request leads to. last_error reports the operation's
failure only while the command that started it is the one last_error reports on.
Where the manual is open it rests on the model's choices: log entries 8, 9, 10, 103. -/
def Obligations.FlashOperationEndsAsStated : Prop :=
  -- a program operation that succeeds: it clears bits of its bytes, which wrap at the end of the flash, and leaves every other byte
  (∀ (a : Nat) (bs : List Byte) (s : State), s.sb.op = some (.inl (a, bs)) → bs.length ≤ 32 →
    Runs (.flashOperationDone true) s (fun t =>
      t = { s.ticked with flash := t.flash, sb := { s.sb with busy := false, op := none, opLast := false } } ∧
      (∀ i < bs.length, flashByte t.flash ((a + i) % 0x4000000) = flashByte s.flash ((a + i) % 0x4000000) &&& bs.getD i 0xFF) ∧
      ∀ x, (∀ i < bs.length, x ≠ (a + i) % 0x4000000) → flashByte t.flash x = flashByte s.flash x)) ∧
  -- an erase that succeeds
  (∀ (a n : Nat) (s : State), s.sb.op = some (.inr (a, n)) → Runs (.flashOperationDone true) s (fun t =>
      t = { s.ticked with flash := t.flash, sb := { s.sb with busy := false, op := none, opLast := false } } ∧
      ∀ x, flashByte t.flash x = if a ≤ x ∧ x < a + n then 0xFF else flashByte s.flash x)) ∧
  -- one that fails: last_error; no byte outside its range changes
  (∀ (op : Nat × List Byte ⊕ Nat × Nat) (s : State), s.sb.op = some op → Runs (.flashOperationDone false) s (fun t =>
      t = { s.ticked with flash := t.flash, sb := { s.sb with busy := false, op := none, opLast := false,
                                                              lastError := s.sb.lastError || s.sb.opLast } } ∧
      ∀ x, (match op with | .inl (a, bs) => ∀ i < bs.length, x ≠ (a + i) % 0x4000000 | .inr (a, n) => x < a ∨ a + n ≤ x) →
        flashByte t.flash x = flashByte s.flash x)) ∧
  -- RESET_TAKEN: the chip reset of a CHIP_RESET request, whose sequence counts from the request
  (∀ s : State, s.boot.resetReq = true → s.boot.fatal = none → Runs .resetTaken s (fun t =>
      t = { State.reset with
        flash := s.flash, mem := s.mem.filter (fun c => isHost c.1), pending := s.pending, freeIdx := s.freeIdx + 1
        boot := { State.reset.boot with
          dev := .strap, pwrgood := s.boot.pwrgood, perst := s.boot.perst, refclk := s.boot.refclk, lref := s.boot.lref
          straps := s.boot.straps, linkGts := s.boot.linkGts, smbAddress := s.boot.smbAddress, training := true
          seqLead := s.time - s.boot.reqAt, cause := some .sideband, pumpPin := .high, valvePin := .low }
        sb := { State.reset.sb with busy := s.sb.busy, op := s.sb.op } })) ∧
  -- ... without a request nothing
  (∀ s : State, s.boot.resetReq = false → Runs .resetTaken s (fun t => t = s.ticked))

/-! ## Ledgers, epochs, governors -/

/-- R59, R62, R65, R91, R97, R84: a tick with the governors running, stated of the state in which what earlier ticks left
due (ledger wrap, epoch end, rollover, snapshot) has been settled. `exact` is the tick's energy with the remainder carried in, in
1/16,384,000 of 1/65,536 LU.
Where the manual is open it rests on the model's choices: log entries 14, 15, 16, 17, 19, 107. -/
def Obligations.GovernorTickAdvancesLedgersAndCharges : Prop :=
  ∀ (i : TickIn) (s : State), i.est.length = 32 → s.gov.started = true → s.boot.refclk = true → s.boot.pwrgood = true →
    Runs (.governorTick i) s (fun t =>
      let u := settle s
      let energy := ((List.range 32).map (coreE u.charter i)).sum + i.uncore
      let exact : Int := (u.gov.workRem : Int) + (energy * u.gov.trim * 1000 : Nat) + residualShare u.gov.residual u.gov.winTick
      t.time = ((u.gov.tickNo + 1) * 1000) % 2 ^ 64 ∧ t.gov.tickNo = u.gov.tickNo + 1 ∧
      -- the work ledger takes the whole units of the energy; the remainder is carried
      (0 ≤ exact → t.gov.workRem < 16384000 ∧ (t.gov.lastWork : Int) * 16384000 + t.gov.workRem = exact) ∧
      t.gov.work * 65536 + t.gov.workFrac = u.gov.work * 65536 + u.gov.workFrac + t.gov.lastWork ∧
      -- the feed ledger takes the sample's product; a negative one counts zero
      t.gov.feed * 2 ^ 21 + t.gov.feedRem = u.gov.feed * 2 ^ 21 + u.gov.feedRem +
        (if i.feedI.toInt < 0 then 0 else i.feedV.toNat * i.feedI.toNat) ∧
      -- the charges of all partitions sum to the increment
      (1 ≤ u.charter.partCount → ((List.range u.charter.partCount).map (fun p => (t.acct p).lastCharge)).sum = t.gov.lastWork) ∧
      -- the epoch ends after 65,536 LU; an early close needs 4,096
      (65536 * 65536 ≤ t.gov.adv → t.gov.endDue = true ∧ t.gov.earlyDue = false) ∧
      (t.gov.endDue = true → 4096 * 65536 ≤ t.gov.adv) ∧
      -- the second sample in a row above the cap asserts the clamp
      (u.plt.active.contains .feedAdc = false → (capW u : Int) * oneW < feedPower i.feedV i.feedI → 1 ≤ u.gov.a.overCnt →
        t.gov.a.clamp = true) ∧
      -- the setpoint is 2,048 plus u in watts, sent in a frame that starts with 0b1010; after FATAL_N no frame is sent
      (s.boot.fatal = none → t.plt.setpoint = (2048 + roundW t.gov.a.u).toNat ∧ t.plt.frame.toNat / 4096 = 10 ∧
        t.plt.frame.toNat % 4096 = t.plt.setpoint % 4096) ∧
      (s.boot.fatal ≠ none → t.plt.setpoint = s.plt.setpoint ∧ t.plt.frame = s.plt.frame) ∧
      t.syn = { s.syn with trackers := t.syn.trackers } ∧
      t.mem = s.mem ∧ t.poison = s.poison ∧ t.hq = s.hq ∧ t.lnk = s.lnk ∧ t.trc = s.trc ∧ t.sketch = s.sketch ∧
      t.boot = s.boot ∧ t.sb = s.sb ∧ t.flash = s.flash ∧ t.pending = s.pending)

/-- R58, R60, R61, R63, R64, R67, R79, R81: the events around a tick.
Where the manual is open it rests on the model's choices: log entries 15, 96. -/
def Obligations.EpochAndLedgerEventsTakeEffect : Prop :=
  -- GOVERNOR_START: in PLANT_ARM on a frame boundary
  (∀ s : State, s.at_ .plantArm → s.gov.started = false → s.time % 1000000 = 0 → Runs .governorStart s (fun t =>
      t = { s.ticked with gov := t.gov } ∧ t.gov.started = true ∧ t.gov.tickNo = s.time / 1000 ∧
      t.gov.epoch = s.gov.epoch ∧ t.gov.work = s.gov.work)) ∧
  -- EPOCH_END: the epoch number moves on, and the latent count of the epoch starts again
  (∀ s : State, s.gov.endDue = true → Runs .epochEnd s (fun t =>
      t = { s.ticked with gov := t.gov } ∧ t.gov.epoch = (s.gov.epoch + 1) % 2 ^ 32 ∧
      t.gov.epochStart = s.gov.work % 2 ^ 48 ∧ t.gov.thisEpochLatent = 0 ∧ t.gov.rollDue = true ∧ t.gov.endDue = false ∧
      t.gov.work = s.gov.work ∧ t.gov.feed = s.gov.feed ∧ t.gov.parts = s.gov.parts ∧
      t.gov.earlyCount = (if s.gov.earlyDue then (s.gov.earlyCount + 1) % 2 ^ 32 else s.gov.earlyCount))) ∧
  -- CARRY_ROLLOVER: carry within a quarter of the budget either way; spent is what the rollover tick charged
  (∀ s : State, s.gov.rollTick = true → s.charter.partCount ≤ 8 → Runs .carryRollover s (fun t =>
      t = { s.ticked with gov := t.gov, regs := t.regs } ∧ t.gov.rollDue = false ∧ t.gov.rollTick = false ∧
      t.gov.work = s.gov.work ∧ t.gov.epoch = s.gov.epoch ∧
      (∀ p < s.charter.partCount,
        let raw : Int := (budgetOf s p : Int) * 65536 + (s.acct p).carry - (s.acct p).spent
        let cap : Int := (budgetOf s p / 4 : Nat) * 65536
        (t.acct p).carry = max (-cap) (min cap raw) ∧ (t.acct p).spent = (s.acct p).newSpent ∧
        rdF t (0x0002010C + 0x10 * p) 16 16 =
          (if max (-cap) (min cap raw) = raw then rdF s (0x0002010C + 0x10 * p) 16 16
           else Nat.min (rdF s (0x0002010C + 0x10 * p) 16 16 + 1) 65535)) ∧
      (∀ p, s.charter.partCount ≤ p → t.acct p = s.acct p))) ∧
  -- LEDGER_WRAP
  (∀ s : State, s.gov.wrapDue = true → Runs .ledgerWrap s (fun t =>
      t = { s.ticked with gov := { s.gov with work := s.gov.work % 2 ^ 48, feed := s.gov.feed % 2 ^ 48, wrapDue := false },
                          regs := t.regs } ∧
      rdB t 0x00020000 4 = true)) ∧
  -- TELEMETRY_WINDOW_END: after 1,000 ticks. T moves an eighth of the way to E_tel / E_est, rounded to nearest, within 0x3334 to
  -- 0x5000; a regulator without telemetry freezes it; with no regulator named it stays and there is no residual
  (∀ (tel : List (Option Nat)) (ref : BitVec 14) (s : State), tel.length = 8 → s.gov.started = true → 1000 ≤ s.gov.winTick →
    Runs (.telemetryWindowEnd ⟨tel, ref⟩) s (fun t =>
      let named := (List.range 8).filter (fun n => s.charter.regAddr.getD n 0 != 0)
      let lacks := named.any (fun n => (tel.getD n none).isNone)
      let eTel := (named.map (fun n => (tel.getD n none).getD 0)).sum
      t = { s.ticked with gov := t.gov, plt := { s.plt with
        refCode := ref.zeroExtend 16, refBad := t.plt.refBad, refOkAt := t.plt.refOkAt
        noTel := named.filter (fun n => (tel.getD n none).isNone) } } ∧
      t.gov.winTick = 0 ∧ t.gov.winEst = 0 ∧ t.gov.winLed = 0 ∧ t.gov.winFeed = 0 ∧ t.gov.work = s.gov.work ∧
      (named = [] → t.gov.residual = 0 ∧ t.gov.trim = s.gov.trim ∧ t.gov.frozen = false) ∧
      (named ≠ [] → lacks = true → t.gov.residual = 0 ∧ t.gov.trim = s.gov.trim ∧ t.gov.frozen = true ∧
        t.gov.carried = s.gov.carried) ∧
      (named ≠ [] → lacks = false →
        t.gov.residual = ((eTel : Int) - s.gov.winLed) * 16384000 + s.gov.carried ∧ t.gov.carried = 0 ∧ t.gov.frozen = false ∧
        (s.gov.winEst = 0 → t.gov.trim = s.gov.trim) ∧
        (0 < s.gov.winEst → ∃ n : Nat, t.gov.trim = Nat.max 0x3334 (Nat.min 0x5000 n) ∧
          2 * ((8 * s.gov.winEst * n : Nat) - (7 * s.gov.trim * s.gov.winEst + 16384 * eTel : Nat) : Int).natAbs
            ≤ 8 * s.gov.winEst)))) ∧
  -- GOV_SNAP_REQUEST; while a capture is in progress it is ignored
  (∀ s : State, Runs .govSnapRequest s (fun t =>
      (s.gov.snapReq = false → t = { s.ticked with gov := { s.gov with snapReq := true, snapValid := false, snapAt := s.time } }) ∧
      (s.gov.snapReq = true → t = s.ticked))) ∧
  -- GOV_SNAP_CAPTURE: at a tick boundary after the request, the values as that boundary's updates left them
  (∀ s : State, s.gov.snapReq = true → s.gov.started = true → s.gov.snapAt < s.gov.tickNo * 1000 →
    Runs .govSnapCapture s (fun t =>
      let u := settleTick s
      t = { u.ticked with gov := { u.gov with snapReq := false, snapValid := true }, regs := t.regs } ∧
      (rd t 0x00020204).toNat = u.gov.epoch % 2 ^ 32 ∧ rd64 t 0x00020208 0x0002020C = (s.gov.tickNo * 1000) % 2 ^ 64 ∧
      rd64 t 0x00020210 0x00020214 = u.gov.work % 2 ^ 48 ∧ rd64 t 0x00020218 0x0002021C = u.gov.feed % 2 ^ 48 ∧
      (∀ p < 8, rd t (0x00020240 + 8 * p) = BitVec.ofInt 32 ((u.acct p).spent / 65536) ∧
        rd t (0x00020244 + 8 * p) = BitVec.ofInt 32 ((u.acct p).carry / 65536))))

/-- R73 to R77: divergences, resynchronisation and heartbeats.
Where the manual is open it rests on the model's choices: log entry 22. -/
def Obligations.ComparatorEventsTakeEffect : Prop :=
  -- COMPARATOR_DIVERGENCE, of all that differs in one tick: the enabled places are counted once, the first of them is recorded, the
  -- more restrictive value of each channel 0 to 3 that differs is held and A's of the others, a resynchronisation starts
  (∀ (p : List DivAt) (a b : List Nat) (s : State), Instr.wf (.comparatorDivergence p a b) = true → comparing s = true →
    (∃ d ∈ p, divOn s d = true) → (∀ e, s.gov.lastResyncEnd = some e → e + 10000000 < s.time) →
    Runs (.comparatorDivergence p a b) s (fun t =>
      let on := (diffsOf p a b).filter (fun d => divOn s d.at_)
      t = { s.ticked with gov := t.gov, regs := t.regs, ras := t.ras, plt := { s.plt with clampAt := t.plt.clampAt } } ∧
      t.gov.resync = .waiting ∧
      (∃ d ∈ on, (∀ e ∈ on, divRank d.at_ ≤ divRank e.at_) ∧ t.gov.lastDiverge = divWord d.at_ true) ∧
      rdF t 0x00020044 0 16 = Nat.min (rdF s 0x00020044 0 16 + 1) 0xFFFF ∧
      rdF t 0x00020048 0 16 = Nat.min (rdF s 0x00020048 0 16 + 1) 0xFFFF ∧
      ∃ h, t.gov.held = some h ∧ stretchK t = h.k ∧
        (∀ d ∈ on, d.at_ = .channel 0 → h.clamp = true ∧
          let tgt := if d.a = 0 then d.b - 1 else if d.b = 0 then d.a - 1 else Nat.min d.a d.b - 1
          h.k = Nat.min s.gov.a.k (clampK s tgt) ∧ h.targetW ≤ tgt) ∧
        (∀ d ∈ on, d.at_ = .channel 1 → h.targetW ≤ Nat.min d.a d.b) ∧
        (∀ d ∈ on, d.at_ = .channel 2 → h.ceilMhz = Nat.min d.a d.b) ∧
        (∀ d ∈ on, d.at_ = .channel 3 → h.exhausted = (d.a ||| d.b)) ∧
        ((∀ d ∈ on, d.at_ ≠ .channel 0) → h.clamp = s.gov.a.clamp ∧ h.k = s.gov.a.k) ∧
        ((∀ d ∈ on, d.at_ ≠ .channel 0) → (∀ d ∈ on, d.at_ ≠ .channel 1) → h.targetW = s.gov.a.powerTargetW) ∧
        ((∀ d ∈ on, d.at_ ≠ .channel 2) → h.ceilMhz = s.gov.a.ceilMhz) ∧
        ((∀ d ∈ on, d.at_ ≠ .channel 3) → h.exhausted = flags8 (exhaustedNow s)))) ∧
  -- ... within 10 ms of a resynchronisation's end: COMPARATOR_LOST
  (∀ (p : List DivAt) (a b : List Nat) (e : Nat) (s : State), Instr.wf (.comparatorDivergence p a b) = true →
    comparing s = true → (∃ d ∈ p, divOn s d = true) → s.gov.lastResyncEnd = some e → s.time ≤ e + 10000000 →
    Runs (.comparatorDivergence p a b) s (fun t =>
      t = { s.ticked with gov := t.gov, regs := t.regs, ras := t.ras, plt := { s.plt with clampAt := t.plt.clampAt } } ∧
      t.gov.lost = true ∧ t.gov.limpPower = true ∧ t.gov.bHalted = true ∧ t.gov.resync = .none ∧ capW t = s.charter.limpCapW)) ∧
  -- LATENT_DIVERGENCE, of all that differs in one tick, none of it enabled: both counts; the sixteenth of the epoch starts a
  -- resynchronisation. A mismatch of channel 31 inside a heartbeat window is none
  (∀ (ds : List DivAt) (s : State), Instr.wf (.latentDivergence ds) = true → comparing s = true →
    (∀ d ∈ ds, divOn s d = false) → ((∃ d ∈ ds, d ≠ .channel 31) ∨ s.gov.injA = none ∧ s.gov.injB = none) →
    Runs (.latentDivergence ds) s (fun t =>
      t = { s.ticked with gov := t.gov, regs := t.regs } ∧
      rdF t 0x00020040 0 16 = Nat.min (rdF s 0x00020040 0 16 + 1) 0xFFFF ∧
      (∃ d ∈ ds, t.gov.lastDiverge = divWord d false) ∧
      t.gov.thisEpochLatent = Nat.min 16 (s.gov.thisEpochLatent + 1) ∧
      (t.gov.resync = .waiting ↔ s.gov.thisEpochLatent = 15 ∨ (16 < s.gov.thisEpochLatent)))) ∧
  (∀ s : State, (s.gov.injA ≠ none ∨ s.gov.injB ≠ none) → Runs (.latentDivergence [.channel 31]) s (fun t => t = s.ticked)) ∧
  -- RESYNC_HALF_FRAME, RESYNC_COPY_DONE, RESYNC_COMPLETE
  (∀ s : State, s.gov.resync = .waiting → s.time % 500000 = 0 → Runs .resyncHalfFrame s (fun t =>
      t = { s.ticked with gov := { s.gov with resync := .copying, bHalted := true, resyncAt := s.time + 12288 } })) ∧
  (∀ s : State, s.gov.resync = .copying → s.gov.resyncAt ≤ s.time → s.time % 1000 = 0 → Runs .resyncCopyDone s (fun t =>
      t = { s.ticked with gov := { s.gov with resync := .restarting, bHalted := false, b := s.gov.a,
                                              resyncAt := s.time + 1000 } })) ∧
  (∀ s : State, s.gov.resync = .restarting → s.gov.resyncAt ≤ s.time → Runs .resyncComplete s (fun t =>
      t = { s.ticked with gov := { s.gov with resync := .none, held := none, lastResyncEnd := some s.time }, regs := t.regs } ∧
      stretchK t = s.gov.a.k ∧ (s.gov.held = none → t.regs = s.regs))) ∧
  -- HEARTBEAT_INJECT at 250 us (A) and 750 us (B) of the frame; HEARTBEAT_FLAGGED within 2 ticks; HEARTBEAT_DEADLINE after them:
  -- COMPARATOR_LOST
  (∀ (g : Gv) (s : State), s.gov.started = true → s.gov.lost = false → s.gov.resync = .none →
    s.time % 1000000 = (match g with | .a => 250000 | .b => 750000) → Runs (.heartbeatInject g) s (fun t =>
      t = { s.ticked with gov := { s.gov with injA := if g = .a then some s.time else s.gov.injA,
                                              injB := if g = .b then some s.time else s.gov.injB } })) ∧
  (∀ (g : Gv) (e : Nat) (s : State), (match g with | .a => s.gov.injA | .b => s.gov.injB) = some e → s.time ≤ e + 2000 →
    Runs (.heartbeatFlagged g) s (fun t =>
      t = { s.ticked with gov := t.gov } ∧ t.gov.beats = (s.gov.beats + 1) % 65536 ∧
      (match g with | .a => t.gov.aOk = true ∧ t.gov.injA = none | .b => t.gov.bOk = true ∧ t.gov.injB = none))) ∧
  (∀ (g : Gv) (e : Nat) (s : State), (match g with | .a => s.gov.injA | .b => s.gov.injB) = some e → e + 2000 ≤ s.time →
    Runs (.heartbeatDeadline g) s (fun t =>
      t = { s.ticked with gov := t.gov, regs := t.regs, ras := t.ras } ∧ t.gov.lost = true ∧ t.gov.limpPower = true ∧
      (match g with | .a => t.gov.aOk = false | .b => t.gov.bOk = false)))

/-- R354, R78, R103, R375, R286: voting. R57, R353: a parity mismatch is raised once, and repaired; with its repair source lost,
cfg_lost is set.
Where the manual is open it rests on the model's choices: log entries 13, 36. -/
def Obligations.VotedAndParityFieldsAreRepaired : Prop :=
  (-- one copy disagrees: it is corrected to the other two, counted and logged
     (∀ (f : TrvField) (v a b c : Nat) (s : State),
       (a = v ∧ b = v ∧ c ≠ v ∨ a = v ∧ c = v ∧ b ≠ v ∨ b = v ∧ c = v ∧ a ≠ v) → Runs (.trvUpset f a b c) s (fun t =>
         trvOf t f = ⟨v, v, v, v⟩ ∧ t = { s.ticked with gov := t.gov, plt := t.plt, sch := t.sch, hq := t.hq, regs := t.regs,
                                                        ras := t.ras } ∧
         (∀ r, (trvReg f).2 = some r → rdF t r 0 16 = Nat.min (rdF s r 0 16 + 1) 0xFFFF) ∧
         rdF t 0x00800104 0 16 = Nat.min (rdF s 0x00800104 0 16 + 1) 0xFFFF)) ∧
     -- three that agree: nothing
     (∀ (f : TrvField) (v : Nat) (s : State), Runs (.trvUpset f v v v) s (fun t => t = s.ticked)) ∧
     -- no two agree: a field of Charter origin is reloaded from the shadow
     (∀ (f : TrvField) (a b c v : Nat) (s : State), a ≠ b → b ≠ c → a ≠ c → trvShadow s f = some v →
       Runs (.trvUpset f a b c) s (fun t => trvOf t f = ⟨v, v, v, v⟩ ∧ t.mem = s.mem ∧ t.cores = s.cores)) ∧
     -- ... the skew has none: COMPARATOR_LOST
     (∀ (a b c : Nat) (s : State), a ≠ b → b ≠ c → a ≠ c → Runs (.trvUpset .skew a b c) s (fun t =>
         t.gov.lost = true ∧ t.gov.limpPower = true ∧ t.mem = s.mem ∧ t.cores = s.cores)) ∧
     -- ... a queue slot's function field: reported twice; the queue that held the slot goes back to its first command that has not
     -- started; the slot is empty, or a queue with unconsumed commands has taken it anew
     (∀ (k : Fin 64) (a b c : Nat) (s : State), a ≠ b → b ≠ c → a ≠ c → Runs (.trvUpset (.qslot k) a b c) s (fun t =>
         rdF t 0x00800104 0 16 = Nat.min (rdF s 0x00800104 0 16 + 1) 0xFFFF ∧
         rdF t 0x00800118 0 16 = Nat.min (rdF s 0x00800118 0 16 + 1) 0xFFFF ∧
         (t.qslot k = {} ∨ ∃ f q, (t.qslot k).valid = true ∧ (t.qslot k).fn = ⟨f, f, f, f⟩ ∧ (t.qslot k).q = q ∧
           (t.queue f q).slot = some k.val) ∧
         (∀ f q, slotQueue s k = some (f, q) → (t.queue f q).cmds = (s.queue f q).cmds.takeWhile (·.started)) ∧
         t.mem = s.mem))) ∧
  (-- PARITY_SCAN with one hit on a register of the repair list: raised and noted; a value whose shadow entries are lost is kept
     (∀ (h : ParityHit) (s : State), h.addr % 4 = 0 → (charterMask h.addr ≠ 0 ∨ isP h.addr = true) →
       (∀ x ∈ s.ras.parity, x.addr ≠ h.addr) → Runs (.parityScan [h]) s (fun t =>
         t.ras.parity = s.ras.parity ++ [effHit s h] ∧ t.mem = s.mem ∧ t.gov = s.gov ∧ t.plt = s.plt ∧
         (copyGone h = false → t.cores = s.cores ∧ rdF t 0x00800100 0 16 = Nat.min (rdF s 0x00800100 0 16 + 1) 0xFFFF) ∧
         (shadowGone (effHit s h) = true → t.ras.keep.get none h.addr = some h.held) ∧
         (shadowGone (effHit s h) = false → t.ras.keep.get none h.addr = s.ras.keep.get none h.addr))) ∧
     -- ... one that waits for its repair already: nothing
     (∀ (h : ParityHit) (s : State), h.addr % 4 = 0 → (∃ x ∈ s.ras.parity, x.addr = h.addr) →
       Runs (.parityScan [h]) s (fun t => t = s.ticked)) ∧
     -- PARITY_REPAIR
     (∀ (h : ParityHit) (s : State), s.ras.parity.find? (fun x => x.addr == h.addr) = some h → Runs (.parityRepair h.addr) s (fun t =>
         t = { s.ticked with ras := { s.ras with parity := t.ras.parity }, regs := t.regs, gov := t.gov, boot := t.boot } ∧
         (∀ x ∈ t.ras.parity, x.addr ≠ h.addr) ∧
         (shadowGone h = true → t.boot.shadowLost = true ∧ t.gov.limpPower = true ∧ rdB t 0x00800000 0 = true) ∧
         (shadowGone h = false → t.boot = s.boot ∧ t.gov = s.gov) ∧
         (copyGone h = true → rdB t 0x00800000 0 = true) ∧
         (shadowGone h = false → copyGone h = false → t.regs = s.regs))))

/-! ## Plant -/

/-- R98, R90, R100, R101, R102: the clamp's release, the reservoir's loop, count and reconciliation.
Where the manual is open it rests on the model's choices: log entries 24, 25. -/
def Obligations.ClampAndReservoirRowsTakeEffect : Prop :=
  -- CLAMP_RELEASE: the excess is repaid and 200 samples were at or below the target
  (∀ s : State, plantRuns s = true → s.gov.a.clamp = true → s.gov.a.excess = 0 → 200 ≤ s.gov.a.relCnt →
    Runs .clampRelease s (fun t =>
      t = { s.ticked with gov := t.gov, plt := { s.plt with kStepAt := s.time }, regs := t.regs } ∧
      t.gov.a = { s.gov.a with clamp := false, relCnt := 0, k := Nat.min 16 (s.gov.a.k + 1) } ∧ t.gov.held = s.gov.held)) ∧
  -- CLAMP_K_STEP: k rises by 1 every 10 us until it is 16
  (∀ s : State, plantRuns s = true → s.gov.a.clamp = false → s.gov.a.k < 16 → s.plt.kStepAt + 10000 ≤ s.time →
    Runs .clampKStep s (fun t =>
      t = { s.ticked with gov := t.gov, plt := { s.plt with kStepAt := s.time }, regs := t.regs } ∧
      t.gov.a = { s.gov.a with k := s.gov.a.k + 1 } ∧ t.gov.held = s.gov.held)) ∧
  -- RESERVOIR_LOOP: the request stays within the recharge limit; a due reconciliation sets the count to E_v, unless a
  -- reservoir-ADC loss freezes it
  (∀ s : State, plantRuns s = true → s.charter.usableLu ≠ 0 → Runs .reservoirLoop s (fun t =>
      t = { s.ticked with gov := t.gov, plt := t.plt, regs := t.regs } ∧
      0 ≤ t.gov.a.cReq ∧ t.gov.a.cReq ≤ (s.plt.lim1.vote : Int) * 65536 ∧
      (if s.plt.dueAt.isSome ∧ s.plt.convOk = true ∧ 10000 ≤ s.plt.quiet ∧ s.plt.active.contains .resAdc = false then
        t.plt.coulomb = eVolt s.charter.usableLu s.plt.resV s.plt.vFull.toNat s.plt.vEmpty.toNat ∧ t.plt.dueAt = none ∧
        t.plt.lastRec = s.time ∧ rdF t 0x0003002C 0 16 = Nat.min (rdF s 0x0003002C 0 16 + 1) 65535
      else t.plt.coulomb = s.plt.coulomb ∧ t.plt.dueAt = s.plt.dueAt ∧ t.regs = s.regs))) ∧
  -- RECONCILE_DUE: a full-charge event, or 10 minutes
  (∀ s : State, plantRuns s = true → s.charter.usableLu ≠ 0 → s.plt.dueAt = none →
    (s.plt.convOk = true ∧ 31840 * s.plt.vFull.toNat ≤ 100000 * s.plt.resV ∨ s.plt.lastRec + 600000000000 ≤ s.time) →
    Runs .reconcileDue s (fun t => t = { s.ticked with plt := { s.plt with dueAt := some s.time } })) ∧
  -- RECONCILE_SKIP: counted after 60 s
  (∀ (d : Nat) (s : State), s.plt.dueAt = some d → d + 60000000000 ≤ s.time → Runs .reconcileSkip s (fun t =>
      t = { s.ticked with plt := { s.plt with dueAt := none, lastRec := s.time }, regs := t.regs } ∧
      rdF t 0x00030030 0 16 = Nat.min (rdF s 0x00030030 0 16 + 1) 0xFFFF)) ∧
  -- RESERVOIR_ADC_SAMPLE: the count adds the sample's energy within 0 to reservoir_usable_lu; frozen during a reservoir-ADC loss
  (∀ (v i : BitVec 12) (s : State), plantRuns s = true → s.charter.usableLu ≠ 0 → Runs (.reservoirAdcSample v i) s (fun t =>
      t = { s.ticked with plt := t.plt } ∧ t.plt.resV = v.toNat ∧ t.plt.resI = i.toInt ∧
      (s.plt.active.contains .resAdc = false → (t.plt.coulomb : Int)
        = max 0 (min ((s.charter.usableLu : Int) * 65536) ((s.plt.coulomb : Int) - (v.toNat : Int) * i.toInt * 10))) ∧
      (s.plt.active.contains .resAdc = true → t.plt.coulomb = s.plt.coulomb)))

/-- R87, R89, R90, R95: pump, valve, voltage and sensor loops.
Where the manual is open it rests on the model's choices: log entries 14, 17, 25. -/
def Obligations.CoolantVoltageAndSensorRowsTakeEffect : Prop :=
  -- PUMP_LOOP: the duty stays between PLANT.pump_min_pct and 100 %
  (∀ (rpm : W16) (s : State), plantRuns s = true → s.charter.isLimp = false → roleTemps s 2 ≠ [] → s.plt.lim4.vote ≤ 100 →
    Runs (.pumpLoop rpm) s (fun t =>
      t = { s.ticked with gov := t.gov, plt := { s.plt with rpm := rpm } } ∧
      (s.plt.lim4.vote : Int) * 1048576 ≤ t.gov.a.pumpDuty ∧ t.gov.a.pumpDuty ≤ 100 * 1048576)) ∧
  -- VALVE_LOOP: the bypass stays between 0 and 100 %, and closed where valve_mode is 0
  (∀ s : State, plantRuns s = true → Runs .valveLoop s (fun t =>
      t = { s.ticked with gov := t.gov } ∧ 0 ≤ t.gov.a.valveDuty ∧ t.gov.a.valveDuty ≤ 100 * 1048576 ∧
      (s.charter.valveMode = 0 → t.gov.a.valveDuty = 0))) ∧
  -- VOLTAGE_LOOP: a trim within 50 mV; held from the third unacknowledged frame in a row
  (∀ (n : Fin 8) (slack : Int) (ack : Bool) (s : State), plantRuns s = true → s.charter.regAddr.getD n 0 ≠ 0 →
    Runs (.voltageLoop n slack ack) s (fun t =>
      t = { s.ticked with gov := t.gov, plt := t.plt } ∧
      t.gov.a.nak.get 0 n = (if ack then 0 else s.gov.a.nak.get 0 n + 1) ∧
      (t.gov.a.nak.get 0 n < 3 →
        -50 * 65536 ≤ t.gov.a.trim.get 0 n ∧ t.gov.a.trim.get 0 n ≤ 50 * 65536) ∧
      (3 ≤ t.gov.a.nak.get 0 n → t.gov.a.trim = s.gov.a.trim) ∧
      (∀ m : Fin 8, m ≠ n → t.gov.a.trim.get 0 m = s.gov.a.trim.get 0 m))) ∧
  -- SENSOR_POLL: a reading is taken; the third failed read in a row makes a sensor invalid
  (∀ (r : List (Option Int)) (s : State), r.length = 8 → plantRuns s = true → Runs (.sensorPoll r) s (fun t =>
      t = { s.ticked with plt := t.plt } ∧
      ∀ n < 8,
        ((s.plt.sensors.get {} n).enumerated = false → t.plt.sensors.get {} n = s.plt.sensors.get {} n) ∧
        (∀ v, (s.plt.sensors.get {} n).enumerated = true → r.getD n none = some v →
          (t.plt.sensors.get {} n).temp = v ∧ (t.plt.sensors.get {} n).fails = 0 ∧
          (t.plt.sensors.get {} n).valid = ((s.plt.sensors.get {} n).valid || !lossOn s (.temp (Fin.ofNat 8 n)))) ∧
        ((s.plt.sensors.get {} n).enumerated = true → r.getD n none = none →
          (t.plt.sensors.get {} n).temp = (s.plt.sensors.get {} n).temp ∧
          (t.plt.sensors.get {} n).fails = (s.plt.sensors.get {} n).fails + 1 ∧
          (2 ≤ (s.plt.sensors.get {} n).fails → (t.plt.sensors.get {} n).valid = false)))) ∧
  -- INLET_OVER and INLET_OVER_CLEAR: after 10 s
  (∀ (d : Nat) (s : State), s.plt.inletOver = false → s.plt.overSince = some d → d + 10000000000 ≤ s.time →
    Runs .inletOver s (fun t => t = { s.ticked with plt := { s.plt with inletOver := true } })) ∧
  (∀ (d : Nat) (s : State), s.plt.inletOver = true → s.plt.underSince = some d → d + 10000000000 ≤ s.time →
    Runs .inletOverClear s (fun t => t = { s.ticked with plt := { s.plt with inletOver := false } }))

/-- R93, R94: droop stretch and junction throttle.
Where the manual is open it rests on the model's choices: log entry 25. -/
def Obligations.DroopAndJunctionRowsTakeEffect : Prop :=
  (∀ (c : CoreId) (s : State), s.plt.droop.get false c = false → Runs (.droopStretch c) s (fun t =>
      t = { s.ticked with plt := { s.plt with droop := t.plt.droop }, regs := t.regs } ∧
      rd t 0x000300B4 = rd s 0x000300B4 + 1 ∧
      ∀ d : CoreId, t.plt.droop.get false d = (decide (d = c) || s.plt.droop.get false d))) ∧
  (∀ (c : CoreId) (s : State), Runs (.droopRelease c) s (fun t =>
      t = { s.ticked with plt := { s.plt with droop := t.plt.droop } } ∧
      ∀ d : CoreId, t.plt.droop.get false d = (decide (d ≠ c) && s.plt.droop.get false d))) ∧
  -- JUNCTION_READ: the readings; 110 C drops the core's ceiling to 400 MHz at once
  (∀ (r : List (Option Int)) (s : State), r.length = 32 → plantRuns s = true → Runs (.junctionRead r) s (fun t =>
      t = { s.ticked with plt := t.plt } ∧
      ∀ c < 32, t.plt.junction.get (some 0) c = r.getD c none ∧
        t.plt.jCeil.get 1800 c = (if (r.getD c none).any (fun x => 1760 ≤ x) then Nat.min 400 (s.plt.jCeil.get 1800 c)
          else s.plt.jCeil.get 1800 c))) ∧
  -- JUNCTION_CEILING_STEP: 100 MHz down while hot, 100 MHz up once cool
  (∀ (c : CoreId) (s : State), plantRuns s = true → jClass s c = 2 → s.plt.jStep.get 0 c + 100000 ≤ s.time →
    Runs (.junctionCeilingStep c) s (fun t =>
      t = { s.ticked with plt := t.plt } ∧ t.plt.jCeil.get 1800 c = Nat.max 400 (s.plt.jCeil.get 1800 c - 100) ∧
      ∀ d : CoreId, d ≠ c → t.plt.jCeil.get 1800 d = s.plt.jCeil.get 1800 d)) ∧
  (∀ (c : CoreId) (s : State), plantRuns s = true → jClass s c = 0 → s.plt.jStep.get 0 c + 1000000 ≤ s.time →
    Runs (.junctionCeilingStep c) s (fun t =>
      t = { s.ticked with plt := t.plt } ∧ t.plt.jCeil.get 1800 c = Nat.min 1800 (s.plt.jCeil.get 1800 c + 100) ∧
      ∀ d : CoreId, d ≠ c → t.plt.jCeil.get 1800 d = s.plt.jCeil.get 1800 d))

/-- R102: a loss is raised, its bit set, counted and answered once; the response ends with its source valid.
Where the manual is open it rests on the model's choices: log entries 24, 25. -/
def Obligations.PlantLossesAreRaisedAndEnded : Prop :=
  -- SENSOR_LOST
  (∀ (l : Loss) (s : State), plantRuns s = true → lossOn s l = false → lossSeen s l = true → Runs (.sensorLost l) s (fun t =>
      t = { s.ticked with plt := t.plt, regs := t.regs, ras := t.ras } ∧
      t.plt.active = s.plt.active ++ [l] ∧ rdB t 0x00030004 (lossBit l) = true ∧
      rdF t 0x00030008 0 16 = Nat.min (rdF s 0x00030008 0 16 + 1) 0xFFFF)) ∧
  -- FLOW_GATE: the flow, and good and bad gates in a row
  (∀ (n : Nat) (s : State), plantRuns s = true → s.charter.flowPpl ≠ 0 → Runs (.flowGate n) s (fun t =>
      t = { s.ticked with plt := { s.plt with mlMin := n * 60000 / s.charter.flowPpl, badGates := t.plt.badGates,
                                              goodGates := t.plt.goodGates } } ∧
      (n = 0 → t.plt.badGates = s.plt.badGates + 1 ∧ t.plt.goodGates = 0) ∧
      (n ≠ 0 → 1000 ≤ n * 60000 / s.charter.flowPpl → t.plt.badGates = 0 ∧ t.plt.goodGates = s.plt.goodGates + 1) ∧
      (n ≠ 0 → n * 60000 / s.charter.flowPpl < 1000 →
        if (s.plt.lim4.vote : Int) * 1048576 ≤ pumpEffect s then t.plt.badGates = s.plt.badGates + 1 ∧ t.plt.goodGates = 0
        else t.plt.badGates = 0 ∧ t.plt.goodGates = s.plt.goodGates + 1))) ∧
  -- LOSS_RESPONSE_END
  (∀ (l : Loss) (s : State), lossOn s l = true → lossOver s l = true → Runs (.lossResponseEnd l) s (fun t =>
      t = { s.ticked with plt := t.plt } ∧ lossOn t l = false ∧ (∀ k, k ≠ l → lossOn t k = lossOn s k))) ∧
  -- a lost converter keeps its response until the chip reset
  (∀ s : State, Runs (.lossResponseEnd .conv) s (fun t => t = s.ticked))

/-! ## Clause streams -/

/-- R110, R121: what each SCALAR row puts in flight, from scalars a, b and imm32, and the cycle it lands in. `r.2.2.2`
takes the engine, chip time and the slot's word.
Where the manual is open it rests on the model's choices: log entry 58. -/
def Obligations.ClauseScalarRowsLandResults : Prop :=
  ∀ r ∈ ([
      (.add, 1, 1, fun y _ w => y.sc (fld w 13 5) + (y.sc (fld w 18 5) + sImm64 w)),
      (.sub, 2, 1, fun y _ w => y.sc (fld w 13 5) - (y.sc (fld w 18 5) + sImm64 w)),
      (.and, 3, 1, fun y _ w => y.sc (fld w 13 5) &&& (y.sc (fld w 18 5) + sImm64 w)),
      (.or, 4, 1, fun y _ w => y.sc (fld w 13 5) ||| (y.sc (fld w 18 5) + sImm64 w)),
      (.xor, 5, 1, fun y _ w => y.sc (fld w 13 5) ^^^ (y.sc (fld w 18 5) + sImm64 w)),
      (.shl, 6, 1, fun y _ w => y.sc (fld w 13 5) <<< ((y.sc (fld w 18 5) + sImm64 w).toNat % 64)),
      (.shr, 7, 1, fun y _ w => y.sc (fld w 13 5) >>> ((y.sc (fld w 18 5) + sImm64 w).toNat % 64)),
      (.mul, 8, 3, fun y _ w => y.sc (fld w 13 5) * y.sc (fld w 18 5)),
      (.movi, 9, 1, fun _ _ w => BitVec.ofInt 64 (sgn (fld w 32 32) 32)),
      (.movhi, 10, 1, fun y _ w => BitVec.ofNat 64 ((y.sc (fld w 8 5)).toNat % 2 ^ 32 + fld w 32 32 * 2 ^ 32)),
      (.rdag, 13, 1, fun y _ w => (y.gen (fld w 13 5 % 8)).addr),
      (.rdtime, 14, 1, fun _ now _ => BitVec.ofNat 64 now)]
      : List ((CoreId → CE → Instr) × Nat × Nat × (ClEng → Nat → Nat → W64))),
    ∀ (c : CoreId) (e : CE) (i : Nat) (w : W64) (s : State), s.heads c e .scalar r.2.1 i w → Runs (r.1 c e) s (fun t =>
      OnlyEngine s t c e ∧ (t.eng c e).issuing = (s.eng c e).issuing.tail ∧
      (t.eng c e).scal = (s.eng c e).scal ∧ (t.eng c e).lc = (s.eng c e).lc ∧
      (t.eng c e).inflight = insLand (s.eng c e).inflight
        ⟨(s.eng c e).now + r.2.2.1, (s.eng c e).now, i, .scal (fld w.toNat 8 5) (r.2.2.2 (s.eng c e) s.time w.toNat)⟩)

/-- R110, R121: STS puts 8 bytes in flight for the local store; LDS reads 8 bytes of it, which land at t + 14.
Where the manual is open it rests on the model's choices: log entry 60. -/
def Obligations.ClauseLocalStoreRowsTakeEffect : Prop :=
  (∀ (c : CoreId) (e : CE) (i : Nat) (w : W64) (s : State), s.heads c e .scalar 12 i w → Runs (.sts c e) s (fun t =>
      OnlyEngine s t c e ∧ (t.eng c e).scal = (s.eng c e).scal ∧
      (t.eng c e).inflight = insLand (s.eng c e).inflight ⟨(s.eng c e).now + 6, (s.eng c e).now, i,
        .ls ((s.eng c e).sc (fld w.toNat 13 5) + sImm64 w.toNat).toNat (leBytes 8 ((s.eng c e).sc (fld w.toNat 18 5)).toNat)⟩)) ∧
  (∀ (c : CoreId) (e : CE) (i pa : Nat) (w : W64) (s : State), s.heads c e .scalar 11 i w →
    (∀ l ∈ (s.eng c e).inflight, l.isLs = false) →
    lsAddr s c (s.eng c e).ctx ((s.eng c e).sc (fld w.toNat 13 5) + sImm64 w.toNat).toNat 8 = some pa →
    poisoned s pa 8 = false → Runs (.lds c e) s (fun t =>
      t = { s.ticked with cores := t.cores, mon := t.mon } ∧ (t.eng c e).scal = (s.eng c e).scal ∧
      (t.eng c e).inflight = insLand (s.eng c e).inflight ⟨(s.eng c e).now + 14, (s.eng c e).now, i,
        .scal (fld w.toNat 8 5) (BitVec.ofNat 64 (leNat (memBytes s pa 8)))⟩))

/-- R118, R119, R110: the fields of a generator that each AGU row puts in flight, landing at t + 2; the generator does
not also advance with this execution (R120).
Where the manual is open it rests on the model's choices: log entries 57, 66. -/
def Obligations.ClauseAguRowsLandGenerators : Prop :=
  ∀ r ∈ ([
      (.agLin, 1, fun y w g => { g with start := y.sc (fld w 11 5) + sImm64 w, addr := y.sc (fld w 11 5) + sImm64 w }),
      (.agNoun, 2, fun y w g => { g with start := BitVec.ofNat 64 (y.noun (fld w 16 12)).base + sImm64 w,
                                         addr := BitVec.ofNat 64 (y.noun (fld w 16 12)).base + sImm64 w }),
      (.agIdx, 3, fun y w g => { g with idx := y.noun (fld w 16 12), rowBase := y.sc (fld w 11 5), rowStride := sImm64 w }),
      (.agStep0, 4, fun _ w g => { g with step0 := sImm64 w, count0 := BitVec.ofNat 16 (fld w 16 16) }),
      (.agStep1, 5, fun _ w g => { g with step1 := sImm64 w }),
      (.agAdd, 6, fun y w g => { g with addr := g.addr + y.sc (fld w 11 5) + sImm64 w,
                                        pos := g.pos + BitVec.ofNat 32 (fld w 32 32) }),
      (.agReset, 7, fun _ _ g => g)]
      : List ((CoreId → CE → Instr) × Nat × (ClEng → Nat → Agu → Agu))),
    ∀ (c : CoreId) (e : CE) (i : Nat) (w : W64) (s : State), s.heads c e .agu r.2.1 i w → Runs (r.1 c e) s (fun t =>
      OnlyEngine s t c e ∧ (t.eng c e).scal = (s.eng c e).scal ∧ (t.eng c e).lc = (s.eng c e).lc ∧
      (t.eng c e).inflight = insLand (s.eng c e).inflight ⟨(s.eng c e).now + 2, (s.eng c e).now, i,
        .gen (fld w.toNat 8 3) r.2.1 (r.2.2 (s.eng c e) w.toNat ((s.eng c e).gen (fld w.toNat 8 3)))⟩ ∧
      ((s.eng c e).issuing.length ≠ 1 → fld w.toNat 8 3 ∈ (t.eng c e).aguSet ∧ (t.eng c e).ag = (s.eng c e).ag))

/-- R110, R113: CTRL acts with the last execution. A taken branch goes to this clause's address plus 8 x offset and costs three
cycles; the next clause follows otherwise. R118 to R120: with the last slot of an execution the generators that agstep names and
no AGU slot wrote advance, and the next execution or clause is scheduled (stated of MOVI as the last slot). -/
def Obligations.ClauseControlRowsBranchAndExecutionsEnd : Prop :=
  (∀ (c : CoreId) (e : CE) (i : Nat) (w : W64) (k : Clause) (s : State), s.closes c e k →
       let y := s.eng c e
       let goes (t : State) (b : Bool) : Prop :=
         (t.eng c e).pc = (if b then wrapA ((y.pc : Int) + 8 * sgn (fld w.toNat 32 32) 32) else k.addr + k.len) ∧
         (t.eng c e).next = y.now + (if b then 3 else 1) ∧ (t.eng c e).clause = none ∧ (t.eng c e).ending = k.isEnd ∧
         OnlyEngine s t c e ∧ (t.eng c e).scal = y.scal
       (s.heads c e .ctrl 1 i w → Runs (.jmp c e) s (fun t => goes t true ∧ (t.eng c e).inflight = y.inflight)) ∧
       (s.heads c e .ctrl 2 i w → Runs (.brz c e) s (fun t =>
         goes t (y.sc (fld w.toNat 8 5) == 0) ∧ (t.eng c e).inflight = y.inflight)) ∧
       (s.heads c e .ctrl 3 i w → Runs (.brnz c e) s (fun t =>
         goes t (y.sc (fld w.toNat 8 5) != 0) ∧ (t.eng c e).inflight = y.inflight)) ∧
       (s.heads c e .ctrl 4 i w → Runs (.loop c e) s (fun t =>
         goes t (y.lc.get 0 (fld w.toNat 13 2) - 1 != 0) ∧
         (t.eng c e).inflight = insLand y.inflight ⟨y.now + 1, y.now, i, .lc (fld w.toNat 13 2) (y.lc.get 0 (fld w.toNat 13 2) - 1)⟩)) ∧
       (s.heads c e .ctrl 5 i w → Runs (.setlc c e) s (fun t =>
         goes t false ∧
         (t.eng c e).inflight = insLand y.inflight ⟨y.now + 1, y.now, i, .lc (fld w.toNat 13 2) (BitVec.ofNat 16 (fld w.toNat 16 16))⟩))) ∧
  (∀ (c : CoreId) (e : CE) (i : Nat) (w : W64) (k : Clause) (s : State), s.heads c e .scalar 9 i w →
       (s.eng c e).issuing.length = 1 → (s.eng c e).clause = some k → Runs (.movi c e) s (fun t =>
         let y := s.eng c e
         (∀ n < 8, (t.eng c e).gen n
           = if bit k.agstep n = true ∧ n ∉ y.aguSet then (y.gen n).advance else y.gen n) ∧
         (y.done + 1 < k.execs → (t.eng c e).clause = some k ∧ (t.eng c e).done = y.done + 1 ∧
           (t.eng c e).next = y.now + k.interval ∧ (t.eng c e).pc = y.pc) ∧
         (k.execs ≤ y.done + 1 → (t.eng c e).clause = none ∧ (t.eng c e).done = 0 ∧ (t.eng c e).ending = k.isEnd ∧
           (t.eng c e).next = y.now + (if y.taken then 3 else 1) ∧ (t.eng c e).pc = y.branch.getD (k.addr + k.len))))

/-- R121 to R123, R137, R141: RESULT_LAND moves the earliest result in flight into its resource.
Where the manual is open it rests on the model's choices: log entry 55. -/
def Obligations.ResultLandReachesItsResource : Prop :=
  ∀ (c : CoreId) (e : CE) (l : Land) (r : List Land) (s : State), (s.eng c e).inflight = l :: r → s.clocked = true →
    (s.eng c e).issuing = [] →
    (l.at_ ≤ (s.eng c e).next ∨ (s.eng c e).between = true ∨ l.issued < (s.eng c e).first ∨ (s.eng c e).live = false) →
    Runs (.resultLand c e) s (fun t =>
      (t.eng c e).inflight = r ∧ t.time = s.time ∧ t.boot = s.boot ∧ t.flash = s.flash ∧ t.pending = s.pending ∧
      (∀ d v, l.w = .scal d v → (t.eng c e).scal.get 0 d = (if d = 0 then (s.eng c e).scal.get 0 0 else v) ∧
        (∀ k, k ≠ d → (t.eng c e).scal.get 0 k = (s.eng c e).scal.get 0 k) ∧ t.mem = s.mem) ∧
      (∀ n op v, l.w = .gen n op v → (t.eng c e).gen n = ((s.eng c e).gen n).take v op ∧ t.mem = s.mem) ∧
      (∀ n v, l.w = .lc n v → (t.eng c e).lc.get 0 n = v ∧ t.mem = s.mem) ∧
      (∀ b row f lanes, l.w = .buf b row f lanes →
        (t.core c).bufs.get {} b = ((s.core c).bufs.get {} b).load row f lanes ∧ t.mem = s.mem) ∧
      (∀ row f lanes, l.w = .held row f lanes → (t.core c).heldRows = (s.core c).heldRows.load row f lanes) ∧
      (∀ rf lanes, l.w = .shift rf lanes →
        (t.core c).heldRows = { (s.core c).heldRows with rowFmt := rf, lanes := lanes } ∧ t.mem = s.mem) ∧
      (∀ b, l.w = .zero b → (t.core c).banks.get {} b = {} ∧
        ∀ k, k ≠ b → (t.core c).banks.get {} k = (s.core c).banks.get {} k) ∧
      (∀ id m, l.w = .mma id → (s.eng c e).mmas.find? (fun x => x.id == id) = some m →
        (t.core c).banks.get {} m.bank = (mmaBank m).1 ∧
        ∀ k, k ≠ m.bank → (t.core c).banks.get {} k = (s.core c).banks.get {} k) ∧
      (∀ id row d, l.w = .drain id row → (s.eng c e).drains.find? (fun x => x.id == id) = some d →
        t.mem = (drainRow (s.setEng c e { s.eng c e with inflight := r }) (.ls c (s.eng c e).ctx) d.noun d.base row
          (d.cap.getD row (false, [])).1 (d.cap.getD row (false, [])).2).1.mem) ∧
      (∀ off bs pa, l.w = .ls off bs → lsAddr s c (s.eng c e).ctx off bs.length = some pa → s.poison = [] →
        (∀ j < bs.length, memByte t (pa + j) = bs.getD j 0) ∧
        ∀ a, (a < pa ∨ pa + bs.length ≤ a) → look t.mem a = look s.mem a))

/-- R114, R254, R255: WAIT goes on where the value has been reached, and is registered where not.
Where the manual is open it rests on the model's choices: log entries 39, 42. -/
def Obligations.ClauseWaitIsSatisfiedOrRegistered : Prop :=
  (∀ (c : CoreId) (e : CE) (k : Clause) (w : W64) (s : State), s.waitsOn c e k 2 w → Runs (.wait c e) s (fun t =>
    let y := s.eng c e
    let n := fld w.toNat 8 9
    let v := BitVec.ofNat 32 (fld w.toNat 32 32)
    (v ≤ (s.conj y.ctx n).value → t.eng c e = { y with waitOk := true } ∧ t.syn.waiters = s.syn.waiters ∧
      (t.conj y.ctx n).shortPending = false) ∧
    (¬ v ≤ (s.conj y.ctx n).value → t = { s.ticked with syn := t.syn, cores := t.cores } ∧
      t.eng c e = { y with waiting := some (.conj y.ctx n, v), st := .held } ∧
      t.syn.waiters = s.syn.waiters ++ [{ obj := .conj y.ctx n, target := v, eng := engId c (CE.eng e), punnet := 0,
                                          ctx := y.ctx, since := s.time }]))) ∧
  -- BW.WAIT and GB.WAIT, once the stream's own arrivals have been performed
  (∀ (grp : Bool) (c : CoreId) (e : CE) (k : Clause) (w : W64) (s : State), s.waitsOn c e k (if grp then 6 else 4) w →
    arrivalDue (s.eng c e) = false → Runs (if grp then .gbWait c e else .bwWait c e) s (fun t =>
      let y := s.eng c e
      let n := fld w.toNat 17 6
      let o : Obj := if grp then .group y.ctx n else .wire n
      let mine := grp = true ∨ ((s.wire n).valid = true ∧ (s.wire n).ctx.toNat = y.ctx)
      (¬ mine → (t.eng c e).waitOk = true ∧ rdF t 0x0040082C 0 16 = Nat.min (rdF s 0x0040082C 0 16 + 1) 0xFFFF) ∧
      (∀ g, mine → y.arrival = some (o, g) → g < genOf s o → (t.eng c e).waitOk = true ∧ t.syn = s.syn ∧ t.regs = s.regs) ∧
      (∀ g, mine → y.arrival = some (o, g) → ¬ g < genOf s o → (t.eng c e).st = .held ∧
        t.syn.waiters = s.syn.waiters ++ [{ obj := o, target := 0, eng := engId c (CE.eng e), punnet := 0, ctx := y.ctx,
                                            since := s.time, bseen := g }]) ∧
      (mine → (∀ g, y.arrival ≠ some (o, g)) → (t.eng c e).st = .held ∧
        t.syn.waiters = s.syn.waiters ++ [{ obj := o, target := 0, eng := engId c (CE.eng e), punnet := 0, ctx := y.ctx,
                                            since := s.time, anyNext := true, bseen := genOf s o }])))

/-- R115, R253, R266, R269: a release operation is performed when the stream's earlier writes and transfers are done,
and waits for them otherwise.
Where the manual is open it rests on the model's choices: log entry 47. -/
def Obligations.ClauseReleasesArePerformedInOrder : Prop :=
  -- SIG sends its signal
  (∀ (c : CoreId) (e : CE) (i : Nat) (w : W64) (s : State), s.heads c e .sync 1 i w → s.settled c e → Runs (.sig c e) s (fun t =>
      t = { s.ticked with cores := t.cores, syn := t.syn } ∧ (t.eng c e).releases = [] ∧
      t.syn = { s.syn with transit := s.syn.transit ++
        [{ ctx := (s.eng c e).ctx, conj := fld w.toNat 8 9, n := BitVec.ofNat 32 (fld w.toNat 32 32), short := false,
           src := sigSrc c (CE.eng e) (s.eng c e).ctx (s.eng c e).pc }] })) ∧
  -- BW.ARRIVE raises the core's line; with the last member the generation completes
  (∀ (c : CoreId) (e : CE) (i : Nat) (w : W64) (s : State), s.heads c e .sync 3 i w → s.settled c e →
    Runs (.bwArrive c e) s (fun t =>
      let n := fld w.toNat 17 6
      let v := s.wire n
      let member := v.valid = true ∧ v.ctx.toNat = (s.eng c e).ctx ∧ v.mask.toNat.testBit c = true
      let raised := v.raised ||| (1#32 <<< c.val)
      t.mem = s.mem ∧ t.hq.ctxs = s.hq.ctxs ∧
      (¬ member → t.syn = s.syn ∧ rdF t 0x0040082C 0 16 = Nat.min (rdF s 0x0040082C 0 16 + 1) 0xFFFF) ∧
      (member → raised &&& v.mask ≠ v.mask → t.wire n = { v with raised := raised } ∧ t.syn.waiters = s.syn.waiters) ∧
      (member → raised &&& v.mask = v.mask → t.wire n = { v with raised := 0, gen := v.gen + 1 } ∧
        ∀ x ∈ t.syn.waiters, ¬ (x.obj = .wire n ∧ (x.anyNext = true ∨ x.bseen < v.gen + 1))))) ∧
  -- GB.ARRIVE at a group whose generation another arrival still needs, with a tracker to be had
  (∀ (c : CoreId) (e : CE) (i : Nat) (w : W64) (s : State), s.heads c e .sync 5 i w → s.settled c e →
    Runs (.gbArrive c e) s (fun t =>
      let x := (s.eng c e).ctx
      let g := fld w.toNat 17 6
      let m := BitVec.ofNat 32 (fld w.toNat 32 32)
      let v := s.group x g
      let wrong := m = 0 ∨ m.toNat.testBit c = false ∨ m.toNat &&& partMask s x ≠ m.toNat ∨ v.inProgress = true ∧ v.mask ≠ m
      let got := (if v.inProgress then v.arrived else 0) ||| (1#32 <<< c.val)
      let tracked := (trackerOf s x g).isSome ∨ (freeTracker s (tenant s (s.ctx x).fn).part).isSome
      t.mem = s.mem ∧
      (wrong → t.group x g = { v with mismatch := true } ∧
        rdF t 0x00400830 0 16 = Nat.min (rdF s 0x00400830 0 16 + 1) 0xFFFF) ∧
      (¬ wrong → ¬ tracked → (t.eng c e).gbHeld = true ∧ t.syn.heldArr.length = s.syn.heldArr.length + 1 ∧ t.group x g = v) ∧
      (¬ wrong → tracked → got ≠ m → t.group x g = { v with inProgress := true, mask := m, arrived := got }) ∧
      (¬ wrong → tracked → got = m →
        t.group x g = { v with gen := v.gen + 1, inProgress := false, mask := 0, arrived := 0 }))) ∧
  -- an earlier write that has not landed holds each of them back
  (∀ r ∈ ([(.sig, 1, fun w => .sig (fld w 8 9) (BitVec.ofNat 32 (fld w 32 32))), (.bwArrive, 3, fun w => .bw (fld w 17 6)),
           (.gbArrive, 5, fun w => .gb (fld w 17 6) (BitVec.ofNat 32 (fld w 32 32)))]
          : List ((CoreId → CE → Instr) × Nat × (Nat → Release))),
    ∀ (c : CoreId) (i : Nat) (w : W64) (s : State), s.heads c .mx .sync r.2.1 i w → (s.eng c .mx).releases = [] →
      (∃ l ∈ (s.eng c .mx).inflight, l.issued ≤ (s.eng c .mx).now) → Runs (r.1 c .mx) s (fun t =>
        OnlyEngine s t c .mx ∧
        (t.eng c .mx).releases = [⟨r.2.2 w.toNat, (s.eng c .mx).now, [], (s.eng c .mx).pc⟩]))

/-- R106, R116, R238, R129: a fetched clause is legal and lies within a 4 KiB page; what cannot be fetched ends the
stream with its cause.
Where the manual is open it rests on the model's choices: log entry 59. -/
def Obligations.ClauseFetchDeliversLegalClause : Prop :=
  ∀ (c : CoreId) (e : CE) (s : State), s.clocked = true → (s.eng c e).live = true → (s.eng c e).clause = none →
    (s.eng c e).issuing = [] → (s.eng c e).aborting = false → Runs (.clauseFetch c e) s (fun t =>
      (∀ u k, fetchClause s c e = (u, .inl k) → (t.eng c e).clause = some k ∧ (t.eng c e).done = 0 ∧
        (t.eng c e).waitOk = !k.waits ∧ k.addr = (s.eng c e).pc ∧ k.addr % 8 = 0 ∧ k.addr % 4096 + k.len ≤ 4096 ∧
        clauseLegal e k = true ∧ (t.eng c e).scal = (s.eng c e).scal ∧ t.syn = s.syn) ∧
      (∀ u x, fetchClause s c e = (u, .inr x) → (t.eng c e).faultCause = some x.code ∧ (t.eng c e).clause = none ∧
        (t.eng c e).inflight = (s.eng c e).inflight))

/-- R113, R116, R129, R131: an execution issues at its scheduled cycle, after what is due has landed. What stops a clause stops
it before its first execution issues: a failed hazard check parks the engine, a slot that faults ends the stream; a later
execution is held by nothing.
Where the manual is open it rests on the model's choices: log entries 55, 56, 61, 115. -/
def Obligations.ClauseIssueFollowsSchedule : Prop :=
  ∀ (c : CoreId) (e : CE) (k : Clause) (s : State), (s.eng c e).clause = some k → (s.eng c e).live = true →
    s.clocked = true → (s.eng c e).st = .issuing → (s.eng c e).waitOk = true → (s.eng c e).issuing = [] →
    ((s.eng c e).done = 0 → (s.eng c e).gbHeld = false ∧ (s.eng c e).aborting = false ∧
      ((s.eng c e).stopPending = false ∨ k.stop = false)) →
    let y := s.eng c e
    let at_ := if y.done = 0 then y.next + k.delay else y.next
    let u := flush (landDue s c e at_) c e
    let l := actingSlots k ((u.eng c e).done + 1 = k.execs)
    -- what stops any execution of the clause, found before the first
    let stop := if y.done = 0 then preflight c e k s else none
    let issued (t : State) : Prop := (t.eng c e).issuing = l ∧ (t.eng c e).now = at_ ∧
      (t.eng c e).done = (u.eng c e).done ∧ (t.eng c e).scal = (u.eng c e).scal ∧ t.mem = u.mem ∧ t.syn = u.syn
    let ended (t : State) (x : XF) : Prop := (t.eng c e).faultCause = some x.code ∧ (t.eng c e).issuing = [] ∧
      (t.eng c e).clause = none
    let parked (t : State) (slot : Nat) : Prop := (t.eng c e).st = .parked ∧ (t.eng c e).issuing = [] ∧
      rdF t (coreA c (match e with | .mx => 0x10 | .tx => 0x50)) 0 3 = slot % 8
    Runs (.clauseIssue c e) s (fun t =>
      (stop = none → l ≠ [] → issued t) ∧ (∀ x, stop = some (.fault x) → ended t x) ∧
      (∀ slot kind res short, stop = some (.hazard slot kind res short) → parked t slot) ∧
      -- the first execution's own checks: hazard-watch (R130), then the slots' faults (R129)
      (y.done = 0 →
        let v := landDue (s.setFlt y.fn {}) c e at_
        let l1 := actingSlots k ((v.eng c e).done + 1 = k.execs)
        let hz := if hwOn s c e && !y.unchecked then hzCheck (v.eng c e) k e l1 at_ else none
        (∀ slot kind res short, hz = some (slot, kind, res, short) → parked t slot) ∧
        (∀ x, hz = none → firstBad (l1.map (fun p => slotFault v c (v.eng c e) k (slotTy e p.1) p.2)) = some x → ended t x)))

/-- R105, R124 to R126, R128, R131, R154: the other ways a stream goes on or ends.
Where the manual is open it rests on the model's choices: log entries 64, 65. -/
def Obligations.StreamStopsAndEnds : Prop :=
  -- STREAM_END: the engine is free and the command has ended on this core
  (∀ (c : CoreId) (e : CE) (s : State), s.clocked = true → (s.eng c e).finished = true → (s.eng c e).faultCause = none →
    (s.eng c e).aborting = false → s.settled c e → Runs (.streamEnd c e) s (fun t =>
      let r := (s.eng c e).cmd
      t.eng c e = {} ∧ t.mem = s.mem ∧ t.syn = { s.syn with trackers := t.syn.trackers } ∧
      (e = .mx → (t.core c).bufs = {} ∧ (t.core c).heldRows = {} ∧ (t.core c).banks = {}) ∧
      (t.queue r.fn r.q).cmds = (s.queue r.fn r.q).cmds.map (fun k => if r.hits k then
        { k with toEnd := k.toEnd.filter (fun n => n != c.val),
                 ready := k.ready || (k.started && (k.toEnd.filter (fun n => n != c.val)).isEmpty && k.toStart.isEmpty) }
        else k))) ∧
  -- STOP_POINT_REACHED: every result has landed; what acc_live does not name is not kept
  (∀ (c : CoreId) (e : CE) (k : Clause) (s : State), s.clocked = true → (s.eng c e).clause = some k →
    (s.eng c e).live = true → (s.eng c e).stopPending = true → k.stop = true → (s.eng c e).between = true →
    (s.eng c e).aborting = false → (e = .mx → (s.core c).glPass = none) → Runs (.stopPointReached c e) s (fun t =>
      (t.eng c e).stopped = true ∧ (t.eng c e).pc = k.addr ∧ (t.eng c e).inflight = [] ∧ (t.eng c e).clause = none ∧
      (t.eng c e).gbHeld = false ∧ (t.eng c e).accLive = k.accLive ∧
      (∀ x ∈ t.syn.waiters, x.eng ≠ engId c (CE.eng e)) ∧
      (e = .mx → (t.core c).bufs = {} ∧ (t.core c).heldRows = {} ∧
        ∀ b, bit k.accLive b = false → (t.core c).banks.get {} b = {}))) ∧
  -- ... of a gleaning pass: the K tiles it has begun are accumulated, and it stands before the next
  (∀ (c : CoreId) (w v : GlWin) (u s : State), s.clocked = true → (s.core c).glPass = some w → w.stop = true →
    w.stopped = false → w.summed = false → glRun c (w.stepsFor w.begun) s w = (u, .inl v) →
    Runs (.stopPointReached c .mx) s (fun t =>
      (t.core c).glPass = some { v with stopped := !v.summed } ∧ t.mem = u.mem)) ∧
  -- STOP_TIMEOUT: after 16,384 core cycles the context ends on the engine, counted
  (∀ (c : CoreId) (e : CE) (s : State), s.clocked = true → (s.eng c e).live = true → (s.eng c e).stopPending = true →
    (s.eng c e).stopReqAt + 16384 ≤ (s.core c).cycles → Runs (.stopTimeout c e) s (fun t =>
      let a := coreA c (match e with | .mx => 0x14 | .tx => 0x54)
      (t.eng c e).faultCause = some 0x11 ∧ (t.eng c e).clause = none ∧ rdF t a 0 16 = Nat.min (rdF s a 0 16 + 1) 0xFFFF ∧
      t.mem = s.mem)) ∧
  -- HAZARD_RESUME and HAZARD_KILL of a parked engine; what was parked of a preemption request does not count (R128)
  (∀ (c : CoreId) (e : CE) (s : State), (s.eng c e).st = .parked → Runs (.hazardResume c e) s (fun t =>
      OnlyEngine s t c e ∧ (t.eng c e).st = .issuing ∧ (t.eng c e).unchecked = true ∧ (t.eng c e).pc = (s.eng c e).pc ∧
      (t.eng c e).stopReqAt
        = (s.eng c e).stopReqAt + ((s.core c).cycles - Nat.max (s.eng c e).parkedAt (s.eng c e).stopReqAt))) ∧
  (∀ (c : CoreId) (e : CE) (s : State), (s.eng c e).st = .parked → Runs (.hazardKill c e) s (fun t =>
      t = { s.ticked with cores := t.cores, syn := t.syn, hq := t.hq } ∧ (t.eng c e).faultCause = some 0x12 ∧
      (t.eng c e).inflight = (s.eng c e).inflight))

/-! ## Matrix engine, transfers -/

/-- R136, R137: a load reads its lines from the context's window and puts its rows in flight, one a cycle from t + 12 (LD.A, LD.B)
or t + 16 (LD.ROW) on. R146: a drain reads row j of its bank at t + j, and its rows land from t + 20 on; DRAIN.Z also zeroes the
bank at t + 257.
Where the manual is open it rests on the model's choices: log entries 60, 63. -/
def Obligations.MxLoadsAndDrainsPutRowsInFlight : Prop :=
  (∀ r ∈ ([(.ldA, 1, 12, fun _ => 0, fun b => .buf b), (.ldB, 2, 12, fun _ => 0, fun b => .buf (2 + b)),
             (.ldRow, 3, 16, fun b => 256 * b, fun _ => .held)]
         : List ((CoreId → Instr) × Nat × Nat × (Nat → Nat) × (Nat → Nat → Nat → List (Nat × W16) → Write))),
       ∀ (c : CoreId) (i : Nat) (w : W64) (u : State) (lines : List (List (Nat × Nat))) (s : State),
         s.heads c .mx .load r.2.1 i w →
         let y := s.eng c .mx
         let n := y.noun (fld w.toNat 12 12)
         let b := fld w.toNat 11 1
         let rows := (fld w.toNat 24 8 + 1) / rpk n.fmt * rpk n.fmt
         ldLines (s.popSlot c .mx) (.ls c y.ctx) n (y.gen (fld w.toNat 8 3)).addr.toNat (fld w.toNat 24 8 + 1) = (u, .inl lines) →
         Runs (r.1 c) s (fun t =>
           (∀ j < rows, (⟨y.now + r.2.2.1 + j, y.now, i, r.2.2.2.2 b j n.fmt (laneRow n.fmt lines (r.2.2.2.1 b) j)⟩ : Land)
             ∈ (t.eng c .mx).inflight) ∧
           (∀ x ∈ (u.eng c .mx).inflight, x ∈ (t.eng c .mx).inflight) ∧
           (t.eng c .mx).inflight.length = (u.eng c .mx).inflight.length + rows ∧
           (t.core c).bufs = (u.core c).bufs ∧ (t.core c).banks = (u.core c).banks ∧ t.mem = u.mem ∧ t.syn = u.syn ∧
           t.hq = u.hq ∧ t.lnk = u.lnk)) ∧
  (∀ (z : Bool) (c : CoreId) (i : Nat) (w : W64) (s : State), s.heads c .mx .store (if z then 2 else 1) i w →
       let y := s.eng c .mx
       let rows := fld w.toNat 24 8 + 1
       let bank := fld w.toNat 11 1
       let b := (s.core c).banks.get {} bank
       Runs (if z then .drainZ c else .drain c) s (fun t =>
         OnlyEngine s t c .mx ∧
         (∀ j < rows, (⟨y.now + 20 + j, y.now, i, .drain y.fresh j⟩ : Land) ∈ (t.eng c .mx).inflight) ∧
         (z = true → (⟨y.now + 257, y.now, i, .zero bank⟩ : Land) ∈ (t.eng c .mx).inflight) ∧
         (∀ x ∈ y.inflight, x ∈ (t.eng c .mx).inflight) ∧
         ∃ d ∈ (t.eng c .mx).drains, d.id = y.fresh ∧ d.bank = bank ∧ d.rows = rows ∧ d.noun = y.noun (fld w.toNat 12 12) ∧
           d.base = (y.gen (fld w.toNat 8 3)).addr.toNat ∧ d.cap = (List.range rows).map (fun j => (b.isInt, b.row j))))

/-- R138 to R141, R145: MMA, SHIFT and ZERO; a result lands at t + K + 263, or t + 2. R143, R144: a cell of an INT8 MMA over one
buffer row is the accumulator plus the exact product, clamped to 32 bits.
Where the manual is open it rests on the model's choices: log entry 62. -/
def Obligations.MxOperationsPutResultsInFlight : Prop :=
  (-- MMA and MMA.ACC of compatible operands: the run is captured and lands in its bank
     (∀ (acc : Bool) (c : CoreId) (i : Nat) (w : W64) (s : State), s.heads c .mx .op (if acc then 2 else 1) i w →
       let y := s.eng c .mx
       let x := s.core c
       let k := fld w.toNat 16 8 + 1
       let fa := if fld w.toNat 12 4 = 1 then x.heldRows.fmt else (x.bufs.get {} (fld w.toNat 9 1)).fmt
       let fb := (x.bufs.get {} (2 + fld w.toNat 10 1)).fmt
       (mayMeet fa fb = true → Runs (if acc then .mmaAcc c else .mma c) s (fun t =>
         OnlyEngine s t c .mx ∧
         (t.eng c .mx).inflight = insLand y.inflight ⟨y.now + k + 263, y.now, i, .mma y.fresh⟩ ∧
         ∃ run ∈ (t.eng c .mx).mmas, run.id = y.fresh ∧ run.issued = y.now ∧ run.k = k ∧ run.rows = k ∧
           run.bank = fld w.toNat 8 1 ∧ run.acc = acc ∧ run.fmtA = fa ∧ run.fmtB = fb)) ∧
       -- incompatible operands: the bank stays, and the mismatch is flagged and counted
       (mayMeet fa fb = false → Runs (if acc then .mmaAcc c else .mma c) s (fun t =>
         t = { s.ticked with cores := t.cores, regs := t.regs, mon := t.mon } ∧
         (t.eng c .mx).inflight = y.inflight ∧ (t.core c).banks = x.banks ∧ rdB t (coreA c 0x100) 2 = true ∧
         rdF t (coreA c 0x104) 0 16 = Nat.min (rdF s (coreA c 0x104) 0 16 + 1) 0xFFFF))) ∧
     -- SHIFT: the held rows, shifted, are in flight
     (∀ (c : CoreId) (i : Nat) (w : W64) (s : State), s.heads c .mx .op 3 i w → Runs (.shift c) s (fun t =>
       OnlyEngine s t c .mx ∧
       (t.eng c .mx).inflight = insLand (s.eng c .mx).inflight ⟨(s.eng c .mx).now + 2, (s.eng c .mx).now, i,
         .shift (s.core c).heldRows.rowFmt (s.core c).heldRows.shift.lanes⟩)) ∧
     (∀ (c : CoreId) (i : Nat) (w : W64) (s : State), s.heads c .mx .op 4 i w → Runs (.zero c) s (fun t =>
       OnlyEngine s t c .mx ∧
       (t.eng c .mx).inflight = insLand (s.eng c .mx).inflight
         ⟨(s.eng c .mx).now + 2, (s.eng c .mx).now, i, .zero (fld w.toNat 8 1)⟩))) ∧
  (∀ (r : MmaRun) (m n : Nat) (acc : W32), r.fmtA = some 8 → r.fmtB = some 8 → r.k = 1 → r.rows = 1 →
       let a := ((look r.a m).getD 0).toNat % 256
       let b := ((look r.b n).getD 0).toNat % 256
       (mmaCell r m n acc).1.toInt = max (-(2 ^ 31)) (min (2 ^ 31 - 1) (acc.toInt + sgn a 8 * sgn b 8)))

/-- R140: an MMA whose operand formats are not compatible (R134: same kind, same rows per K-value), or one of which is INT32,
leaves its bank, sets CORE_MX_FLAGS.mismatch and counts CORE_MX_MISMATCH. No fault is raised. -/
def Obligations.IncompatibleMmaLeavesItsBank : Prop :=
  ∀ (acc : Bool) (c : CoreId) (i fa fb : Nat) (w : W64) (s : State), s.heads c .mx .op (if acc then 2 else 1) i w →
    let x := s.core c
    -- R134: FP32; BF16 and FP16; E4M3, E5M2, E3M2 and E2M3; MXFP4; INT8; INT4
    let group (f : Nat) : Nat := [0, 1, 1, 2, 2, 2, 2, 3, 4, 5].getD f 6
    (if fld w.toNat 12 4 = 1 then x.heldRows.fmt else (x.bufs.get {} (fld w.toNat 9 1)).fmt) = some fa →
    (x.bufs.get {} (2 + fld w.toNat 10 1)).fmt = some fb → fa ≤ 10 → fb ≤ 10 → (group fa ≠ group fb ∨ fa = 10 ∨ fb = 10) →
    Runs (if acc then .mmaAcc c else .mma c) s (fun t =>
      t = { s.ticked with cores := t.cores, regs := t.regs, mon := t.mon } ∧
      (t.core c).banks = x.banks ∧ (t.eng c .mx).inflight = (s.eng c .mx).inflight ∧ rdB t (coreA c 0x100) 2 = true ∧
      rdF t (coreA c 0x104) 0 16 = Nat.min (rdF s (coreA c 0x104) 0 16 + 1) 0xFFFF ∧
      (t.eng c .mx).faultCause = (s.eng c .mx).faultCause)

/-- R111, R242 to R248: a transfer takes the effect of its body in issue order and is outstanding until it completes, and then
signals where sig is 1; one that reads host memory, or comes after one that does, has its effect when it completes; one whose
access fails ends the stream (R129, R232). R245: a bad index of GATHER or SCATTER writes nothing and is counted for the function.
Where the manual is open it rests on the model's choices: log entries 68, 69. -/
def Obligations.TxTransfersActAndComplete : Prop :=
  (∀ r ∈ ([(.copy, 1, fun _ _ _ _ => copyBody), (.reshape, 2, fun _ _ _ _ => reshapeBody),
             (.convert, 3, fun _ _ _ _ => convertBody), (.gather, 4, fun f _ _ _ => gatherBody f),
             (.scatter, 5, fun f _ _ _ => scatterBody f), (.embedPool, 6, fun f c q j => embedPoolBody f c q j),
             (.embedGather, 7, fun f _ _ _ => embedGatherBody f)]
         : List ((CoreId → Instr) × Nat × (Nat → Nat → CmdRef → XJob → XOp → State → State × Option XF))),
       ∀ (c : CoreId) (i : Nat) (w : W64) (k : Clause) (s : State), s.heads c .tx .xfer r.2.1 i w →
         (s.eng c .tx).clause = some k →
         let y := s.eng c .tx
         let j := s.xjob c r.2.1 i w.toNat k
         let s1 := s.popSlot c .tx
         let o := s.xop c w.toNat
         let out := r.2.2 y.fn c y.cmd j o s1
         let issued (t u : State) (b : Option XJob) : Prop :=
           t.mem = u.mem ∧ t.poison = u.poison ∧ t.regs = u.regs ∧ t.sketch = u.sketch ∧ t.syn = u.syn ∧ t.lnk = u.lnk ∧
           t.hq = u.hq ∧
           ∃ x : Xfer, (t.core c).xfers = (u.core c).xfers ++ [x] ∧ x.id = (u.core c).xferNext ∧ x.cmd = y.cmd ∧
             x.sig = bit w.toNat 47 ∧ x.conj = fld w.toNat 38 9 ∧ x.ctx = y.ctx ∧ x.isGet = false ∧ x.flitsLeft = 0 ∧ x.job = b
         Runs (r.1 c) s (fun t =>
           (∀ u, out = (u, none) → s1.actsNow c o → issued t u none) ∧
           (∀ u, out = (u, none) → ¬ s1.actsNow c o → issued t s (some j)) ∧
           (∀ u e, out = (u, some e) → t.mem = u.mem ∧ (t.core c).xfers = (u.core c).xfers ∧
             (t.eng c .tx).faultCause = some e.code))) ∧
  (∀ (sc : Bool) (c : CoreId) (i x f : Nat) (w : W64) (u : State) (s : State), s.heads c .tx .xfer (if sc then 5 else 4) i w →
       (s.eng c .tx).fn = f → f < 128 →
       let o := s.xop c w.toNat
       (s.popSlot c .tx).actsNow c o →
       readIndex (s.popSlot c .tx) o.p (if sc then o.dg.idx else o.sg.idx) (if sc then o.dg.pos.toNat else o.sg.pos.toNat)
         = (u, .inl x) →
       badIndex x (if sc then o.dst.e 1 else o.src.e 1) = true →
       Runs (if sc then .scatter c else .gather c) s (fun t =>
         t.mem = u.mem ∧ t.poison = u.poison ∧
         rdF t (fpA f 0x30814) 0 16 = Nat.min (rdF u (fpA f 0x30814) 0 16 + 1) 0xFFFF ∧
         rdF t 0x00800120 0 16 = Nat.min (rdF u 0x00800120 0 16 + 1) 0xFFFF)) ∧
  -- TRANSFER_COMPLETE of a transfer that has had its effect
  (∀ (c : CoreId) (n : Nat) (x : Xfer) (s : State), s.clocked = true →
       (s.core c).xfers.find? (fun y => y.id == n) = some x → x.isGet = false → x.flitsLeft = 0 → x.job = none →
       Runs (.transferComplete c n) s (fun t =>
         (t.core c).xfers = (s.core c).xfers.filter (fun y => y.id != x.id) ∧ t.mem = s.mem ∧ t.lnk = s.lnk ∧
         ∃ more, t.syn.transit = s.syn.transit ++ (if x.sig && !x.isPut then
           [{ ctx := x.ctx, conj := x.conj, n := 1, short := false, src := sigSrc c .tx x.ctx x.pc }] else []) ++ more)) ∧
  -- ... and of one that has yet to have it, alone of its stream
  (∀ (c : CoreId) (n : Nat) (x : Xfer) (j : XJob) (s : State), s.clocked = true →
       (s.core c).xfers.find? (fun y => y.id == n) = some x → x.isGet = false → x.flitsLeft = 0 → x.job = some j →
       (∀ y ∈ (s.core c).xfers, y.cmd = x.cmd → y.id ≠ n → y.job = none) →
       let out := jobBody c x.cmd.fn x.cmd j (j.xop c x.cmd.fn x.ctx) s
       Runs (.transferComplete c n) s (fun t =>
         (t.core c).xfers = (s.core c).xfers.filter (fun y => y.id != x.id) ∧ t.mem = out.1.mem ∧
         (∀ e, out.2 = some e → (s.eng c .tx).busy = true → (s.eng c .tx).cmd = x.cmd →
           (t.eng c .tx).faultCause = some e.code)))

/-! ## Slices, preemption, gleaning -/

/-- R271, R307, R308, R310, R311: the end of a slice, what an exhausted partition put off, and the end of a handover.
Where the manual is open it rests on the model's choices: log entries 29, 43. -/
def Obligations.SliceEndsAndHandoverCompletes : Prop :=
  (∀ (p : PartId) (s : State), gateClosed s p = false → Runs (.sliceExpiry p) s (fun t =>
      let x := s.partS p
      let granted (g : Nat) : Prop := (t.partS p).holder = some g ∧ (t.partS p).used = 0 ∧
        (t.partS p).grants = x.grants + 1 ∧ (t.fnS g).slices = (s.fnS g).slices + 1 ∧
        ∀ f, x.holder = some f → g ≠ f → (t.partS p).outgoing = some (x.outgoing.getD f)
      t = { s.ticked with cores := t.cores, sch := t.sch, syn := t.syn } ∧
      -- a slice that is over passes to the active tenant with the largest deficit
      (takeoverDue s p = none → sliceOver s p = true →
        (bestTenant s p = none → (t.partS p).holder = none) ∧ ∀ g, bestTenant s p = some g → granted g) ∧
      -- what the closed gate put off: a takeover, or the grant of a slice that nobody holds
      (∀ g, takeoverDue s p = some g → granted g ∧ (t.partS p).takeovers = x.takeovers + 1) ∧
      (∀ g, takeoverDue s p = none → x.holder = none → bestTenant s p = some g → granted g) ∧
      -- a slice that is not over goes on
      (∀ f, takeoverDue s p = none → x.holder = some f → sliceOver s p = false → t = s.ticked))) ∧
  (∀ (p : PartId) (s : State), gateClosed s p = true → Runs (.sliceExpiry p) s (fun t => t = s.ticked)) ∧
  (∀ (p : PartId) (f : Nat) (s : State), (s.partS p).outgoing = some f →
    (∀ c ∈ coresOf s p, (s.core c).stopping = false) → Runs (.handoverComplete p) s (fun t =>
      t = { s.ticked with sch := t.sch, syn := t.syn } ∧ (t.partS p).outgoing = none ∧
      (t.partS p).holder = (s.partS p).holder ∧ chargedTenant t p = (s.partS p).holder ∧
      -- the partition's trackers hold groups of the tenant that has the slice
      (∀ g, (s.partS p).last = some g → ∀ k < 64,
        let r := t.syn.trackers.get {} k
        r.busy = true → r.part = p.val → (t.ctx r.ctx).fn = g)))

/-- R124, R125, R154, R180, R181, R298, R312, R313: a stopped stream is copied, written out and restored.
Where the manual is open it rests on the model's choices: log entries 48, 81, 82. -/
def Obligations.PreemptionCopiesAndRestores : Prop :=
  -- PREEMPT_COPY_DONE of a clause stream
  (∀ (c : CoreId) (e : CE) (s : State), (s.eng c e).stopped = true → (s.eng c e).aborting = false →
    preRoom (s.core c) (streamBytes e (s.eng c e)) = true → (e = .mx → (s.core c).glPass = none) →
    Runs (.preemptCopyDone c (CE.eng e)) s (fun t =>
      t.eng c e = {} ∧ t.mem = s.mem ∧ t.syn = s.syn ∧ t.hq = s.hq ∧
      (t.fnS (s.eng c e).fn).preempted = (s.fnS (s.eng c e).fn).preempted + 1 ∧
      ∃ v : StreamSave, (t.core c).streams = (s.core c).streams ++ [v] ∧ v.e = e ∧
        v.eng = { s.eng c e with stopped := false, stopPending := false } ∧ (e = .mx → v.banks = (s.core c).banks))) ∧
  -- ... of a gleaning pass
  (∀ (c : CoreId) (w : GlWin) (s : State), (s.core c).glPass = some w → w.stopped = true →
    preRoom (s.core c) (passBytes w) = true → Runs (.preemptCopyDone c .mx) s (fun t =>
      (t.core c).glPass = none ∧ t.mem = s.mem ∧ (t.fnS w.fn).preempted = (s.fnS w.fn).preempted + 1 ∧
      ∃ n m, (t.core c).glSaved = (s.core c).glSaved ++ [{ w with stop := false, bytes := n, stamp := m }])) ∧
  -- ... of TE work: its slots are free, and each keeps the frame of R174
  (∀ (c : CoreId) (g : Grid) (s : State), (s.te c).grid = some g → (s.te c).stopPending = true → (s.te c).reqs = [] →
    gridCut s c = false → preRoom (s.core c) (teBytes (s.te c)) = true → rising (s.te c).pun.entries = true →
    Runs (.preemptCopyDone c .te) s (fun t =>
      (t.te c).grid = none ∧ (t.te c).blocks = [] ∧ t.mem = s.mem ∧
      (t.fnS g.fn).preempted = (s.fnS g.fn).preempted + 1 ∧
      (∀ p < 64, (s.pun c p).resident = true → t.pun c p = { shadow := (s.pun c p).shadow, trap := (s.pun c p).trap }) ∧
      ∃ v : TeSave, (t.te c).saved = (s.te c).saved ++ [v] ∧ v.grid = some g ∧ v.blocks = (s.te c).blocks ∧
        ∀ p < 64, (s.pun c p).resident = true → v.punnets.get {} p = s.pun c p)) ∧
  -- BUFFER_WRITE_OUT_DONE: the oldest copy leaves the buffer for its context's save area; where that fails it is lost
  (∀ (c : CoreId) (stamp n x : Nat) (u : State) (s : State), oldestCopy (s.core c) = some (stamp, n, x) →
    saveAll (s.setCore c ((s.core c).wroteOut stamp)) x (copyPieces s c stamp) = (u, none) →
    Runs (.bufferWriteOutDone c) s (fun t => t.mem = u.mem ∧
      (∀ v ∈ (t.core c).streams, v.stamp = stamp → v.bytes = 0) ∧ (∀ v ∈ (t.te c).saved, v.stamp = stamp → v.bytes = 0) ∧
      (∀ v ∈ (t.core c).glSaved, v.stamp = stamp → v.bytes = 0) ∧
      (t.core c).streams.map (·.eng) = (s.core c).streams.map (·.eng))) ∧
  (∀ (c : CoreId) (stamp n x : Nat) (u : State) (e : XF) (s : State), oldestCopy (s.core c) = some (stamp, n, x) →
    saveAll (s.setCore c ((s.core c).wroteOut stamp)) x (copyPieces s c stamp) = (u, some e) →
    Runs (.bufferWriteOutDone c) s (fun t => t.mem = u.mem ∧ (t.ctx x).faulted = true ∧ (t.ctx x).saveLost = true)) ∧
  -- STREAM_RESTORE of a stream, from the buffer or the save area: it resumes where it stopped
  (∀ (c : CoreId) (e : CE) (f : Nat) (v b : StreamSave) (u s : State), restoreFor s c = some f →
    (s.core c).streams.find? (fun v => v.e == e && v.eng.fn == f) = some v → (s.eng c e).st = .idle →
    (e = .mx → (s.core c).glPass = none ∧ ∀ w ∈ (s.core c).glSaved, w.fn ≠ f) → resident s v.eng.ctx = true →
    streamBack s c v = (u, .inl b) → Runs (.streamRestore c (CE.eng e)) s (fun t =>
      (v.bytes ≠ 0 → b = v) ∧
      (t.eng c e).pc = b.eng.pc ∧ (t.eng c e).scal = b.eng.scal ∧ (t.eng c e).lc = b.eng.lc ∧ (t.eng c e).ag = b.eng.ag ∧
      (t.eng c e).cmd = b.eng.cmd ∧ (t.core c).streams = (u.core c).streams.filter (fun w => w.stamp != v.stamp) ∧
      t.mem = u.mem ∧ (e = .mx → (t.core c).banks = b.banks ∧ (t.core c).bufs = {} ∧ (t.core c).heldRows = {}))) ∧
  -- ... of a gleaning pass: it resumes before the K tile at which it stopped
  (∀ (c : CoreId) (f : Nat) (w b : GlWin) (u s : State), restoreFor s c = some f →
    (s.core c).glSaved.find? (fun w => w.fn == f) = some w → (s.eng c .mx).st = .idle → (s.core c).glPass = none →
    resident s w.ctx = true → passBack s c w = (u, .inl b) → Runs (.streamRestore c .mx) s (fun t =>
      t.mem = u.mem ∧ ∃ v, (t.core c).glPass = some v ∧ v.reqs = b.reqs ∧ v.acc = b.acc ∧ v.tile = b.tile ∧ v.pair = b.pair ∧
        v.stopped = false)) ∧
  -- ... of TE work: the cores of a bunch that hold copies of a context resume together
  (∀ (c : CoreId) (f : Nat) (v : TeSave) (s : State), restoreFor s c = some f →
    (s.te c).saved.find? (fun v => v.fn == f) = some v → resident s v.ctx = true → s.syn.dumpBusy = false →
    (∀ n ∈ bunchCores c, teStopping s n v.ctx = false ∧
      ∀ w ∈ (s.te n).saved, w.ctx = v.ctx → (s.te n).grid = none ∧ (s.te n).reqs = [] ∧ w.bytes ≠ 0) →
    Runs (.streamRestore c .te) s (fun t => ∀ n ∈ bunchCores c, ∀ w,
      (s.te n).saved.find? (fun w => w.ctx == v.ctx) = some w →
      (t.te n).grid = w.grid ∧ (t.te n).blocks = w.blocks ∧
      (t.te n).saved = (s.te n).saved.filter (fun z => z.stamp != w.stamp)))

/-- R151 to R155: windows close, passes start, requests complete; a pass is charged to its requests.
Where the manual is open it rests on the model's choices: log entry 67. -/
def Obligations.GleaningRowsTakeEffect : Prop :=
  -- GLEAN_WINDOW_CLOSE at the earliest deadline
  (∀ (c : CoreId) (w : GlWin) (s : State), (s.core c).glean.find? (fun w => w.due s.time) = some w →
    Runs (.gleanWindowClose c) s (fun t =>
      t = { s.ticked with cores := t.cores } ∧ (t.core c).glQueue = (s.core c).glQueue ++ [w] ∧
      (t.core c).glean = (s.core c).glean.filter (fun v => v ≠ w))) ∧
  -- GLEAN_PASS_START: the pass takes the array; it and its requests are counted
  (∀ (c : CoreId) (w : GlWin) (s : State), nextPass s c = some w → w.reqs ≠ [] → w ∉ (s.core c).glean →
    engFree s c .mx w.fn = true → Runs (.gleanPassStart c) s (fun t =>
      rd t (coreA c 0x108) = rd s (coreA c 0x108) + 1 ∧
      rd t (coreA c 0x10C) = rd s (coreA c 0x10C) + BitVec.ofNat 32 w.reqs.length ∧ w ∉ (t.core c).glQueue ∧
      let b := beginPass s c w
      (∀ (u : State) (ns : Tbl Noun), resolveAll b c w.ctx (b.core c).nounStamp w.handles {} = (u, .inl ns) →
        let w1 := { w.begin_ (u.core c).cycles with nouns := ns }
        let bad := firstBad ((glSpans w1).map (fun p => lsCheck u c w.ctx p.1 p.2.1 p.2.2))
        (bad = none → (t.core c).glPass = some w1) ∧ (∀ e, bad = some e → (t.core c).glPass = none)) ∧
      (∀ (u : State) (e : XF), resolveAll b c w.ctx (b.core c).nounStamp w.handles {} = (u, .inr e) →
        (t.core c).glPass = none))) ∧
  -- a window that every request has left gives no pass
  (∀ (c : CoreId) (w : GlWin) (s : State), nextPass s c = some w → w.reqs = [] → Runs (.gleanPassStart c) s (fun t =>
      t = { s.ticked with cores := t.cores } ∧ (t.core c).glQueue = (s.core c).glQueue.filter (fun v => v ≠ w) ∧
      (t.core c).glPass = (s.core c).glPass)) ∧
  -- GLEAN_REQUEST_DONE: the sums are complete, the request's rows are written and it signals; after the last, charges
  (∀ (c : CoreId) (w v : GlWin) (r : GlReq) (rest : List GlReq) (u s : State), (s.core c).glPass = some w →
    w.stopped = false → s.clocked = true → w.reqs = r :: rest → glRun c w.steps s w = (u, .inl v) →
    Runs (.gleanRequestDone c) s (fun t =>
      (v.bad = [] → t.mem = (glDrain u c v r).mem ∧
        (t.core c).glPass.map (·.reqs) = (if rest.isEmpty then none else some rest) ∧
        (rest = [] → (t.core c).glCharge = v.charges) ∧
        t.syn.transit = s.syn.transit ++ (if r.sig && !glGone u r then
          [{ ctx := w.ctx, conj := r.conj, n := 1, short := false, src := sigSrc c .mx w.ctx 0 }] else [])) ∧
      (v.bad ≠ [] → t.mem = u.mem ∧ (t.core c).glPass = none)))

/-! ## Thread engine -/

/-- R157, R185, R187: the integer instructions with both widths: v(d) per executing lane, or u(d) once in 64 bits.
Where the manual is open it rests on the model's choices: log entry 71. -/
def Obligations.ThreadIntegerRowsLandResults : Prop :=
  ∀ r ∈ ([(.iadd, [0x01, 0x81], fun x w l => a32 x w l + b32 x w l, fun x w => a64 x w + b64 x w),
          (.isub, [0x02, 0x82], fun x w l => a32 x w l - b32 x w l, fun x w => a64 x w - b64 x w),
          (.imul, [0x03, 0x83], fun x w l => a32 x w l * b32 x w l, fun x w => a64 x w * b64 x w),
          (.imulhi, [0x04, 0x84], fun x w l => mulHigh (tX w) (a32 x w l) (b32 x w l),
            fun x w => mulHigh (tX w) (a64 x w) (b64 x w)),
          (.imad, [0x05], fun x w l => a32 x w l * b32 x w l + c32 x w l, fun x w => a64 x w * b64 x w + c64 x w),
          (.imin, [0x06, 0x86], fun x w l => minOf (tX w) (a32 x w l) (b32 x w l), fun x w => minOf (tX w) (a64 x w) (b64 x w)),
          (.imax, [0x07, 0x87], fun x w l => maxOf (tX w) (a32 x w l) (b32 x w l), fun x w => maxOf (tX w) (a64 x w) (b64 x w)),
          (.teAnd, [0x08, 0x88], fun x w l => a32 x w l &&& b32 x w l, fun x w => a64 x w &&& b64 x w),
          (.teOr, [0x09, 0x89], fun x w l => a32 x w l ||| b32 x w l, fun x w => a64 x w ||| b64 x w),
          (.teXor, [0x0A, 0x8A], fun x w l => a32 x w l ^^^ b32 x w l, fun x w => a64 x w ^^^ b64 x w),
          (.teShl, [0x0B, 0x8B], fun x w l => a32 x w l <<< ((b32 x w l).toNat % 32),
            fun x w => a64 x w <<< ((b64 x w).toNat % 64)),
          (.teShr, [0x0C, 0x8C], fun x w l => shiftRight (tX w) (a32 x w l) (b32 x w l),
            fun x w => shiftRight (tX w) (a64 x w) (b64 x w)),
          (.popc, [0x0D], fun x w l => ones (a32 x w l), fun x w => ones (a64 x w)),
          (.clz, [0x0E], fun x w l => leadZeros (a32 x w l), fun x w => leadZeros (a64 x w)),
          (.brev, [0x0F], fun x w l => reversed (a32 x w l), fun x w => reversed (a64 x w)),
          (.mov, [0x11], fun x w l => a32 x w l, fun x w => a64 x w),
          (.teMovi, [0x91], fun _ w _ => tImm w, fun _ w => (tImm w).signExtend 64)]
      : List ((CoreId → PunId → W64 → Instr) × List Nat × (PunRegs → W64 → Nat → W32) × (PunRegs → W64 → W64))),
    ∀ (c : CoreId) (p : PunId) (w : W64) (u s : State), s.issues c p r.2.1 w u → Runs (r.1 c p w) s (fun t =>
      let x := (s.pun c p).regs
      OnlyPunnet u t c p ∧
      (tDu w = false → LandsLanes t c p x (tD w) (execLanes x w) (r.2.2.1 x w)) ∧
      (tDu w = true → LandsUniform t c p x (tD w) (execLanes x w) (r.2.2.2 x w)))

/-- R189 to R191: the floating-point and conversion instructions, SEL and XLANE write v(d) in the executing lanes. What the
approximations leave open is the free value of the lane (log entry 21).
Where the manual is open it rests on the model's choices: log entries 21, 78. -/
def Obligations.ThreadFloatAndLaneRowsLandResults : Prop :=
  ∀ r ∈ ([(.fadd, [0x20, 0xA0], fun _ x w _ l => toF32m (fpRnd w) ((fa x w l).add (fpRnd w) (fb x w l))),
          (.fsub, [0x21, 0xA1], fun _ x w _ l => toF32m (fpRnd w) ((fa x w l).add (fpRnd w) (fb x w l).neg)),
          (.fmul, [0x22, 0xA2], fun _ x w _ l => toF32m (fpRnd w) ((fa x w l).mul (fb x w l))),
          (.ffma, [0x23], fun _ x w _ l => toF32m (fpRnd w) (((fa x w l).mul (fb x w l)).add (fpRnd w) (fc x w l))),
          (.fmin, [0x24, 0xA4], fun _ x w _ l => toF32 (fpPick false (fa x w l) (fb x w l))),
          (.fmax, [0x25, 0xA5], fun _ x w _ l => toF32 (fpPick true (fa x w l) (fb x w l))),
          (.fdiv, [0x27], fun _ x w _ l => toF32m (fpRnd w) ((fa x w l).div (fb x w l))),
          (.fsqrt, [0x28], fun _ x w _ l => toF32m (fpRnd w) (fa x w l).sqrt),
          (.frcp, [0x29], fun u x w _ l => rcpF u l (fa x w l)), (.frsq, [0x2A], fun u x w _ l => rsqF u l (fa x w l)),
          (.fexp2, [0x2B], fun u x w _ l => exp2F u l (fa x w l)), (.flog2, [0x2C], fun u x w _ l => log2F u l (fa x w l)),
          (.fsin, [0x2D], fun u x w _ l => trigF u false l (fa x w l)),
          (.fcos, [0x2E], fun u x w _ l => trigF u true l (fa x w l)),
          (.cvt, [0x30], fun u x w _ l => cvtLane w (Config.freeFp u.freeIdx l).toNat (a32 x w l) (x.vg (tD w) l)),
          (.sel, [0x10], fun _ x w _ l => if (x.pg (fld (tMod w) 0 3)).getLsbD l then a32 x w l else b32 x w l),
          (.xlane, [0x3A], fun _ x w ex l => match xlaneSrc w (b32 x w l) l with
            | some k => if ex.getLsbD k then a32 x w k else a32 x w l
            | none => a32 x w l)]
      : List ((CoreId → PunId → W64 → Instr) × List Nat × (State → PunRegs → W64 → W32 → Nat → W32))),
    ∀ (c : CoreId) (p : PunId) (w : W64) (u s : State), s.issues c p r.2.1 w u → Runs (r.1 c p w) s (fun t =>
      let x := (s.pun c p).regs
      OnlyPunnet u t c p ∧ LandsLanes t c p x (tD w) (execLanes x w) (r.2.2 u x w (execLanes x w)))

/-- R188, R187, R191, R192: comparisons and predicates, and the instructions that write one uniform register. -/
def Obligations.ThreadPredicateAndUniformRowsLandResults : Prop :=
  -- ICMP, FCMP, PCOMB, and LPOLL any and all
  (∀ r ∈ ([(.icmp, [0x12], fun w => fld (tMod w) 0 3, fun x w _ l =>
              combine (fld (tMod w) 6 2) ((x.pg (fld (tMod w) 0 3)).getLsbD l)
                (icond (fld (tMod w) 3 3) (tX w) (a32 x w l) (b32 x w l))),
           (.fcmp, [0x26], fun w => fld (tMod w) 0 3, fun x w _ l =>
              combine (fld (tMod w) 6 2) ((x.pg (fld (tMod w) 0 3)).getLsbD l)
                (fcond (fld (tMod w) 3 3) (ofF32 (a32 x w l)) (ofF32 (b32 x w l)))),
           (.pcomb, [0x38], fun w => fld (tMod w) 0 3, fun x w _ l => (pcombMask x w).getLsbD l),
           (.lpoll, [0x39], fun w => fld (tMod w) 5 3, fun x w ex _ =>
              if fld (tMod w) 0 2 = 0 then x.pg (fld (tMod w) 2 3) &&& ex != 0
              else x.pg (fld (tMod w) 2 3) &&& ex == ex)]
      : List ((CoreId → PunId → W64 → Instr) × List Nat × (W64 → Nat) × (PunRegs → W64 → W32 → Nat → Bool))),
    ∀ (c : CoreId) (p : PunId) (w : W64) (u s : State), s.issues c p r.2.1 w u → (tOp w = 0x39 → fld (tMod w) 0 2 ≠ 2) →
      Runs (r.1 c p w) s (fun t =>
        let x := (s.pun c p).regs
        OnlyPunnet u t c p ∧ LandsPred t c p x (r.2.2.1 w) (execLanes x w) (r.2.2.2 x w (execLanes x w)))) ∧
  -- LPOLL ballot, MOVHI, V2U, RDSR with a uniform destination, CJ.READ
  (∀ r ∈ ([(.lpoll, [0x39], tD, fun _ x w ex => ((x.pg (fld (tMod w) 2 3)) &&& ex).setWidth 64),
           (.teMovhi, [0x13], tD, fun _ x w _ => tImm w ++ (x.ug (tD w)).setWidth 32),
           (.v2u, [0x3B], tD, fun _ x w ex => (a32 x w ((lanesOf ex).headD 0)).setWidth 64),
           (.rdsr, [0x3C], tD, fun k _ w _ => BitVec.ofNat 64 (k (tImm w).toNat))]
      : List ((CoreId → PunId → W64 → Instr) × List Nat × (W64 → Nat) × ((Nat → Nat) → PunRegs → W64 → W32 → W64))),
    ∀ (c : CoreId) (p : PunId) (w : W64) (u s : State), s.issues c p r.2.1 w u → tDu w = true →
      Runs (r.1 c p w) s (fun t =>
        let x := (s.pun c p).regs
        OnlyPunnet u t c p ∧ LandsUniform t c p x (r.2.2.1 w) (execLanes x w)
          (r.2.2.2 (fun k => if k = 1 then p else if k = 2 then c else if k = 3 then s.time else
            if k = 4 then (s.core c).cycles else s.gov.work % 2 ^ 48) x w (execLanes x w)))) ∧
  (∀ (c : CoreId) (p : PunId) (w : W64) (u s : State), s.issues c p [0x63] w u → Runs (.cjRead c p w) s (fun t =>
    let x := (s.pun c p).regs
    OnlyPunnet u t c p ∧ LandsUniform t c p x (tUa w) (execLanes x w)
      ((u.conj (u.pun c p).ctx (tConj w)).value.setWidth 64))) ∧
  -- RDSR with a vector destination: the lane, the slot or the core
  (∀ (c : CoreId) (p : PunId) (w : W64) (u s : State), s.issues c p [0x3C] w u → tDu w = false →
    Runs (.rdsr c p w) s (fun t =>
      let x := (s.pun c p).regs
      OnlyPunnet u t c p ∧ LandsLanes t c p x (tD w) (execLanes x w) (fun l =>
        BitVec.ofNat 32 (if (tImm w).toNat = 0 then l else if (tImm w).toNat = 1 then p else c))))

/-- R163, R197: branches, calls, EXIT and NOP. A branch whose lanes part runs the taken side first and holds the other
on the reconvergence stack.
Where the manual is open it rests on the model's choices: log entries 73, 78. -/
def Obligations.ThreadControlRowsMoveThePunnet : Prop :=
  -- BRA: every lane that runs takes it, or none does, or the lanes part
  (∀ (c : CoreId) (p : PunId) (w : W64) (u s : State), s.issues c p [0x50] w u →
    let x := (s.pun c p).regs
    let dst := branchPc x (tTarget w)
    (execLanes x w = x.active → Runs (.bra c p w) s (fun t =>
      OnlyPunnet u t c p ∧ (t.pun c p).regs = { x with pc := dst }.settle)) ∧
    (execLanes x w = 0 → x.active ≠ 0 → Runs (.bra c p w) s (fun t =>
      OnlyPunnet u t c p ∧ (t.pun c p).regs = { x with pc := (x.pc + 8) % 2 ^ 64 }.settle)) ∧
    (execLanes x w ≠ x.active → execLanes x w ≠ 0 → x.stack.length < 32 → Runs (.bra c p w) s (fun t =>
      OnlyPunnet u t c p ∧ ∃ e : Reconv,
        (t.pun c p).regs = { x with pc := dst, active := execLanes x w, stack := e :: x.stack }.settle ∧
        e.at_ = branchPc x (tReconv w) ∧ e.other = x.active &&& ~~~(execLanes x w) ∧
        e.otherPc = (x.pc + 8) % 2 ^ 64 ∧ e.ran = false ∧ e.joined = 0))) ∧
  -- CALL: the link register takes the next address
  (∀ (c : CoreId) (p : PunId) (w : W64) (u s : State), s.issues c p [0x51] w u → Runs (.call c p w) s (fun t =>
    let x := (s.pun c p).regs
    OnlyPunnet u t c p ∧ ∃ q : PunRegs, (t.pun c p).regs = q.settle ∧ q.pc = branchPc x (tTarget w) ∧ q.active = x.active ∧
      q.stack = x.stack ∧ q.v = x.v ∧ q.p = x.p ∧
      ∀ n, q.ug n = if n = tLink w then BitVec.ofNat 64 ((x.pc + 8) % 2 ^ 64) else x.ug n)) ∧
  -- BRX to an aligned address
  (∀ (c : CoreId) (p : PunId) (w : W64) (u s : State), s.issues c p [0x52] w u →
    let x := (s.pun c p).regs
    let dst := (x.ug (tAi w) + (tImm w).signExtend 64).toNat
    dst % 8 = 0 → Runs (.brx c p w) s (fun t =>
      OnlyPunnet u t c p ∧ (t.pun c p).regs = { x with pc := dst }.settle)) ∧
  -- EXIT: the executing lanes end; with no lane left the punnet does. It waits for the punnet's loads and atomics
  (∀ (c : CoreId) (p : PunId) (w : W64) (u s : State), s.issues c p [0x53] w u →
    let x := (s.pun c p).regs
    (loadsDone u c p = true → Runs (.exit c p w) s (fun t =>
      OnlyPunnet u t c p ∧ (t.pun c p).exited = (u.pun c p).exited ||| execLanes x w ∧
      (t.pun c p).regs = { x with pc := (x.pc + 8) % 2 ^ 64, active := x.active &&& ~~~(execLanes x w) }.settle ∧
      ((t.pun c p).ended = true ↔ (u.pun c p).init &&& ~~~((u.pun c p).exited ||| execLanes x w) = 0))) ∧
    (loadsDone u c p = false → Runs (.exit c p w) s (fun t => t = s.ticked))) ∧
  (∀ (c : CoreId) (p : PunId) (w : W64) (u s : State), s.issues c p [0x54] w u → Runs (.teNop c p w) s (fun t =>
    OnlyPunnet u t c p ∧ (t.pun c p).regs = { (s.pun c p).regs with pc := ((s.pun c p).regs.pc + 8) % 2 ^ 64 }.settle))

/-- R171 to R178, R182, R198: what a trap saves, counts and records, and how the punnet stops.
Where the manual is open it rests on the model's choices: log entries 71, 72, 79. -/
def Obligations.ThreadTrapsSaveAndStop : Prop :=
  -- TRAP (cause 5) and BRK (cause 6), with the frame on the trap stack
  (∀ (b : Bool) (c : CoreId) (p : PunId) (w : W64) (g : Grid) (u z s : State),
    s.fetched c p [if b then 0x56 else 0x55] w u → punIdle s c p = true → (u.te c).grid = some g → g.stopped = false →
    g.fn < 128 →
    let x := (s.pun c p).regs
    let k : TrapIn := { cause := if b then 6 else 5, mask := execLanes x w }
    let at_ := (x.ug 63).toNat - 640
    execLanes x w ≠ 0 →
    pushFrame u c g (x.ug 63).toNat (trapFrame u c p (u.pun c p) x k false (parkMode u g)) = (z, true) →
    Runs (if b then .brk c p w else .trap c p w) s (fun t =>
      t.mem = z.mem ∧ (t.pun c p).regs = x.uset 63 (BitVec.ofNat 64 at_) ∧ (t.pun c p).parked = parkMode u g ∧
      (t.pun c p).trap.cause = k.cause ∧ (t.pun c p).trap.double = false ∧
      rdF t (coreA c 0x228) 0 16 = Nat.min (rdF z (coreA c 0x228) 0 16 + 1) 0xFFFF ∧
      rdF t (fpA g.fn 0x30800) 0 16 = Nat.min (rdF z (fpA g.fn 0x30800) 0 16 + 1) 0xFFFF ∧
      ((z.flt g.fn).recs.length < 64 → ∃ f : FltRec, (t.flt g.fn).recs = (z.flt g.fn).recs ++ [f] ∧ f.code = k.cause ∧
        f.pc = x.pc ∧ f.mask = k.mask ∧ f.slot = p ∧ f.parked = parkMode u g ∧ f.eng = some (engId c .te)) ∧
      -- in park mode the TE goes on; else the context ends on it
      (parkMode u g = true → (t.te c).grid = (z.te c).grid) ∧
      (parkMode u g = false → (z.te c).grid = some g →
        (t.te c).grid = some { g with stopped := true, cause := k.cause, cutAt := (z.core c).cycles }))) ∧
  -- u63 does not admit the frame, or its write fails: a double trap; the shadow frame holds its first 512 bytes, and u63 stands
  (∀ (c : CoreId) (g : Grid) (v : Nat) (frame : List Byte) (u : State),
    (v % 128 ≠ 0 ∨ v < g.trapBase + 640 ∨ g.trapBase + g.trapSize < v) → pushFrame u c g v frame = (u, false)) ∧
  (∀ (b : Bool) (c : CoreId) (p : PunId) (w : W64) (g : Grid) (u v s : State),
    s.fetched c p [if b then 0x56 else 0x55] w u → punIdle s c p = true → (u.te c).grid = some g →
    let x := (s.pun c p).regs
    let k : TrapIn := { cause := if b then 6 else 5, mask := execLanes x w }
    execLanes x w ≠ 0 →
    pushFrame u c g (x.ug 63).toNat (trapFrame u c p (u.pun c p) x k false (parkMode u g)) = (v, false) →
    Runs (if b then .brk c p w else .trap c p w) s (fun t =>
      t.mem = v.mem ∧ (t.pun c p).regs = x ∧ (t.pun c p).parked = parkMode u g ∧ (t.pun c p).trap.double = true ∧
      (t.pun c p).shadow = (trapFrame u c p (u.pun c p) x k true (parkMode u g)).take 512 ∧
      rdF t (coreA c 0x228) 0 16 = Nat.min (rdF v (coreA c 0x228) 0 16 + 1) 0xFFFF ∧
      rdF t (coreA c 0x228) 16 16 = Nat.min (rdF v (coreA c 0x228) 16 16 + 1) 0xFFFF)) ∧
  -- an unassigned opcode traps with ILLEGAL, whatever row it is given with
  (∀ mk ∈ ([.iadd, .fadd, .bra, .ld, .cjSig] : List (CoreId → PunId → W64 → Instr)),
    ∀ (c : CoreId) (p : PunId) (w : W64) (g : Grid) (u s : State), teFmt (tOp w) = none → punReady s c p = true →
      (s.pun c p).stepDue = false → (s.pun c p).regs.pc % 8 = 0 →
      (∃ bs, readVa s c (s.pun c p).fn (some (s.pun c p).ctx) (s.pun c p).regs.pc 8 .fetch = (u, .inl bs) ∧
        BitVec.ofNat 64 (leNat bs) = w) → punIdle s c p = true → (u.te c).grid = some g →
      Runs (mk c p w) s (fun t => (t.pun c p).trap.cause = 1 ∧ (t.pun c p).parked = parkMode u g ∧
        (t.pun c p).regs.pc = (s.pun c p).regs.pc)) ∧
  -- single step: the instruction completes and the punnet parks with STEP
  (∀ (c : CoreId) (p : PunId) (w : W64) (u s : State), s.fetched c p [0x54] w u → stepOn u c p = true → u.hasLanes c p →
    punIdle u c p = true → Runs (.teNop c p w) s (fun t =>
      (t.pun c p).parked = true ∧ (t.pun c p).trap.cause = 8 ∧
      (t.pun c p).regs.pc = { (s.pun c p).regs with pc := ((s.pun c p).regs.pc + 8) % 2 ^ 64 }.settle.pc))

/-- R165, R199, R253 to R255, R266 to R271: the synchronisation instructions of a punnet whose lanes execute.
Where the manual is open it rests on the model's choices: log entries 39, 73. -/
def Obligations.ThreadSynchronisationRowsAct : Prop :=
  ∀ (c : CoreId) (p : PunId) (w : W64) (u s : State), execLanes (s.pun c p).regs w ≠ 0 → u.hasLanes c p →
  let x := (u.pun c p).ctx
  let r := (s.pun c p).regs
  let stays (t : State) : Prop := ∃ q : PunRegs, Proceeds t c p r q ∧ q.v = r.v ∧ q.u = r.u ∧ q.p = r.p
  -- BAR.BLOCK: the punnet is held until every punnet of its block that has not ended has arrived
  (∀ k : Block, s.issues c p [0x60] w u → loadsDone u c p = true → (u.te c).blockOf p = some k → p.val ∉ k.arrived →
    (∀ q, q ∈ k.slots ∨ q ∈ k.arrived → (u.pun c q).nextArr = false) → (u.pun c p).ended = false → p.val ∈ k.slots →
    ((∃ q ∈ k.slots, q ≠ p ∧ (u.pun c q).ended = false ∧ q ∉ k.arrived) → Runs (.barBlock c p w) s (fun t =>
      t.mem = u.mem ∧ t.syn = u.syn ∧ stays t ∧ (t.pun c p).hold = .bar k.gen ∧
      (t.te c).blockOf p = some { k with arrived := k.arrived ++ [p.val] })) ∧
    ((∀ q ∈ k.slots, q = p ∨ (u.pun c q).ended = true ∨ q ∈ k.arrived) → Runs (.barBlock c p w) s (fun t =>
      t.mem = u.mem ∧ t.syn = u.syn ∧ stays t ∧ (t.pun c p).hold = .none ∧
      (∀ q ∈ k.arrived, (u.pun c q).hold = .bar k.gen → (t.pun c q).hold = .none) ∧
      (t.te c).blockOf p = some { k with gen := k.gen + 1, arrived := [] }))) ∧
  -- CJ.SIG: a signal with the punnet as its source
  (s.issues c p [0x61] w u → releaseReady u c p = true → Runs (.cjSig c p w) s (fun t =>
    t.mem = u.mem ∧ stays t ∧ t.syn = { u.syn with transit := u.syn.transit ++
      [{ ctx := x, conj := tConj w, n := sValue r w, short := false, src := sigSrc c .te x r.pc }] })) ∧
  -- CJ.WAIT: satisfied at once, or registered
  (s.issues c p [0x62] w u → waitReady u c p = true →
    (sValue r w ≤ (u.conj x (tConj w)).value → (u.conj x (tConj w)).shortPending = false → Runs (.cjWait c p w) s (fun t =>
      t.mem = u.mem ∧ t.syn = u.syn ∧ stays t ∧ (l1On u c = true → (t.te c).l1 = []))) ∧
    (¬ sValue r w ≤ (u.conj x (tConj w)).value → Runs (.cjWait c p w) s (fun t =>
      t.mem = u.mem ∧ stays t ∧ (t.pun c p).hold = .wait (.conj x (tConj w)) (sValue r w) ∧
      ∃ z : Waiter, t.syn = { u.syn with waiters := u.syn.waiters ++ [z] } ∧ z.obj = .conj x (tConj w) ∧
        z.target = sValue r w ∧ z.eng = engId c .te ∧ z.punnet = p ∧ z.ctx = x))) ∧
  -- BW.ARRIVE at a wire of the context that has the core as a member; at another wire it is counted
  (s.issues c p [0x64] w u → arriveReady u c p = true →
    let v := u.wire (tBar w)
    let up := v.raised ||| (1#32 <<< c.val)
    (v.valid = true → v.ctx.toNat = x → v.mask.toNat.testBit c = true → Runs (.teBwArrive c p w) s (fun t =>
      t.mem = u.mem ∧ stays t ∧ (t.pun c p).arrival = some (.wire (tBar w), v.gen) ∧
      t.wire (tBar w) = if up &&& v.mask = v.mask then { v with raised := 0, gen := v.gen + 1 } else { v with raised := up })) ∧
    ((v.valid && v.ctx.toNat == x && v.mask.toNat.testBit c) = false → Runs (.teBwArrive c p w) s (fun t =>
      t.mem = u.mem ∧ stays t ∧ t.syn = u.syn ∧
      rdF t 0x0040082C 0 16 = Nat.min (rdF u 0x0040082C 0 16 + 1) 0xFFFF))) ∧
  -- BW.WAIT and GB.WAIT after the punnet's own arrival: on to the next generation
  (∀ grp : Bool, ∀ k : W32, s.issues c p [if grp then 0x67 else 0x65] w u → waitReady u c p = true →
    let o : Obj := if grp then .group x (tBar w) else .wire (tBar w)
    (u.pun c p).arrival = some (o, k) → (grp = false → (u.wire (tBar w)).valid = true ∧ (u.wire (tBar w)).ctx.toNat = x) →
    (k < genOf u o → Runs (if grp then .teGbWait c p w else .teBwWait c p w) s (fun t =>
      t.mem = u.mem ∧ t.syn = u.syn ∧ stays t ∧ (l1On u c = true → (t.te c).l1 = []))) ∧
    (¬ k < genOf u o → Runs (if grp then .teGbWait c p w else .teBwWait c p w) s (fun t =>
      t.mem = u.mem ∧ stays t ∧ (t.pun c p).hold = .wait o 0 ∧
      ∃ z : Waiter, t.syn = { u.syn with waiters := u.syn.waiters ++ [z] } ∧ z.obj = o ∧ z.bseen = k ∧ z.anyNext = false ∧
        z.eng = engId c .te ∧ z.punnet = p ∧ z.ctx = x))) ∧
  -- ... without one: to the next completion
  (∀ grp : Bool, s.issues c p [if grp then 0x67 else 0x65] w u → waitReady u c p = true →
    let o : Obj := if grp then .group x (tBar w) else .wire (tBar w)
    (∀ k, (u.pun c p).arrival ≠ some (o, k)) → (grp = false → (u.wire (tBar w)).valid = true ∧ (u.wire (tBar w)).ctx.toNat = x) →
    Runs (if grp then .teGbWait c p w else .teBwWait c p w) s (fun t =>
      t.mem = u.mem ∧ stays t ∧ (t.pun c p).hold = .wait o 0 ∧
      ∃ z : Waiter, t.syn = { u.syn with waiters := u.syn.waiters ++ [z] } ∧ z.obj = o ∧ z.anyNext = true)) ∧
  -- GB.ARRIVE: with a tracker it is performed, with none the punnet is held
  (s.issues c p [0x66] w u → arriveReady u c p = true →
    (∀ (v : State) (k : W32), gbArriveOp u c x (tBar w) (sValue r w) = (v, .arrived k) → Runs (.teGbArrive c p w) s (fun t =>
      t.mem = u.mem ∧ stays t ∧ t.syn = v.syn ∧ (t.pun c p).arrival = some (.group x (tBar w), k))) ∧
    (∀ v : State, gbArriveOp u c x (tBar w) (sValue r w) = (v, .held) → Runs (.teGbArrive c p w) s (fun t =>
      t.mem = u.mem ∧ stays t ∧ (t.pun c p).hold = .gb (tBar w) (sValue r w) ∧
      ∃ h : HeldArr, t.syn = { u.syn with heldArr := u.syn.heldArr ++ [h] } ∧ h.ctx = x ∧ h.group = tBar w ∧
        h.mask = sValue r w ∧ h.core = c ∧ h.punnet = p)) ∧
    (∀ v : State, gbArriveOp u c x (tBar w) (sValue r w) = (v, .mismatch) → Runs (.teGbArrive c p w) s (fun t =>
      t.mem = u.mem ∧ stays t ∧ t.syn = v.syn ∧ (t.group x (tBar w)).mismatch = true)))

/-- R166, R168, R193 to R196, R219 to R227: what LD, ST, ATOM and FENCE do at issue, where lanes execute.
Where the manual is open it rests on the model's choices: log entries 73, 74, 75, 76. -/
def Obligations.ThreadMemoryRowsIssueRequests : Prop :=
  ∀ (c : CoreId) (p : PunId) (w : W64) (u v : State) (trs : List (Nat × Tr)) (s : State),
  let x := (s.pun c p).regs
  let ex := execLanes x w
  let lanes := if tDu w then (lanesOf ex).take 1 else lanesOf ex
  let goesOn (t : State) : Prop := ∃ q : PunRegs, Proceeds t c p x q ∧ q.v = x.v ∧ q.u = x.u ∧ q.p = x.p
  let free (m : MemOp) : Prop := l1On u c = false ∨ m.space = 1 ∨ ∀ a ∈ m.accs, (u.te c).bankBusy (lineOf a.va) = false
  let n := Machine.sizeOf (tSize w)
  let ld : MemOp := {
    space := tSpace w, acc := .read, kind := .load
    accs := lanes.map (fun l => { lane := l, va := addrOf x (tSpace w) (tA w) (tOff w) l, size := n })
    dst := some (if tDu w then .uni (tD w) else .vec (tD w)), regs := regsFor n, sext := tX w
    acquire := isAcquire (tOrder w), scope := tScope w }
  let st : MemOp := {
    space := tSpace w, acc := .write, kind := .store
    accs := lanes.map (fun l => { lane := l, va := addrOf x (tSpace w) (tA w) (tOff w) l, size := n,
                                  data := vecVal x (tD w) (regsFor n) l % 2 ^ (8 * n) })
    release := isRelease (tOrder w), scope := tScope w }
  let an := Machine.sizeOf (fld (tMod w) 0 2)
  let atom : MemOp := {
    space := fld (tMod w) 2 1, acc := .write, kind := .atom
    accs := lanes.map (fun l => { lane := l, va := addrOf x (fld (tMod w) 2 1) (tA w) 0 l, size := an,
                                  data := atomVal x an (tB w) l, cmp := atomVal x an (tC w) l })
    dst := if tX w then none else some (if tDu w then .uni (tD w) else .vec (tD w)), regs := regsFor an
    atomOp := fld (tMod w) 9 4, acquire := isAcquire (fld (tMod w) 6 3), release := isRelease (fld (tMod w) 6 3)
    scope := fld (tMod w) 3 3 }
  ex ≠ 0 →
  -- LD that the L1 does not hold: one request a line
  (s.issues c p [0x40] w u → u.memGoes c p ld v trs →
    (l1On u c = false ∨ tSpace w = 1 ∨ ∀ a ∈ ld.accs, (u.te c).l1Find a.va = none) → Runs (.ld c p w) s (fun t =>
      t.mem = v.mem ∧ t.poison = v.poison ∧ t.regs = v.regs ∧ t.syn = v.syn ∧ goesOn t ∧
      ∃ l, AddsRequests v t c p ld trs l)) ∧
  -- LD of one line that the L1 holds: its bytes land at once, or its parity is wrong and the line is fetched (R224, R230)
  (∀ (line pa : Nat) (o : Bool) (z : L1Line), s.issues c p [0x40] w u → u.memGoes c p ld v trs → linesOf ld.accs = [line] →
    trs = [(line, .ok pa false o)] → pa % 128 = 0 → l1On v c = true → l1Serves w pa false = true →
    (v.te c).bankBusy line = false → (v.te c).l1Find line = some z → Runs (.ld c p w) s (fun t =>
      t.mem = v.mem ∧ t.syn = v.syn ∧
      if Config.freeBit v.freeIdx (2 ^ 70 + line) then
        goesOn t ∧ (t.te c).l1Find line = none ∧ (∃ q ∈ (t.te c).reqs, q.slot = p ∧ q.fill = true ∧ q.line = line) ∧
        rdF t (coreA c 0x614) 0 16 = Nat.min (rdF v (coreA c 0x614) 0 16 + 1) 0xFFFF
      else
        t.regs = v.regs ∧ (t.te c).l1 = (v.te c).l1 ∧ ∃ q : PunRegs, Proceeds t c p x q ∧ q.p = x.p ∧
          ∀ a ∈ ld.accs,
            let val := extendVal (tX w) n (leNat ((z.bytes.drop (a.va % 128)).take n))
            (tDu w = true → q.ug (tD w) = BitVec.ofNat 64 val) ∧
            (tDu w = false → ∀ i < regsFor n, q.vg (tD w + i) a.lane = BitVec.ofNat 32 (val / 2 ^ (32 * i))))) ∧
  -- ST: one request a line; the L1's copy of a line takes the bytes
  (s.issues c p [0x41] w u → u.memGoes c p st v trs → free st → Runs (.st c p w) s (fun t =>
      t.mem = v.mem ∧ t.poison = v.poison ∧ t.regs = v.regs ∧ t.syn = v.syn ∧ goesOn t ∧
      (∃ l, AddsRequests v t c p st trs l) ∧
      (l1On u c = true → tSpace w = 0 → ∀ a, st.accs = [a] → ∀ z ∈ (t.te c).l1, z.va = lineOf a.va → ∀ i < n,
        z.bytes.getD (a.va % 128 + i) 0 = (leBytes n a.data).getD i 0))) ∧
  -- ATOM: one request a line; the lines leave the L1
  (s.issues c p [0x42] w u → u.memGoes c p atom v trs → free atom → Runs (.atom c p w) s (fun t =>
      t.mem = v.mem ∧ t.poison = v.poison ∧ t.regs = v.regs ∧ t.syn = v.syn ∧ goesOn t ∧
      (∃ l, AddsRequests v t c p atom trs l) ∧
      (l1On u c = true → fld (tMod w) 2 1 = 0 → ∀ a ∈ atom.accs, ∀ z ∈ (t.te c).l1, z.va ≠ lineOf a.va))) ∧
  -- a lane whose access is misaligned or does not translate: the punnet traps, with that lane's address
  (∀ (k : TrapIn) (g : Grid), s.issues c p [0x40] w u → acquireOpen u c p = false →
    lineTrs u c (u.pun c p).fn (u.pun c p).ctx ld.space .read none (linesOf ld.accs) = (v, trs) → accTrap trs ld.accs = some k →
    punIdle s c p = true → (v.te c).grid = some g → Runs (.ld c p w) s (fun t =>
      (t.pun c p).trap.cause = k.cause ∧ (t.pun c p).parked = parkMode v g ∧ (t.pun c p).regs.pc = x.pc)) ∧
  -- FENCE: an acquire (0) needs the punnet's loads; a release (1) puts what precedes it before the punnet's later stores and
  -- atomics at chip and system scope, and shows it to the core or bunch at a narrower one; 2 and 3 do both, and 3 waits at
  -- chip and system scope until what precedes it is at home
  (s.issues c p [0x43] w u →
    let kind := fld (tMod w) 3 2
    let sc := fld (tMod w) 0 3
    let waits := kind ≠ 1 ∧ loadsDone u c p = false ∨ kind = 3 ∧ 4 ≤ sc ∧ releaseReady u c p = false
    (waits → Runs (.fence c p w) s (fun t => t = s.ticked)) ∧
    (¬ waits → Runs (.fence c p w) s (fun t =>
      t.mem = u.mem ∧ t.regs = u.regs ∧ t.syn = u.syn ∧ goesOn t ∧
      (t.te c).reqs.map (·.id) = (u.te c).reqs.map (·.id) ∧
      (t.pun c p).relSet = (if kind ≠ 0 ∧ 4 ≤ sc then (u.pun c p).relSet.filter (reqOpen u) ++ releaseList u c p
        else (u.pun c p).relSet) ∧
      (kind ≠ 0 → 1 ≤ sc → ∀ q ∈ (t.te c).reqs, q.kind ≠ .load → q.visCore = true ∧ (sc = 2 → q.visBunch = true)) ∧
      (kind ≠ 1 → 2 ≤ sc → l1On u c = true → (t.te c).l1 = []))))

/-- R167, R171, R193, R195, R216, R226: what a request does when it is performed. The request is the only one left of its
instruction, its granules check clean, and no other request of the punnet has met poison.
Where the manual is open it rests on the model's choices: log entries 30, 74, 75, 77. -/
def Obligations.ThreadRequestsCompleteAtHome : Prop :=
  ∀ (c : CoreId) (n : Nat) (r : TeReq) (s : State), findReq s c n = some r → reqReady s r = true →
    (∀ q ∈ (s.te c).reqs, q.bad = 0 ∧ (q.id = n → q = r)) → (s.pun c r.slot).stepDue = false → groupOfIns s c r.slot r.ins = [r] →
    let a := match r.accs with | x :: _ => x.pa | [] => 0
    let lo := r.accs.foldl (fun m x => Nat.min m x.pa) a
    let hi := r.accs.foldl (fun m x => Nat.max m (x.pa + x.size)) a
    let regs := (s.pun c r.slot).regs
    let read := (readPa (reqSample s c r) lo (hi - lo)).1
    -- a load lands the bytes of memory, or with them those of a store of its core that is not at home yet
    (r.kind = .load → r.fill = false → (∀ y ∈ r.accs, poisoned read y.pa y.size = false) →
      let seen := match takesFrom read c r with
        | some q => { read with mem := (writeRuns read (storeBytes q.accs) 0 []).mem }
        | none => s
      Runs (.memoryRequestComplete c n .clean) s (fun t =>
        t.mem = s.mem ∧ t.syn = s.syn ∧ (∀ q ∈ (t.te c).reqs, q.id ≠ n) ∧
        (t.pun c r.slot).regs = landRegs regs { r with
          fin := true, got := r.accs.map (fun y => (y.lane, leNat (memBytes seen y.pa y.size))) })) ∧
    -- a store writes its bytes and no others; of lanes that meet, the higher stands
    (r.kind = .store → r.fill = false →
      (∀ e ∈ storeBytes r.accs, s.poison.contains (granule e.1) = false ∧
        (isHbm e.1 = false ∨ neverWritten s (granule e.1) = false)) →
      Runs (.memoryRequestComplete c n .clean) s (fun t =>
        t.syn = s.syn ∧ (t.pun c r.slot).regs = regs ∧ (∀ q ∈ (t.te c).reqs, q.id ≠ n) ∧
        (∀ e ∈ storeBytes r.accs, memByte t e.1 = e.2) ∧
        (∀ y, look (storeBytes r.accs) y = none → look t.mem y = look s.mem y))) ∧
    -- an atomic of one lane in SRAM: the new value is stored, the old one returned
    (∀ y : LaneAcc, r.kind = .atom → r.fill = false → r.accs = [y] → isSram y.pa = true → isSram (y.pa + y.size - 1) = true →
      poisoned s y.pa y.size = false →
      let old := leNat (memBytes s y.pa y.size)
      Runs (.memoryRequestComplete c n .clean) s (fun t =>
        t.mem = (match atomNew r.atomOp y.size old y.data y.cmp with
          | some z => (memWrite s y.pa (leBytes y.size z)).mem
          | none => s.mem) ∧
        (t.pun c r.slot).regs = landRegs regs { r with fin := true, got := if r.dst.isSome then [(y.lane, old)] else [] })) ∧
    -- L1_FILL: the load's bytes land, and the L1 holds the line
    (r.kind = .load → r.fill = true → r.keep = true → r.acqWide = false → r.line % 128 = 0 → l1On s c = true →
      (s.te c).l1Find r.line = none → poisoned (readPa (reqSample s c r) r.home 128).1 r.home 128 = false →
      (∀ y ∈ r.accs, r.home ≤ y.pa ∧ y.pa + y.size ≤ r.home + 128) →
      Runs (.l1Fill c n) s (fun t =>
        t.mem = s.mem ∧ (t.te c).l1Find r.line = some { va := r.line, bytes := memBytes s r.home 128 } ∧
        (t.pun c r.slot).regs = landRegs regs { r with
          fin := true, got := r.accs.map (fun y => (y.lane, leNat (memBytes s y.pa y.size))) })) ∧
    -- ... of a line that an earlier miss of the bank has brought: the L1 serves the load
    (∀ z : L1Line, r.kind = .load → r.fill = true → r.keep = true → r.acqWide = false → l1On s c = true →
      (s.te c).l1Find r.line = some z → Runs (.l1Fill c n) s (fun t =>
        t.mem = s.mem ∧ (t.te c).l1 = (s.te c).l1 ∧
        (t.pun c r.slot).regs = landRegs regs { r with
          fin := true, got := r.accs.map (fun y => (y.lane, leNat ((z.bytes.drop (y.va % 128)).take y.size))) }))

/-- R158 to R162, R170, R176: work of the thread engine starts on its cores, launches block by block, and ends.
Where the manual is open it rests on the model's choices: log entry 51. -/
def Obligations.ThreadWorkLaunchesAndEnds : Prop :=
  -- TE_LAUNCH: every core of the mask whose TE is free takes the grid
  (∀ (f : Fn) (q : Qid) (k : Cmd) (s : State),
    nextStart s f q 2 (fun c => mayStart s f && resident s c.ctx && !(teCores s f q c).isEmpty) = some k →
    let l := k.toStart.filter (fun n => teFree s n f && firstFor s f q k n)
    Runs (.teLaunch f q) s (fun t =>
      t.mem = s.mem ∧ t.poison = s.poison ∧
      (∀ n ∈ l, (gridOf f q k n).ci < (gridOf f q k n).blocks → (t.te n).grid = some (gridOf f q k n)) ∧
      (∀ n, n ∉ l → (t.te n).grid = (s.te n).grid))) ∧
  -- BLOCK_LAUNCH: the lowest free slots take the block's punnets, with the registers of R161
  (∀ (c : CoreId) (g : Grid) (b : Nat) (s : State), (s.te c).grid = some g → g.nextBlock = some b → gridCut s c = false →
    (s.te c).stopPending = false → g.punnets ≤ (freeSlots (s.te c)).length →
    (∀ r, g.region b = some r → ∀ k ∈ (s.te c).blocks, k.region ≠ some r) → Runs (.blockLaunch c) s (fun t =>
      let slots := (freeSlots (s.te c)).take g.punnets
      t.mem = s.mem ∧ t.syn = s.syn ∧ (t.te c).grid = some { g with launched := g.launched + 1 } ∧
      (∃ k : Block, (t.te c).blocks = (s.te c).blocks ++ [k] ∧ k.b = b ∧ k.slots = slots ∧ k.region = g.region b) ∧
      (∀ p, p ∉ slots → t.pun c p = s.pun c p) ∧
      ((s.te c).lastCtx ≠ some g.ctx → (t.te c).l1 = []) ∧
      ∀ i < g.punnets, ∃ p, slots[i]? = some p ∧
        let x := t.pun c p
        x.resident = true ∧ x.ended = false ∧ x.block = b ∧ x.idx = i ∧ x.init = g.lanes i ∧ x.regs.active = g.lanes i ∧
        x.regs.pc = g.entry ∧ x.regs.stack = [] ∧ x.regs.ug 0 = BitVec.ofNat 64 b ∧ x.regs.ug 1 = BitVec.ofNat 64 g.blocks ∧
        x.regs.ug 2 = BitVec.ofNat 64 i ∧ x.regs.ug 3 = BitVec.ofNat 64 c ∧
        x.regs.ug 63 = BitVec.ofNat 64 (g.trapBase + (g.ci * 64 + p + 1) * 1024) ∧
        (∀ j < 8, x.regs.ug (8 + j) = g.args.getD j 0) ∧
        (∀ l < 32, x.regs.vg 0 l = BitVec.ofNat 32 (32 * i + l) ∧ (g.lanes i).getLsbD l = decide (32 * i + l < g.threads)))) ∧
  -- a core that no block of the grid falls to ends its part of the command at once
  (∀ (n : Nat) (g : Grid) (s : State), g.blocks ≤ g.ci → startGrid s n g = cmdEnd s g.cmd n) ∧
  -- BLOCK_END: every punnet has ended and the block's local-store writes have landed, or its grid is cut and nothing of it is
  -- outstanding; the slots return, each with its shadow frame and the record of its trap, and global writes of the block stay on
  -- their way; with no block left, none to launch and nothing outstanding the grid ends
  (∀ (c : CoreId) (b : Nat) (k : Block) (g : Grid) (s : State), (s.te c).blocks.find? (fun k => k.b == b) = some k →
    (gridCut s c = false ∧ (∀ p ∈ k.slots, (s.pun c p).ended = true) ∧
        (∀ r ∈ (s.te c).reqs, r.slot ∈ k.slots → r.lsWrite = false) ∨
      gridCut s c = true ∧ ∀ p ∈ k.slots, punIdle s c p = true) →
    (s.te c).grid = some g → Runs (.blockEnd c b) s (fun t =>
      t.mem = s.mem ∧ t.poison = s.poison ∧ (t.te c).blocks = (s.te c).blocks.filter (fun j => j.b != k.b) ∧
      (∀ p ∈ k.slots, (t.pun c p).resident = false ∧ (t.pun c p).shadow = (s.pun c p).shadow ∧
        (t.pun c p).trap = (s.pun c p).trap) ∧
      (t.te c).reqs.map (fun r => (r.id, r.accs)) = (s.te c).reqs.map (fun r => (r.id, r.accs)) ∧
      (∀ p, p ∉ k.slots → t.pun c p = s.pun c p) ∧
      ((∀ j ∈ (s.te c).blocks, j.b = k.b) → (s.te c).reqs = [] → (gridCut s c = true ∨ g.nextBlock = none) →
        (t.te c).grid = none)))

/-- R177, R179, R228, R229: the parked punnet that CORE_TE_SEL selects, and the L1's control and maintenance.
Where the manual is open it rests on the model's choices: log entries 79, 80. -/
def Obligations.ParkedPunnetAndL1RowsTakeEffect : Prop :=
  -- REPLAY: refused unless the punnet is parked and no preemption is pending
  (∀ (c : CoreId) (s : State), ((s.pun c (selSlot s c)).parked = false ∨ preemptPending s c = true) →
    Runs (.replay c) s (fun t => t = { s.ticked with regs := t.regs } ∧ rdF t (coreA c 0x224) 4 2 = 1)) ∧
  -- ... with its frame: pc, lanes, predicates, u0 to u62 and the u63 at 0x38
  (∀ (c : CoreId) (b : List Byte) (v s : State), (s.pun c (selSlot s c)).parked = true → preemptPending s c = false →
    let p := selSlot s c
    let x := s.pun c p
    x.trap.double = false → readVa s c x.fn (some x.ctx) (x.regs.ug 63).toNat 640 .read = (v, .inl b) →
    Runs (.replay c) s (fun t =>
      t.mem = v.mem ∧ (t.pun c p).parked = false ∧ rdF t (coreA c 0x224) 4 2 = 0 ∧
      ∃ q : PunRegs, (t.pun c p).regs = q.settle ∧ q.pc = leNat (b.take 8) ∧ q.stack = x.regs.stack ∧ q.v = x.regs.v ∧
        q.active = BitVec.ofNat 32 (leNat ((b.drop 0x0C).take 4)) &&& (x.init &&& ~~~x.exited) ∧
        (∀ i < 8, q.pg i = BitVec.ofNat 32 (leNat ((b.drop (0x60 + 4 * i)).take 4))) ∧
        (∀ i < 63, q.ug i = BitVec.ofNat 64 (leNat ((b.drop (0x80 + 8 * i)).take 8))) ∧
        q.ug 63 = BitVec.ofNat 64 (leNat ((b.drop 0x38).take 8)))) ∧
  -- ... after a double trap: from the shadow frame, once u63 has been written
  (∀ (c : CoreId) (s : State), (s.pun c (selSlot s c)).parked = true → preemptPending s c = false →
    let p := selSlot s c
    let x := s.pun c p
    x.trap.double = true → Runs (.replay c) s (fun t =>
      t.mem = s.mem ∧ (x.trap.u63Written = false → (t.pun c p).parked = true ∧ rdF t (coreA c 0x224) 4 2 = 2) ∧
      (x.trap.u63Written = true → (t.pun c p).parked = false ∧ rdF t (coreA c 0x224) 4 2 = 0 ∧
        (t.pun c p).regs.ug 63 = x.regs.ug 63 ∧
        ∀ i < 48, (t.pun c p).regs.ug i = BitVec.ofNat 64 (leNat ((x.shadow.drop (0x80 + 8 * i)).take 8))))) ∧
  -- PUNNET_KILL of a parked punnet: the context ends on this TE
  (∀ (c : CoreId) (g : Grid) (s : State), (s.pun c (selSlot s c)).parked = true → (s.te c).grid = some g → g.stopped = false →
    Runs (.punnetKill c) s (fun t =>
      t.mem = s.mem ∧
      (t.te c).grid = some { g with stopped := true, cause := (s.pun c (selSlot s c)).trap.cause,
                                    cutAt := (s.core c).cycles } ∧
      (∀ w ∈ t.syn.waiters, w.eng ≠ engId c .te))) ∧
  -- U63_HI_WRITE and U63_LO_WRITE: the low half commits both
  (∀ (c : CoreId) (v : W32) (s : State), (s.pun c (selSlot s c)).parked = true → Runs (.u63HiWrite c v) s (fun t =>
    t = { s.ticked with cores := t.cores } ∧ t.core c = { s.core c with te := { s.te c with u63Hi := v } })) ∧
  (∀ (c : CoreId) (v : W32) (s : State), (s.pun c (selSlot s c)).parked = true → Runs (.u63LoWrite c v) s (fun t =>
    t = { s.ticked with cores := t.cores } ∧
    (t.pun c (selSlot s c)).regs.ug 63 = (s.te c).u63Hi ++ v ∧ (t.pun c (selSlot s c)).trap.u63Written = true ∧
    (∀ n, n ≠ 63 → (t.pun c (selSlot s c)).regs.ug n = (s.pun c (selSlot s c)).regs.ug n) ∧
    ∀ k, k ≠ selSlot s c → t.pun c k = s.pun c k)) ∧
  -- L1_ENABLE_WRITE
  (∀ (c : CoreId) (v : W32) (s : State), Runs (.l1EnableWrite c v) s (fun t =>
    t = { s.ticked with regs := t.regs } ∧ rd t (coreA c 0x600) = v &&& 1 ∧
    ∀ a, a ≠ coreA c 0x600 → rd t a = rd s a)) ∧
  -- the maintenance operations: one at a time, while the TE runs a grid; op 1 invalidates, 2 cleans, 3 both
  (∀ r ∈ ([(.l1InvalidateOp, 1), (.l1CleanOp, 2), (.l1CleanInvalidateOp, 3)] : List ((CoreId → Instr) × Nat)),
    ∀ (c : CoreId) (g : Grid) (s : State), (s.te c).grid = some g →
    ((s.te c).maint.busy = true → Runs (r.1 c) s (fun t =>
      t = { s.ticked with regs := t.regs } ∧ rdB t (coreA c 0x610) 5 = true)) ∧
    ((s.te c).maint.busy = false → Runs (r.1 c) s (fun t =>
      t = { s.ticked with cores := t.cores } ∧ (t.te c).maint.busy = true ∧ (t.te c).maint.op = r.2 ∧
      (t.te c).l1 = (s.te c).l1 ∧
      (∀ a ∈ (t.te c).maint.lines, ∃ l ∈ (s.te c).l1, l.va = a) ∧
      ((rd s (coreA c 0x60C)).toNat = 0 → ∀ l ∈ (s.te c).l1, l.va ∈ (t.te c).maint.lines)))) ∧
  -- L1_MAINT_DONE: a clean waits for the stores that were outstanding; the other two drop the lines
  (∀ (c : CoreId) (s : State), (s.te c).maint.busy = true →
    ((s.te c).maint.op = 1 ∨ ∀ r ∈ (s.te c).reqs, r.id ∉ (s.te c).maint.stores) → Runs (.l1MaintDone c) s (fun t =>
      t = { s.ticked with cores := t.cores } ∧ (t.te c).maint.busy = false ∧
      ((s.te c).maint.op = 2 → (t.te c).l1 = (s.te c).l1) ∧
      ((s.te c).maint.op ≠ 2 →
        (t.te c).l1 = (s.te c).l1.filter (fun l => !(s.te c).maint.lines.contains l.va))))

/-! ## Memory management, memory integrity, sketch slots -/

/-- R211, R212, R214: the root and allotments of a function change only while no context of it is resident; an invalidation
drops what it covers, and the walk-cache entries, from every TLB.
Where the manual is open it rests on the model's choices: log entry 34. -/
def Obligations.MmuRowsTakeEffect : Prop :=
  (∀ (f : Fn) (hi : Bool) (v : W32) (s : State), Runs (.mmuRootWrite f hi v) s (fun t =>
    t = { s.ticked with regs := t.regs } ∧
    (fnResident s f = true → rdB t (mmuA f 5) 0 = true ∧ ∀ a, a ≠ mmuA f 5 → rd t a = rd s a) ∧
    (fnResident s f = false → rd t (mmuA f (if hi then 1 else 0)) = v &&& (if hi then 0xFFFFF else 0xFFFFF001) ∧
      ∀ a, a ≠ mmuA f (if hi then 1 else 0) → rd t a = rd s a))) ∧
  (∀ (f : Fn) (k : Fin 16) (hi : Bool) (v : W32) (s : State), Runs (.allotWrite f k hi v) s (fun t =>
    t = { s.ticked with regs := t.regs } ∧
    (fnResident s f = true → rdB t (mmuA f 5) 2 = true ∧ ∀ a, a ≠ mmuA f 5 → rd t a = rd s a) ∧
    (fnResident s f = false → rd t (allotA f k (if hi then 1 else 0)) = (if hi then v &&& 0x3FFFF else v) ∧
      ∀ a, a ≠ allotA f k (if hi then 1 else 0) → rd t a = rd s a))) ∧
  -- MMU_INVALIDATE: with start it begins, or is refused while one runs
  (∀ (f : Fn) (v : W32) (s : State), Runs (.mmuInvalidate f v) s (fun t =>
    t = { s.ticked with regs := t.regs, hq := t.hq, cores := t.cores, lnk := t.lnk } ∧ rd t (mmuA f 4) = v &&& 0xFFFFFF ∧
    (∀ c, (t.core c).tlb = (s.core c).tlb) ∧
    (v.getLsbD 24 = false → t.hq = s.hq ∧ t.cores = s.cores ∧ t.lnk = s.lnk) ∧
    (v.getLsbD 24 = true → (s.hq.inv.get none f).isSome = true →
      rdB t (mmuA f 5) 1 = true ∧ t.hq = s.hq ∧ t.cores = s.cores ∧ t.lnk = s.lnk) ∧
    (v.getLsbD 24 = true → s.hq.inv.get none f = none →
      t.hq.inv.get none f = some (rdF s (mmuA f 2) 16 16 * 65536 + rdF s (mmuA f 3) 0 20 * 2 ^ 32, fld v.toNat 0 24) ∧
      ∀ g : Fn, g ≠ f → t.hq.inv.get none g = s.hq.inv.get none g))) ∧
  -- INVALIDATE_DONE: the accesses that used a dropped translation have ended
  (∀ (f : Fn) (s : State), (s.hq.inv.get none f).isSome = true → oldLeft s f = false → Runs (.invalidateDone f) s (fun t =>
    t = { s.ticked with hq := { s.hq with tlb := t.hq.tlb, inv := t.hq.inv }, cores := t.cores } ∧
    t.hq.inv.get none f = none ∧
    ∀ c < 32, ∀ e, (e ∈ (t.core c).tlb ↔
      e ∈ (s.core c).tlb ∧ ¬ (e.fn = f ∧ (e.size = 0 ∨ invCovers s f e.va e.size = true)))))

/-- R231 to R235, R249 to R251: errors of protected arrays, failed reads of host memory, sketch slots.
Where the manual is open it rests on the model's choices: log entries 12, 36, 37, 47, 70, 114, 116. -/
def Obligations.MemoryIntegrityAndSketchRowsTakeEffect : Prop :=
  -- PATROL_SCRUB: a correctable error is counted; an uncorrectable one poisons the granule
  (∀ (pa : Nat) (s : State), populated s pa = true → isHost pa = false →
    let g := granule pa
    Runs (.patrolScrub (.mem pa) .clean) s (fun t => t = { s.ticked with mon := t.mon }) ∧
    (s.poison.contains g = true → ∀ e : Ecc, Runs (.patrolScrub (.mem pa) e) s (fun t => t = { s.ticked with mon := t.mon })) ∧
    (s.poison.contains g = false → Runs (.patrolScrub (.mem pa) .correctable) s (fun t =>
      t = { s.ticked with mon := t.mon, regs := t.regs, ras := t.ras } ∧
      rdF t (memCeA pa) 0 16 = Nat.min (rdF s (memCeA pa) 0 16 + 1) 0xFFFF)) ∧
    (s.poison.contains g = false → Runs (.patrolScrub (.mem pa) .uncorrectable) s (fun t =>
      t = { s.ticked with mon := t.mon, regs := t.regs, ras := t.ras, poison := g :: s.poison } ∧
      rdF t (memCeA pa + 4) 0 16 = Nat.min (rdF s (memCeA pa + 4) 0 16 + 1) 0xFFFF))) ∧
  -- ... of an accumulator element of a stream: counted in MEM_REG_CE or MEM_REG_UE; an uncorrectable error poisons it
  (∀ (c : CoreId) (b : Fin 2) (i : Fin 65536) (s : State), (s.core c).glPass = none →
    let k := (s.core c).banks.get {} b
    i.val ∉ k.bad →
    Runs (.patrolScrub (.bank c b i) .clean) s (fun t => t = s.ticked) ∧
    Runs (.patrolScrub (.bank c b i) .correctable) s (fun t =>
      t = { s.ticked with regs := t.regs, ras := t.ras } ∧
      rdF t 0x02000028 0 16 = Nat.min (rdF s 0x02000028 0 16 + 1) 0xFFFF) ∧
    Runs (.patrolScrub (.bank c b i) .uncorrectable) s (fun t =>
      t = { s.ticked with regs := t.regs, ras := t.ras, cores := t.cores } ∧
      rdF t 0x0200002C 0 16 = Nat.min (rdF s 0x0200002C 0 16 + 1) 0xFFFF ∧
      (t.core c).banks.get {} b = { k with bad := i.val :: k.bad } ∧
      (∀ j, j ≠ b.val → (t.core c).banks.get {} j = (s.core c).banks.get {} j))) ∧
  -- ... of a vector-register element of a punnet: the same
  (∀ (c : CoreId) (p : PunId) (i : Fin 8192) (s : State), i.val ∉ (s.pun c p).regs.bad →
    Runs (.patrolScrub (.vreg c p i) .clean) s (fun t => t = s.ticked) ∧
    Runs (.patrolScrub (.vreg c p i) .correctable) s (fun t =>
      t = { s.ticked with regs := t.regs, ras := t.ras } ∧
      rdF t 0x02000028 0 16 = Nat.min (rdF s 0x02000028 0 16 + 1) 0xFFFF) ∧
    Runs (.patrolScrub (.vreg c p i) .uncorrectable) s (fun t =>
      t = { s.ticked with regs := t.regs, ras := t.ras, cores := t.cores } ∧
      rdF t 0x0200002C 0 16 = Nat.min (rdF s 0x0200002C 0 16 + 1) 0xFFFF ∧
      (t.pun c p).regs = { (s.pun c p).regs with bad := i.val :: (s.pun c p).regs.bad } ∧
      ∀ k, k ≠ p.val → t.pun c k = s.pun c k)) ∧
  -- HOST_READ_ERROR, whatever was read: AER of the requesting function notes the kind
  (∀ (r : HostRead) (e : HostErr) (f : Nat) (u s : State), hostReadFail s r = some (f, u) → Runs (.hostReadError r e) s (fun t =>
    t = { aerLog u f e with pending := s.pending, flash := s.flash, freeIdx := s.freeIdx + 1 } ∧
    t.boot.pci.aer.get 0 f = u.boot.pci.aer.get 0 f ||| BitVec.ofNat 32 (2 ^ aerBit e))) ∧
  -- ... of a punnet's load: its lanes meet poison and the punnet traps
  (∀ (c : CoreId) (n : Nat) (r : TeReq) (g : Grid) (e : HostErr) (s : State), findReq s c n = some r → r.kind = .load →
    isHost r.home = true → reqReady s r = true → (s.te c).reqs = [r] → (s.te c).grid = some g →
    (∃ a ∈ r.accs, a.lane < 32) → Runs (.hostReadError (.te c n) e) s (fun t =>
      (t.pun c r.slot).trap.cause = 3 ∧ (t.pun c r.slot).parked = parkMode s g ∧ (t.te c).reqs = [])) ∧
  -- ... of a transfer, with none behind it that waits to act: it is gone without effect, and its stream ends with a fault
  (∀ (c : CoreId) (n : Nat) (x : Xfer) (e : HostErr) (s : State), (s.core c).xfers.find? (fun x => x.id == n && x.host) = some x →
    (∀ y ∈ (s.core c).xfers, y.cmd = x.cmd → y.job.isSome = true → y.id = x.id) →
    (s.eng c .tx).busy = true → (s.eng c .tx).cmd = x.cmd → Runs (.hostReadError (.tx c n) e) s (fun t =>
      t.mem = s.mem ∧ (t.eng c .tx).faultCause = some 3 ∧ (t.eng c .tx).clause = none ∧
      ∀ y ∈ (t.core c).xfers, y.id ≠ n)) ∧
  -- ... of a submission entry: the model's choice (log entry 12): the command completes with BAD_COMMAND
  (∀ (f : Fn) (q : Qid) (e : HostErr) (s : State), mayConsume s f q 1 = true → Runs (.hostReadError (.fetch f q) e) s (fun t =>
    t.mem = s.mem ∧ ∃ k : Cmd, (t.queue f q).cmds = (s.queue f q).cmds ++ [k] ∧ k.status = 4 ∧ k.ready = true ∧
      k.seq = (s.queue f q).nextSeq)) ∧
  -- ... of a noun's descriptor that the next clause names: the stream consumes poison
  (∀ (c : CoreId) (e : CE) (k : Clause) (va : Nat) (h : HostErr) (u s : State), mayFetch s (s.eng c e) = true →
    fetchSlots s c e = (u, .inl k) → hostNoun u c (s.eng c e).ctx (k.handles e) = some va →
    Runs (.hostReadError (.noun c e) h) s (fun t =>
      t.mem = s.mem ∧ (t.eng c e).faultCause = some 3 ∧ (t.eng c e).clause = none ∧ t.conj = s.conj)) ∧
  -- ... of a descriptor that a gleaning pass names: no pass runs
  (∀ (c : CoreId) (w : GlWin) (va : Nat) (h : HostErr) (s : State), nextPass s c = some w → w.reqs ≠ [] →
    engFree s c .mx w.fn = true → hostNoun s c w.ctx w.handles = some va → Runs (.hostReadError (.glean c) h) s (fun t =>
      t.mem = s.mem ∧ (t.core c).glPass = none)) ∧
  -- ... of saved engine state: the context has faulted and its saved state is lost
  (∀ (c : CoreId) (e : Eng) (f x va : Nat) (l : List (Nat × Nat)) (h : HostErr) (s : State), restoreFor s c = some f →
    savedPlace s c e f = some (x, l) → hostAt s 32 f x (l.map (fun p => ((s.ctx x).save + p.1, p.2))) = some va →
    Runs (.hostReadError (.stream c e) h) s (fun t =>
      (t.ctx x).faulted = true ∧ (t.ctx x).saveLost = true ∧ (t.ctx x).saved = false ∧
      ∀ v ∈ (t.core c).streams, v.eng.ctx ≠ x)) ∧
  -- ... of a context's saved records: it becomes resident, faulted
  (∀ (x : BitVec 12) (va slot : Nat) (h : HostErr) (u s : State), (s.ctx x.toNat).saved = true → s.syn.dumpBusy = false →
    hostAt s 32 (s.ctx x.toNat).fn x.toNat [((s.ctx x.toNat).save, (s.ctx x.toNat).saveSize)] = some va →
    beginRestore s x.toNat = (u, some slot) → Runs (.hostReadError (.ctx x) h) s (fun t =>
      (t.slot slot).st = .resident ∧ (t.slot slot).ctx = x.toNat ∧ (t.ctx x.toNat).faulted = true ∧
      (t.ctx x.toNat).saved = false)) ∧
  -- EMB_DUMP_START: only the slot's owner or the steward; the counters go to memory and start again from zero
  (∀ (f : Fn) (k : Fin 64) (s : State), f.val ≠ 0 → embOwner s k ≠ some f.val →
    Runs (.embDumpStart f k) s (fun t => t = s.ticked)) ∧
  (∀ (f : Fn) (k : Fin 64) (u s : State), (f.val = 0 ∨ embOwner s k = some f.val) →
    let own := rdF s (0x02000800 + 4 * k) 0 7
    let va := rdF s (embA k 0) 15 17 * 32768 + rdF s (embA k 1) 0 20 * 2 ^ 32
    ((s.sk k).busy = true → Runs (.embDumpStart f k) s (fun t =>
      t = { s.ticked with regs := t.regs } ∧ rdB t (embA k 2) 3 = true)) ∧
    ((s.sk k).busy = false → canWrite s 32 own none va 32768 = (u, false) → Runs (.embDumpStart f k) s (fun t =>
      t.sketch = s.sketch ∧ t.mem = s.mem ∧ rdB t (embA k 2) 2 = true ∧
      rdF t (mmuA own 6) 0 16 = Nat.min (rdF u (mmuA own 6) 0 16 + 1) 0xFFFF)) ∧
    ((s.sk k).busy = false → canWrite s 32 own none va 32768 = (u, true) → Runs (.embDumpStart f k) s (fun t =>
      t.mem = (writeVa u 32 own none va (sketchImage (s.sk k))).1.mem ∧ (t.sk k).busy = true ∧ (t.sk k).cnt = {} ∧
      (t.sk k).lookups = (s.sk k).lookups ∧ ∀ j : Fin 64, j ≠ k → t.sk j = s.sk j))) ∧
  (∀ (k : Fin 64) (s : State), Runs (.embDumpDone k) s (fun t =>
    t = { s.ticked with sketch := t.sketch } ∧ t.sk k = { s.sk k with busy := false })) ∧
  -- EMB_SLOT_OWNER_WRITE: ignored during a dump; a new owner finds the counters zero
  (∀ (k : Fin 64) (v : W32) (s : State),
    ((s.sk k).busy = true → Runs (.embSlotOwnerWrite k v) s (fun t => t = s.ticked)) ∧
    ((s.sk k).busy = false → Runs (.embSlotOwnerWrite k v) s (fun t =>
      t = { s.ticked with regs := t.regs, sketch := t.sketch } ∧ rd t (0x02000800 + 4 * k) = v &&& 0xFF ∧
      t.sk k = if rd s (0x02000800 + 4 * k) = v &&& 0xFF then s.sk k else {})))

/-! ## Synchronisation unit, contexts -/

/-- R253 to R261, R265, R271 to R273: signals, wires, the debugger's view, the dump, held arrivals.
Where the manual is open it rests on the model's choices: log entries 38, 40, 41. -/
def Obligations.SynchronisationUnitRowsTakeEffect : Prop :=
  -- SIGNAL_ARRIVAL at a resident context: the value saturates; every waiter that it reaches goes on
  (∀ (n : Nat) (g : Signal) (s : State), s.syn.transit[n]? = some g → s.syn.dumpBusy = false →
    inOrder s.syn.transit n g = true → (s.ctx g.ctx).live = true → resident s g.ctx = true →
    Runs (.signalArrival n) s (fun t =>
      let k := s.conj g.ctx g.conj
      let reached (w : Waiter) : Prop := w.obj = .conj g.ctx g.conj ∧ w.target ≤ (t.conj g.ctx g.conj).value
      t.mem = s.mem ∧ t.syn.transit = s.syn.transit.eraseIdx n ∧
      (t.conj g.ctx g.conj).value.toNat = Nat.min (k.value.toNat + g.n.toNat) 0xFFFFFFFF ∧
      (t.conj g.ctx g.conj).last = g.src ∧
      ((t.conj g.ctx g.conj).saturated = true ↔ k.saturated = true ∨ 0xFFFFFFFF < k.value.toNat + g.n.toNat) ∧
      ((t.conj g.ctx g.conj).shortSeen = (k.shortSeen || g.short)) ∧
      (∀ x c, x ≠ g.ctx → c < 512 → g.conj < 512 → t.conj x c = s.conj x c) ∧
      (∀ w, w ∈ t.syn.waiters ↔ w ∈ s.syn.waiters ∧ ¬ reached w) ∧
      (∀ w ∈ s.syn.waiters, reached w → (w.eng.toNat % 4 = 2 → (t.pun (w.eng.toNat / 4) w.punnet).hold = .none) ∧
        (w.eng.toNat % 4 = 0 → (t.eng (w.eng.toNat / 4) .mx).waitOk = true) ∧
        (w.eng.toNat % 4 = 1 → (t.eng (w.eng.toNat / 4) .tx).waitOk = true)))) ∧
  -- ... at a context that is not live: discarded and counted
  (∀ (n : Nat) (g : Signal) (s : State), s.syn.transit[n]? = some g → s.syn.dumpBusy = false →
    inOrder s.syn.transit n g = true → (s.ctx g.ctx).live = false → inboundFull s g.ctx = false →
    Runs (.signalArrival n) s (fun t =>
      t.mem = s.mem ∧ t.cores = s.cores ∧ t.syn.conj = s.syn.conj ∧ t.syn.waiters = s.syn.waiters ∧
      rdF t 0x00400828 0 16 = Nat.min (rdF s 0x00400828 0 16 + 1) 0xFFFF)) ∧
  -- ... at a context whose slot is being restored or saved: the slot holds it, up to 64; a full slot leaves it in the mesh
  (∀ (n k : Nat) (g : Signal) (s : State), s.syn.transit[n]? = some g → s.syn.dumpBusy = false →
    inOrder s.syn.transit n g = true → (s.ctx g.ctx).live = true → heldIn s g.ctx = some k →
    ((s.slot k).inbound.length < 64 → g.short = false → Runs (.signalArrival n) s (fun t =>
      t = { s.ticked with syn := t.syn } ∧ t.slot k = { s.slot k with inbound := (s.slot k).inbound ++ [g] } ∧
      t.syn = { s.syn with transit := s.syn.transit.eraseIdx n, slots := t.syn.slots } ∧
      ∀ j, j ≠ k → t.slot j = s.slot j)) ∧
    (64 ≤ (s.slot k).inbound.length → Runs (.signalArrival n) s (fun t => t = s.ticked))) ∧
  -- ... at a context that occupies no slot: its log entry takes the pending sum and the count
  (∀ (n : Nat) (g : Signal) (l : List (Nat × Nat)) (bs : List Byte) (u v s : State), s.syn.transit[n]? = some g →
    s.syn.dumpBusy = false → inOrder s.syn.transit n g = true → (s.ctx g.ctx).live = true → slotOf s g.ctx = none →
    g.short = false →
    xlat { s with syn := { s.syn with transit := s.syn.transit.eraseIdx n } } 32 (s.ctx g.ctx).fn (some g.ctx)
      ((s.ctx g.ctx).log + 8 * g.conj) 8 .write = (u, .inl l) →
    readPieces u l = (v, some bs) → Runs (.signalArrival n) s (fun t =>
      ∃ e : Nat, t.mem = (writePieces v l (leBytes 8 e)).mem ∧ t.syn.conj = s.syn.conj ∧
        fld e 0 32 = Nat.min (fld (leNat bs) 0 32 + g.n.toNat) 0xFFFFFFFF ∧
        fld e 32 16 = Nat.min (fld (leNat bs) 32 16 + 1) 0xFFFF ∧ e.testBit 48 = (leNat bs).testBit 48 ∧
        e.testBit 49 = ((leNat bs).testBit 49 || decide (0xFFFFFFFF < fld (leNat bs) 0 32 + g.n.toNat)))) ∧
  -- BW_CFG_WRITE: refused with arrivals or waiters on the wire, or members outside the context's partition
  (∀ (n : Fin 16) (m : Bool) (v : W32) (s : State),
    let y : Wire := if m then { s.wire n with mask := v }
      else { s.wire n with ctx := BitVec.ofNat 12 (fld v.toNat 0 12), valid := v.getLsbD 12 }
    let refused := (s.wire n).raised ≠ 0 ∨ (∃ w ∈ s.syn.waiters, w.obj = .wire n) ∨
      (y.valid = true ∧ y.mask.toNat &&& partMask s y.ctx.toNat ≠ y.mask.toNat)
    (refused → Runs (.bwCfgWrite n m v) s (fun t => t = { s.ticked with regs := t.regs } ∧ rdB t 0x00400300 0 = true)) ∧
    (¬ refused → Runs (.bwCfgWrite n m v) s (fun t =>
      t = { s.ticked with syn := { s.syn with wires := t.syn.wires } } ∧ t.wire n = y ∧
      ∀ k : Fin 16, k ≠ n → t.wire k = s.wire k))) ∧
  -- SYN_SEL_CAPTURE of a conjunction of the context in the slot
  (∀ (v : W32) (s : State),
    let slot := fld v.toNat 0 6
    let x := (s.syn.slots.get {} slot).ctx
    slot < 48 → (s.syn.slots.get {} slot).st = .resident → Runs (.synSelCapture v) s (fun t =>
      t = { s.ticked with regs := t.regs, syn := { s.syn with selValid := true } } ∧
      rd t 0x00400004 = (s.conj x (fld v.toNat 6 9)).value ∧ rdB t 0x00400000 31 = true ∧
      ∀ a, ¬ (0x00400000 ≤ a ∧ a < 0x00400040) → rd t a = rd s a)) ∧
  -- SYN_DUMP_START and SYN_DUMP_DONE
  (∀ (v : W32) (u s : State), v.getLsbD 0 = true →
    (s.syn.dumpBusy = true → Runs (.synDumpStart v) s (fun t =>
      t = { s.ticked with regs := t.regs } ∧ rdB t 0x0040080C 3 = true)) ∧
    let img := dumpImage s (dumpSlots s (v.getLsbD 4) (fld v.toNat 8 6))
    let va := rdF s 0x00400800 6 26 * 64 + rdF s 0x00400804 0 20 * 2 ^ 32
    (s.syn.dumpBusy = false → (rd s 0x00400808).toNat < img.length → Runs (.synDumpStart v) s (fun t =>
      t = { s.ticked with regs := t.regs } ∧ rdB t 0x0040080C 2 = true)) ∧
    let s1 := wr s 0x0040080C (BitVec.ofNat 32 (((rd s 0x0040080C).toNat &&& 0xC &&& (0xC - (v.toNat &&& 0xC))) +
      (v.toNat &&& 0x3F10)))
    (s.syn.dumpBusy = false → img.length ≤ (rd s 0x00400808).toNat → canWrite s1 32 0 none va img.length = (u, true) →
      Runs (.synDumpStart v) s (fun t =>
        t.syn = { s.syn with dumpBusy := true } ∧ t.mem = (writeVa u 32 0 none va img).1.mem))) ∧
  (∀ s : State, Runs .synDumpDone s (fun t => t = { s.ticked with syn := { s.syn with dumpBusy := false } })) ∧
  -- GB_TRACKER_FREED: the partition's oldest held arrival that can be performed is
  (∀ (p : PartId) (h : HeldArr) (u : State) (k : W32) (s : State), s.syn.dumpBusy = false →
    s.syn.heldArr.find? (fun h => h.part == p.val) = some h → gbArriveOp s h.core h.ctx h.group h.mask = (u, .arrived k) →
    Runs (.gbTrackerFreed p) s (fun t =>
      t.mem = s.mem ∧ t.syn = { u.syn with heldArr := s.syn.heldArr.filter (fun j => j ≠ h) } ∧
      (h.eng.toNat % 4 = 2 → (t.pun (h.eng.toNat / 4) h.punnet).hold = .none ∧
        (t.pun (h.eng.toNat / 4) h.punnet).arrival = some (.group h.ctx h.group, k)) ∧
      (h.eng.toNat % 4 = 0 → (t.eng (h.eng.toNat / 4) .mx).gbHeld = false)))

/-- R204, R262 to R264, R298: a context becomes resident with its window and records, and leaves residency with both saved.
Where the manual is open it rests on the model's choices: log entries 44, 46, 47, 48. -/
def Obligations.ContextResidencyRowsTakeEffect : Prop :=
  -- CONTEXT_RESTORE, in the slot where its restore has begun or the lowest empty one: windows and records are loaded, every log
  -- entry is merged, and the signals that waited in the slot are applied
  (∀ (x : BitVec 12) (slot : Nat) (v u s : State), s.syn.dumpBusy = false → beginRestore s x.toNat = (v, some slot) →
    (v.ctx x.toNat).saveLost = false → loadContext v x.toNat = (u, none) → Runs (.contextRestore x) s (fun t =>
      let k := { u.ctx x.toNat with winSaved := false, saved := false }
      let w := nowResident (upTo 512 (u.setCtx x.toNat k) (fun z c => mergeLog z x.toNat c)) slot x.toNat
      t.mem = w.mem ∧ t.poison = w.poison ∧ t.syn = { w.syn with trackers := t.syn.trackers } ∧ t.ctx x.toNat = k ∧
      t.slot slot = { st := .resident, ctx := x.toNat } ∧ (∀ j, j ≠ slot → t.slot j = s.slot j))) ∧
  -- a restore begins in the lowest empty slot, if no window of a resident context of another function overlaps
  (∀ (x slot : Nat) (s : State), slotOf s x = none → (s.ctx x).live = true → windowFree s x = true →
    (freeCtxSlot s = some slot → beginRestore s x = (s.setSlot slot { st := .restoring, ctx := x }, some slot)) ∧
    (freeCtxSlot s = none → beginRestore s x = (s, none))) ∧
  -- at the first residency the window reads zero, and no other byte changes
  (∀ (x : Nat) (s : State), (s.ctx x).winSaved = false → (s.ctx x).saved = false → ∃ u : State,
    loadContext s x = (u, none) ∧ u.syn = s.syn ∧ (∀ a, inWindow s x a = false → look u.mem a = look s.mem a) ∧
    (∀ a, inWindow s x a = true → memByte u a = 0) ∧ (∀ g ∈ u.poison, inWindow s x g = false)) ∧
  -- merging one log entry: its count is added to the conjunction, its flags are taken, and the entry is zero
  (∀ (x c : Nat) (l : List (Nat × Nat)) (bs : List Byte) (u v s : State), c < 512 →
    xlat s 32 (s.ctx x).fn (some x) ((s.ctx x).log + 8 * c) 8 .write = (u, .inl l) → readPieces u l = (v, some bs) →
    let k := s.conj x c
    let e := leNat bs
    let t := mergeLog s x c
    t.mem = (writePieces v l (List.replicate 8 0)).mem ∧
    (t.conj x c).value.toNat = Nat.min (k.value.toNat + fld e 0 32) 0xFFFFFFFF ∧
    (t.conj x c).shortSeen = (k.shortSeen || e.testBit 48) ∧ (t.conj x c).shortPending = (k.shortPending || e.testBit 48) ∧
    ((t.conj x c).saturated = true ↔
      k.saturated = true ∨ e.testBit 49 = true ∨ 0xFFFFFFFF < k.value.toNat + fld e 0 32) ∧
    ∀ j < 512, j ≠ c → t.conj x j = s.conj x j) ∧
  -- a context whose save had failed, or whose saved state cannot be read, starts faulted
  (∀ (x : BitVec 12) (slot : Nat) (v s : State), s.syn.dumpBusy = false → beginRestore s x.toNat = (v, some slot) →
    ((v.ctx x.toNat).saveLost = true ∨ ∃ u e, loadContext v x.toNat = (u, some e)) → Runs (.contextRestore x) s (fun t =>
      (t.slot slot).st = .resident ∧ (t.slot slot).ctx = x.toNat ∧ (t.ctx x.toNat).faulted = true ∧
      (t.ctx x.toNat).saveLost = false ∧ (t.ctx x.toNat).saved = false ∧ (t.ctx x.toNat).winSaved = false)) ∧
  -- CONTEXT_SAVE of a context that runs nowhere: records and windows go to the save area; signals held go to the log
  (∀ (k : Fin 48) (u s : State), (s.slot k).st = .resident ∨ (s.slot k).st = .saving →
    let x := (s.slot k).ctx
    ctxRuns s x = false → s.syn.dumpBusy = false → saveContext s x = (u, none) → Runs (.contextSave k) s (fun t =>
      t.slot k = {} ∧ t.mem = ((s.slot k).inbound.foldl deferSignal
        ((clearSync (u.setCtx x { u.ctx x with winSaved := true, saved := true }) x).setSlot k {})).mem ∧
      ((s.slot k).inbound = [] → t.mem = u.mem) ∧
      t.ctx x = { s.ctx x with winSaved := true, saved := true } ∧ (∀ c < 512, t.conj x c = {}) ∧
      (∀ g < 64, t.group x g = {}) ∧ (∀ w ∈ t.syn.waiters, w.ctx ≠ x) ∧
      (∀ y c, y ≠ x → c < 512 → t.conj y c = s.conj y c) ∧ (∀ j, j ≠ k.val → t.slot j = s.slot j))) ∧
  -- ... a write of it fails: the context has faulted, its state is lost, and the log of the function says so
  (∀ (k : Fin 48) (u : State) (e : XF) (s : State), (s.slot k).st = .resident ∨ (s.slot k).st = .saving →
    let x := (s.slot k).ctx
    ctxRuns s x = false → s.syn.dumpBusy = false → saveContext s x = (u, some e) → Runs (.contextSave k) s (fun t =>
      t.slot k = {} ∧ ((s.slot k).inbound = [] → t.mem = u.mem) ∧ (t.ctx x).faulted = true ∧ (t.ctx x).saveLost = true ∧
      (t.ctx x).saved = false ∧ (∀ c < 512, t.conj x c = {}) ∧
      ((u.flt (s.ctx x).fn).recs.length < 64 → ∃ r : FltRec,
        (t.flt (s.ctx x).fn).recs = (u.flt (s.ctx x).fn).recs ++ [r] ∧ r.code = e.code ∧ r.sub = e.sub ∧ r.ctx = some x)))

/-! ## Host queues and commands -/

/-- R280 to R282, R285, R291 to R295, R299, R300: queues.
Where the manual is open it rests on the model's choices: log entry 53. -/
def Obligations.QueueRowsTakeEffect : Prop :=
  -- QUEUE_ENABLE: the checks of R280 pass, or the first that fails is reported
  (∀ (f : Fn) (q : Qid) (v : W32) (s : State), v.getLsbD 0 = true → (s.queue f q).st = .disabled → Runs (.queueEnable f q v) s (fun t =>
    t = { s.ticked with hq := { s.hq with queues := t.hq.queues }, regs := t.regs } ∧
    rdF t (qA f q 5) 8 6 = fld v.toNat 8 6 ∧
    (enableCheck s f q = 0 → t.queue f q = { s.queue f q with
      st := .active, error := 0, head := 0, tail := 0, cqTail := 0, cqHead := 0, phase := true,
      nextSeq := rd s (qA f q 7), evicted := false }) ∧
    (enableCheck s f q ≠ 0 → t.queue f q = { s.queue f q with error := enableCheck s f q }))) ∧
  -- QUEUE_DISABLE: disabled at once where nothing is uncommitted; else it quiesces
  (∀ (f : Fn) (q : Qid) (v : W32) (s : State), v.getLsbD 0 = false → (s.queue f q).st = .active → Runs (.queueDisable f q v) s (fun t =>
    t.mem = s.mem ∧ (t.queue f q).cmds = (s.queue f q).cmds ∧
    ((s.queue f q).cmds = [] → (t.queue f q).st = .disabled ∧ (t.queue f q).slot = none) ∧
    ((s.queue f q).cmds ≠ [] → (t.queue f q).st = .quiescing))) ∧
  -- DOORBELL: a disabled queue ignores it; a tail outside the ring is an error; a new tail makes the queue resident, and any
  -- doorbell one that had lost its slot
  (∀ (f : Fn) (q : Qid) (a b : Option W32) (s : State), (s.queue f q).st = .disabled →
    Runs (.doorbell f q a b) s (fun t => t = s.ticked)) ∧
  (∀ (f : Fn) (q : Qid) (v : W32) (s : State), (s.queue f q).st = .active → Runs (.doorbell f q (some v) none) s (fun t =>
    t.mem = s.mem ∧ (t.queue f q).cmds = (s.queue f q).cmds ∧ (t.queue f q).head = (s.queue f q).head ∧
    ((s.queue f q).evicted = true → (t.queue f q).slot.isSome = true) ∧
    (sqSize s f q ≤ v.toNat → (t.queue f q).dbError = true ∧ (t.queue f q).tail = (s.queue f q).tail) ∧
    (v.toNat < sqSize s f q → (t.queue f q).tail = v.toNat ∧ (t.queue f q).dbError = (s.queue f q).dbError ∧
      (v.toNat ≠ (s.queue f q).tail → (t.queue f q).slot.isSome = true)))) ∧
  (∀ (f : Fn) (q : Qid) (v : W32) (s : State), (s.queue f q).st ≠ .disabled → Runs (.doorbell f q none (some v)) s (fun t =>
    let x := s.queue f q
    t.mem = s.mem ∧ (t.queue f q).tail = x.tail ∧
    (if v.toNat < cqSize s f q ∧ ringDist x.cqHead v.toNat (cqSize s f q) ≤ ringDist x.cqHead x.cqTail (cqSize s f q) then
      (t.queue f q).cqHead = v.toNat ∧ (t.queue f q).dbError = x.dbError
    else (t.queue f q).cqHead = x.cqHead ∧ (t.queue f q).dbError = true))) ∧
  -- COMMAND_COMMIT: none between a CHIP_RESET request and the reset
  (∀ (f : Fn) (q : Qid) (n : W32) (s : State), s.boot.resetReq = true → Runs (.commandCommit f q n) s (fun t => t = s.ticked)) ∧
  -- ... else the record goes to the completion ring; the phase turns at its end
  (∀ (f : Fn) (q : Qid) (n : W32) (c : Cmd) (s : State), s.boot.resetReq = false →
    (s.queue f q).cmds.find? (fun c => c.ready && c.seq == n) = some c → Runs (.commandCommit f q n) s (fun t =>
      let x := s.queue f q
      t.mem = (writePa s (2 ^ 51 + (rd64 s (qA f q 2) (qA f q 3) + 16 * x.cqTail) % 2 ^ 51) (c.record q x.phase)).mem ∧
      (t.queue f q).cmds = x.cmds.filter (fun d => d.order != c.order) ∧
      (t.queue f q).cqTail = (x.cqTail + 1) % cqSize s f q ∧
      (t.queue f q).phase = (if (x.cqTail + 1) % cqSize s f q = 0 then !x.phase else x.phase) ∧
      (c.event = true → rdB s (fpA f (0x40000 + 16 * rdF s (qA f q 5) 8 6 + 12)) 0 = false →
        t.hq.msix = s.hq.msix ++ [⟨f, rdF s (qA f q 5) 8 6⟩]) ∧
      (c.event = false → t.hq.msix = s.hq.msix))) ∧
  -- R293: the record's fields
  (∀ (c : Cmd) (q : Nat) (ph : Bool), c.ctx < 4096 → q < 64 → (c.record q ph).length = 16 ∧
    leNat ((c.record q ph).take 4) = c.seq.toNat ∧
    leNat (((c.record q ph).drop 4).take 1) = (if c.aborting then 1 else c.status) % 256 ∧
    (leNat (((c.record q ph).drop 5).take 1)).testBit 0 = ph ∧
    (leNat (((c.record q ph).drop 5).take 1)).testBit 3 = c.event ∧
    leNat (((c.record q ph).drop 6).take 2) = c.tag.toNat ∧ leNat (((c.record q ph).drop 8).take 2) % 4096 = c.ctx ∧
    leNat (((c.record q ph).drop 11).take 1) = q ∧
    leNat ((c.record q ph).drop 12) = if c.aborting then 0 else c.detail.toNat) ∧
  -- ABORT: one at a time; of a command that has ended it is DONE; of an uncommitted one it is pending
  (∀ (f : Fn) (q : Qid) (v : W32) (s : State), Runs (.abort f q v) s (fun t =>
    let x := s.queue f q
    t.mem = s.mem ∧
    (x.abSt = .pending → (t.queue f q).abRefused = true ∧ (t.queue f q).abSeq = x.abSeq) ∧
    (x.abSt ≠ .pending → (t.queue f q).abSeq = v ∧
      ((∃ c ∈ x.cmds, c.seq = v) → (t.queue f q).abSt = .pending) ∧
      ((∀ c ∈ x.cmds, c.seq ≠ v) → seqBefore v x.nextSeq = true → (t.queue f q).abSt = .done) ∧
      ((∀ c ∈ x.cmds, c.seq ≠ v) → seqBefore v x.nextSeq = false →
        (t.queue f q).abSt = if x.cmds = [] ∧ available s f q = 0 then .notFound else .pending))))

/-- R287 to R291, R296, R297, R148: a command is consumed after its checks, and starts in its turn.
Where the manual is open it rests on the model's choices: log entries 45, 47, 50, 51, 52, 117, 119. -/
def Obligations.CommandRowsTakeEffect : Prop :=
  -- COMMAND_CONSUME: checked in order; refused ones are ready to complete with their status, the others wait for dispatch
  (∀ (f : Fn) (q : Qid) (ws : List W64) (u : State) (k : Chk) (s : State), ws.length = 8 * (1 + cmdExt ws) →
    mayConsume s f q (ws.length / 8) = true →
    ¬ ((s.queue f q).abSt = .pending ∧ (s.queue f q).abSeq = (parseCmd ws).seq ∧
      ∀ d ∈ (s.queue f q).cmds, d.seq ≠ (parseCmd ws).seq) → checkCmd s f q ws = (u, k) →
    Runs (.commandConsume f q ws) s (fun t =>
      t.mem = s.mem ∧ (t.queue f q).head = ((s.queue f q).head + ws.length / 8) % sqSize s f q ∧
      (t.queue f q).nextSeq = (s.queue f q).nextSeq + 1 ∧
      ∃ c : Cmd, (t.queue f q).cmds = (s.queue f q).cmds ++ [c] ∧ c.seq = (parseCmd ws).seq ∧ c.ctx = (parseCmd ws).ctx ∧
        (match k with
         | .ok => c.ready = false ∧ c.started = false ∧ c.status = 0
         | .fail st d => c.ready = true ∧ c.status = st ∧ c.detail = BitVec.ofNat 32 d) ∧
        (c.op = 0x11 → k = .ok → (t.ctx c.ctx).closing = true) ∧
        -- the context of a command for an engine begins to become resident
        (∀ j, c.op = 1 ∨ c.op = 2 ∨ c.op = 3 → k = .ok → s.syn.dumpBusy = false → slotOf s c.ctx = none →
          windowFree s c.ctx = true → freeCtxSlot s = some j → t.slot j = { st := .restoring, ctx := c.ctx }))) ∧
  -- ... the one that an abort waits for: it is not checked, and is ready to complete
  (∀ (f : Fn) (q : Qid) (ws : List W64) (s : State), ws.length = 8 * (1 + cmdExt ws) →
    mayConsume s f q (ws.length / 8) = true → (s.queue f q).abSt = .pending → (s.queue f q).abSeq = (parseCmd ws).seq →
    (∀ d ∈ (s.queue f q).cmds, d.seq ≠ (parseCmd ws).seq) → Runs (.commandConsume f q ws) s (fun t =>
      t.mem = s.mem ∧ (t.queue f q).head = ((s.queue f q).head + ws.length / 8) % sqSize s f q ∧
      ∃ c : Cmd, (t.queue f q).cmds = (s.queue f q).cmds ++ [c] ∧ c.seq = (parseCmd ws).seq ∧ c.aborting = true ∧
        c.ready = true)) ∧
  -- the first two checks of R289
  (∀ (f : Fn) (q : Qid) (ws : List W64) (s : State),
    ((parseCmd ws).seq ≠ (s.queue f q).nextSeq → checkCmd s f q ws = (s, .fail 3 (s.queue f q).nextSeq.toNat)) ∧
    ((parseCmd ws).seq = (s.queue f q).nextSeq → headerOk ws = false → checkCmd s f q ws = (s, .fail 4 0))) ∧
  -- RUN: the first in turn that can start; a stream starts on every targeted engine that is free, with its engine's state
  -- zero but for pc and scalars
  (∀ (f : Fn) (q : Qid) (k : Cmd) (s : State),
    let e : CE := if k.eng = 0 then .mx else .tx
    let l := k.toStart.filter (fun n => engFree s n e f && firstFor s f q k n)
    nextStart s f q 1 (fun c => mayStart s f && resident s c.ctx && !(runCores s f q c).isEmpty) = some k →
    Runs (.run f q) s (fun t =>
      t.mem = s.mem ∧
      (∀ n ∈ l, (t.eng n e).st = .issuing ∧ (t.eng n e).pc = fld (k.w 0) 0 52 ∧ (t.eng n e).ctx = k.ctx ∧
        (t.eng n e).fn = f ∧ (t.eng n e).cmd = ⟨f, q, k.seq⟩ ∧ (t.eng n e).lc = {} ∧ (t.eng n e).ag = {} ∧
        (∀ i, 1 ≤ i → i ≤ 29 → (t.eng n e).scal.get 0 i = k.words.getD i 0) ∧
        (e = .mx → (t.core n).banks = {} ∧ (t.core n).bufs = {})) ∧
      (∀ n, n ∉ l → (t.eng n e).st = (s.eng n e).st))) ∧
  -- GLEAN: the request joins the open window of its key if it is not due and its rows fit, else that one closes and another
  -- opens; a full window, or one whose request may not wait, closes
  (∀ (f : Fn) (q : Qid) (k : Cmd) (n : Nat) (old : Option GlWin) (s : State),
    nextStart s f q 3 (fun c => mayStart s f && resident s c.ctx && c.toStart.all (firstFor s f q c)) = some k →
    k.toStart = [n] → (s.core n).glean.find? (fun w => w.keyed f k.ctx k.glW) = old →
    let r : GlReq := { cmd := ⟨f, q, k.seq⟩, aNoun := k.glA, oNoun := k.glO, m := k.glM, deadline := s.time + k.glWait,
                       conj := k.glConj, sig := k.glSig }
    let fresh : GlWin := { fn := f, ctx := k.ctx, wNoun := k.glW, reqs := [r] }
    let rest := (s.core n).glean.filter (fun w => !w.keyed f k.ctx k.glW)
    let into (shut : List GlWin) (w : GlWin) : Prop := Runs (.glean f q) s (fun t =>
      t.mem = s.mem ∧ (∀ d ∈ (t.queue f q).cmds, d.order = k.order → d.started = true ∧ d.toStart = []) ∧
      if w.rows = 256 ∨ k.glWait = 0 then
        (t.core n).glean = rest ∧ (t.core n).glQueue = (s.core n).glQueue ++ shut ++ [w]
      else (t.core n).glean = rest ++ [w] ∧ (t.core n).glQueue = (s.core n).glQueue ++ shut)
    match old with
    | none => into [] fresh
    | some v => (v.due s.time = false → v.rows + k.glM ≤ 256 → into [] { v with reqs := v.reqs ++ [r] }) ∧
        (v.due s.time = true ∨ 256 < v.rows + k.glM → into [v] fresh)) ∧
  -- NOP commits; like the context opcodes it asks for no slice (the model's choice, log entry 117), and none of them starts
  -- between a CHIP_RESET request and the reset
  (∀ (f : Fn) (q : Qid) (s : State), s.boot.resetReq = true →
    ∀ i ∈ ([.nop f q, .ctxCreate f q, .ctxDestroy f q, .ctxReset f q] : List Instr), Runs i s (fun t => t = s.ticked)) ∧
  (∀ (f : Fn) (q : Qid) (k : Cmd) (s : State), nextOwn s f q 4 = some k → Runs (.nop f q) s (fun t =>
    (t.queue f q).cmds = (s.queue f q).cmds.filter (fun d => d.order != k.order) ∧
    t.mem = (writePa s (2 ^ 51 + (rd64 s (qA f q 2) (qA f q 3) + 16 * (s.queue f q).cqTail) % 2 ^ 51)
      (k.record q (s.queue f q).phase)).mem)) ∧
  -- CTX_CREATE: the lowest free number, or NO_CONTEXT
  (∀ (f : Fn) (q : Qid) (k : Cmd) (x : Nat) (s : State), nextOwn s f q 0x10 = some k → freeCtx s = some x →
    noContext s f = none → k.status = 0 → Runs (.ctxCreate f q) s (fun t =>
      t.ctx x = k.ctxRec f ∧ (∀ c < 512, t.conj x c = {}) ∧ (∀ y, y ≠ x → t.ctx y = s.ctx y) ∧
      (t.queue f q).cmds = (s.queue f q).cmds.filter (fun d => d.order != k.order))) ∧
  (∀ (f : Fn) (q : Qid) (k : Cmd) (d : Nat) (s : State), nextOwn s f q 0x10 = some k → noContext s f = some d →
    Runs (.ctxCreate f q) s (fun t =>
      (∀ y, t.ctx y = s.ctx y) ∧ (t.queue f q).cmds = (s.queue f q).cmds.filter (fun d => d.order != k.order))) ∧
  -- CTX_DESTROY and CTX_RESET: after every earlier command of the context has committed; what engines execute of later ones
  -- ends; no signal reaches a later context of a destroyed one's number, nor does any L1 keep its lines
  (let ended (t : State) (x : Nat) : Prop :=
    (∀ (c : CoreId) (e : CE), (t.eng c e).busy = true → (t.eng c e).ctx ≠ x) ∧
    (∀ (c : CoreId) (g : Grid), (t.te c).grid = some g → g.ctx ≠ x) ∧
    (∀ (c : CoreId) (w : GlWin), (t.core c).glPass = some w → w.ctx ≠ x) ∧
    (∀ c < 512, t.conj x c = {}) ∧ (∀ w ∈ t.syn.waiters, w.ctx ≠ x)
  (∀ (f : Fn) (q : Qid) (k : Cmd) (s : State), nextOwn s f q 0x11 = some k → (s.ctx k.ctx).live = true →
    (s.ctx k.ctx).fn = f → ctxQuiet s f k.ctx k.order = true → k.status = 0 → Runs (.ctxDestroy f q) s (fun t =>
      t.ctx k.ctx = {} ∧ ended t k.ctx ∧ (∀ g ∈ t.syn.transit, g.ctx ≠ k.ctx) ∧
      (∀ c : CoreId, (t.te c).lastCtx ≠ some k.ctx) ∧
      (∀ y, y ≠ k.ctx → t.ctx y = s.ctx y) ∧ (∀ i, slotOf s k.ctx = some i → (t.syn.slots.get {} i).st = .empty))) ∧
  (∀ (f : Fn) (q : Qid) (k : Cmd) (s : State), nextOwn s f q 0x12 = some k → (s.ctx k.ctx).live = true →
    (s.ctx k.ctx).fn = f → ctxQuiet s f k.ctx k.order = true → k.status = 0 → Runs (.ctxReset f q) s (fun t =>
      t.ctx k.ctx = { s.ctx k.ctx with winSaved := false, saved := false, saveLost := false, faulted := false } ∧
      ended t k.ctx))) ∧
  -- PTM_DIALOGUE
  (∀ (m : W64) (s : State), s.hq.ptmOn = true → s.time < 2 ^ 64 → Runs (.ptmDialogue m) s (fun t =>
    t = { s.ticked with regs := t.regs } ∧ rd t 0x00040600 = rd s 0x00040600 + 2 ∧ rd64 t 0x00040604 0x00040608 = s.time ∧
    rd64 t 0x0004060C 0x00040610 = m.toNat))

/-- R301, R302, R377: a function-level reset ends the function's work and leaves its queues, contexts, log and registers as
after reset, its translations and the signals to its contexts dropped (R214, R2); the steward's reset does so for every function.
Where the manual is open it rests on the model's choices: log entries 95, 119. -/
def Obligations.FunctionLevelResetsClearTheirFunctions : Prop :=
  let cleared (t : State) (f : Nat) : Prop :=
    (∀ q < 64, (t.queue f q).st = .disabled ∧ (t.queue f q).cmds = [] ∧ (t.queue f q).slot = none) ∧
    (∀ x < 4096, (t.ctx x).live = true → (t.ctx x).fn ≠ f) ∧ (t.flt f).recs = [] ∧
    (∀ c < 32, ((t.core c).mx.busy = true → (t.core c).mx.fn ≠ f) ∧ ((t.core c).tx.busy = true → (t.core c).tx.fn ≠ f) ∧
      (∀ r ∈ (t.te c).reqs, r.fn ≠ f) ∧ (∀ x ∈ (t.core c).xfers, x.cmd.fn ≠ f) ∧
      (∀ v ∈ (t.core c).streams, v.eng.cmd.fn ≠ f))
  (∀ (f : Fn) (s : State), f.val ≠ 0 → Runs (.flrVf f) s (fun t =>
    cleared t f ∧ t.boot = s.boot ∧ t.gov = s.gov ∧
    (∀ o < 0x100000, rd t (fpA f o) = resetVal (fpA f o)) ∧
    (∀ k < 64, embOwner s k = some f.val → t.sk k = {}) ∧
    (∀ g ∈ t.syn.transit, ¬ ((s.ctx g.ctx).live = true ∧ (s.ctx g.ctx).fn = f.val)) ∧
    (∀ c < 32, ∀ e ∈ (t.core c).tlb, e.fn ≠ f) ∧ (∀ e ∈ t.hq.tlb, e.fn ≠ f))) ∧
  (∀ s : State, Runs .flrSteward s (fun t =>
    (∀ f : Fn, cleared t f) ∧ t.hq.vfEnable = false ∧ t.boot = s.boot ∧ t.gov = s.gov)) ∧
  (∀ s : State, Runs .vfEnableClear s (fun t =>
    (∀ f : Fn, f.val ≠ 0 → cleared t f) ∧ t.hq.vfEnable = false ∧ t.boot = s.boot))

/-! ## Garka links -/

/-- R322 to R326, R335, R336: LINK.PUT and LINK.GET become messages, or are discarded at their source.
Where the manual is open it rests on the model's choices: log entries 85, 90, 93. -/
def Obligations.LinkTransfersBecomeMessages : Prop :=
  ∀ (get : Bool) (c : CoreId) (i : Nat) (w : W64) (u : State) (d : List Byte) (pa : List (Nat × Nat)) (s : State),
    s.heads c .tx .xfer (if get then 9 else 8) i w →
    let y := s.eng c .tx
    let n := y.noun (fld w.toNat (if get then 26 else 14) 12)
    let a := (y.gen (fld w.toNat (if get then 11 else 8) 3)).addr.toNat
    let r := (y.gen (fld w.toNat (if get then 8 else 11) 3)).addr.toNat
    let dst := fld r 52 10
    let way := u.wayOut (!bit r 63) (fld w.toNat 48 4) dst
    (if get then xlat (s.popSlot c .tx) c y.fn (some y.ctx) a n.packed .write = (u, .inl pa)
     else readSp (s.popSlot c .tx) (.va c y.fn y.ctx) a n.packed = (u, .inl d)) →
    (bit r 63 = true → dst ≠ ownId u) → y.fn < 128 →
    -- no way out, or a chip marked as failed: counted, and the transfer completes short
    ((way = none ∨ chipIsFailed u dst = true) → Runs (if get then .linkGet c else .linkPut c) s (fun t =>
      t.mem = u.mem ∧ rdF t (lnkC 0x10) 0 16 = Nat.min (rdF u (lnkC 0x10) 0 16 + 1) 0xFFFF ∧
      (t.core c).xfers = (u.core c).xfers.filter (fun x => x.id != (u.core c).xferNext) ∧
      (get = true → w.getLsbD 47 = true → ∃ g ∈ t.syn.transit, g.ctx = y.ctx ∧ g.conj = fld w.toNat 38 9 ∧ g.short = true))) ∧
    -- else the message joins the port's queue (here the retry buffer is full, so that it waits), and the transfer is open
    (∀ g : Nat, way = some g → chipIsFailed u dst = false → (u.port g).retry.length = 256 →
      Runs (if get then .linkGet c else .linkPut c) s (fun t =>
        t.mem = u.mem ∧
        (∃ m : TxMsg, (t.port g).outq = (u.port g).outq ++ [m] ∧
          m.flits.length = (if get then 1 else 1 + (d.length - 208 + 239) / 240) ∧
          ∀ f ∈ m.flits, f.fn = y.fn ∧ f.dst = dst ∧ f.kind = 1) ∧
        ∃ x ∈ (t.core c).xfers, x.id = (u.core c).xferNext ∧ x.cmd = y.cmd ∧ x.isGet = get ∧ x.isPut = !get))

/-- R323, R327 to R329, R332 to R335: what arriving flits and whole messages do.
Where the manual is open it rests on the model's choices: log entries 85, 87, 89, 90, 91. -/
def Obligations.LinkArrivalsTakeEffect : Prop :=
  -- a damaged DATA or STUB flit: discarded, counted, and a nak is owed
  (∀ (stub : Bool) (g : PortId) (b : List Byte) (fec : Bool) (s : State), wfFlit (if stub then 2 else 1) b = true →
    (s.port g).st = .up → (crcOk b && fec) = false →
    Runs (if stub then .stubReceive g b fec else .dataFlitReceive g b fec) s (fun t =>
      t = { s.ticked with regs := t.regs, lnk := t.lnk } ∧ (t.port g) = { s.port g with nakSent := true } ∧
      rdF t (lnkA g 0x28) 0 16 = (if crcOk b then rdF s (lnkA g 0x28) 0 16 else Nat.min (rdF s (lnkA g 0x28) 0 16 + 1) 0xFFFF) ∧
      rdF t (lnkA g 0x2C) 0 16 = (if fec then rdF s (lnkA g 0x2C) 0 16 else Nat.min (rdF s (lnkA g 0x2C) 0 16 + 1) 0xFFFF))) ∧
  -- one out of sequence (nothing waits for an acknowledgement or to be sent): discarded with a nak
  (∀ (stub : Bool) (g : PortId) (b : List Byte) (s : State), wfFlit (if stub then 2 else 1) b = true →
    (s.port g).st = .up → crcOk b = true → (s.port g).retry = [] → (s.port g).outq = [] → (s.port g).ctlq = [] →
    fld (fHdr b) 8 12 ≠ (s.port g).expect → Runs (if stub then .stubReceive g b true else .dataFlitReceive g b true) s (fun t =>
      t.mem = s.mem ∧ t.regs = s.regs ∧ (t.port g).nakSent = true ∧ (t.port g).expect = (s.port g).expect ∧
      (t.port g).rx = (s.port g).rx ∧ (t.port g).whole = (s.port g).whole)) ∧
  -- a GET request for this chip: its one flit is whole; a STUB makes it short
  (∀ (stub : Bool) (g : PortId) (b : List Byte) (s : State), wfFlit (if stub then 2 else 1) b = true → s.accepts g b →
    bit (fHdr b) 6 = true → bit (fHdr b) 7 = true → mDirect (fBody b) = true → mOp (fBody b) = 2 →
    Runs (if stub then .stubReceive g b true else .dataFlitReceive g b true) s (fun t =>
      t.mem = s.mem ∧ t.regs = s.regs ∧ (t.port g).expect = ((s.port g).expect + 1) % 4096 ∧ (t.port g).nakSent = false ∧
      ∃ r : Rx, (t.port g).whole = (s.port g).whole ++ [r] ∧ r.vc = fld (fHdr b) 4 2 ∧ r.short = stub ∧
        r.hdr = (fBody b).take 32)) ∧
  -- the first flit of a PUT that this chip accepts: its bytes are written as they arrive
  (∀ (g : PortId) (b : List Byte) (l : List (Nat × Nat)) (v s : State), wfFlit 1 b = true → s.accepts g b →
    bit (fHdr b) 6 = true → mDirect (fBody b) = true → mOp (fBody b) = 1 →
    let h := (fBody b).take 32
    acceptMsg (s.tookFlit g b) h = true → remoteRange (s.tookFlit g b) h .write = (v, some l) →
    Runs (.dataFlitReceive g b true) s (fun t =>
      t.mem = (writePieces v (partOf l 0 (Nat.min (mLen h) 208)) (((fBody b).drop 32).take (Nat.min (mLen h) 208))).mem)) ∧
  -- IDLE_FLIT: its ack frees the retry buffer up to the flit it names, its credits are added, at most 128 a VC
  (∀ (g : PortId) (b : List Byte) (s : State), wfFlit 0 b = true → (s.port g).st = .up → crcOk b = true →
    (s.port g).outq = [] → (s.port g).ctlq = [] → bit (fHdr b) 33 = false → Runs (.idleFlit g b true) s (fun t =>
      let k := match ((s.port g).retry.map (·.seq)).findIdx? (· == fld (fHdr b) 20 12) with
        | some i => if bit (fHdr b) 32 then i + 1 else 0
        | none => 0
      t.mem = s.mem ∧ t.regs = s.regs ∧ (t.port g).retry = (s.port g).retry.drop k ∧
      ∀ v < 4, (t.port g).avail.getD v 0 = Nat.min ((s.port g).avail.getD v 0 + fld (fHdr b) (34 + 4 * v) 4) 128)) ∧
  -- PUT_ARRIVAL: a message that was rejected, or whose context is gone since, is counted; one whose range did not translate is
  -- short; an accepted one signals, at once or, while the unit holds signals, in its turn
  (∀ (g : PortId) (vc : Fin 4) (r : Rx) (s : State), (s.port g).whole.find? (fun r => r.vc == vc.val && mOp r.hdr == 1) = some r →
    let k := s.ctx (mDstCtx r.hdr)
    let takes : Prop := r.ok = true ∧ k.live = true ∧ k.fn = mFn r.hdr
    (s.syn.dumpBusy = true → Runs (.putArrival g vc) s (fun t =>
      t.mem = s.mem ∧ (t.port g).whole = (s.port g).whole.erase r ∧
      (¬ takes → rdF t (lnkC 0x18) 0 16 = Nat.min (rdF s (lnkC 0x18) 0 16 + 1) 0xFFFF ∧ t.syn = s.syn) ∧
      (takes → r.pa = none → rdF t (lnkC 0x1C) 0 16 = Nat.min (rdF s (lnkC 0x1C) 0 16 + 1) 0xFFFF) ∧
      (takes → mSig r.hdr = true → ∃ a : Signal, t.syn = { s.syn with transit := s.syn.transit ++ [a] } ∧
        a.ctx = mDstCtx r.hdr ∧ a.conj = mConj r.hdr ∧ a.n = 1 ∧ a.short = (r.short || r.pa.isNone) ∧ a.src.remote = true ∧
        a.via = some (g.val, vc.val)))) ∧
    (s.syn.dumpBusy = false → s.syn.transit = [] → takes → mSig r.hdr = true →
      resident s (mDstCtx r.hdr) = true → Runs (.putArrival g vc) s (fun t =>
        t.mem = s.mem ∧ (t.conj (mDstCtx r.hdr) (mConj r.hdr)).value.toNat =
          Nat.min ((s.conj (mDstCtx r.hdr) (mConj r.hdr)).value.toNat + 1) 0xFFFFFFFF))) ∧
  -- GET_REQ_ARRIVAL: the answer goes back on the port it came from, in as many flits as its data needs; flits that met
  -- poison are STUBs. It waits for a credit; with no way back it is discarded and counted
  (∀ (g : PortId) (vc : Fin 4) (r : Rx) (u0 u : State) (st : Nat) (d : List Byte) (bad : List Nat) (s : State),
    takeWhole s g vc 2 = some (u0, r) → mDirect r.hdr = true →
    getAnswer (freeRecv u0 (some (g.val, vc.val))) r.hdr = (u, st, d, bad) → chipIsFailed u (mSrcChip r.hdr) = false →
    (portUp s g = false → Runs (.getReqArrival g vc) s (fun t =>
      t.mem = u.mem ∧ rdF t (lnkC 0x10) 0 16 = Nat.min (rdF u (lnkC 0x10) 0 16 + 1) 0xFFFF)) ∧
    (portUp s g = true → (s.port g).avail.getD (outVc s g 2) 0 = 0 → Runs (.getReqArrival g vc) s (fun t => t = s.ticked)) ∧
    (portUp s g = true → (s.port g).avail.getD (outVc s g 2) 0 ≠ 0 → (s.port g).retry.length = 256 →
      Runs (.getReqArrival g vc) s (fun t =>
        t.mem = u.mem ∧ ∃ m : TxMsg, (t.port g).outq = (s.port g).outq ++ [m] ∧ m.vc = outVc s g 2 ∧
          m.flits.length = flitCount d.length ∧ (∀ j f, m.flits[j]? = some f → f.kind = if bad.contains j then 2 else 1) ∧
          ∃ f, m.flits.head? = some f ∧ mOp f.body = 3 ∧ mStatus f.body = st % 256 ∧ mTag f.body = mTag r.hdr))) ∧
  -- a chip that is not READY rejects a request: status 1, counted
  (∀ (h : List Byte) (s : State), s.boot.dev ≠ .ready → getAnswer s h = (inc16 s (lnkC 0x18), 1, [], [])) ∧
  -- GET_RESP_ARRIVAL: late responses are counted; the others end their LINK.GET
  (∀ (g : PortId) (vc : Fin 4) (r : Rx) (s : State), (s.port g).whole.find? (fun r => r.vc == vc.val && mOp r.hdr == 3) = some r →
    Runs (.getRespArrival g vc) s (fun t =>
      (getOf s (mTag r.hdr) = none → t.mem = s.mem ∧ t.cores = s.cores ∧
        rdF t (lnkC 0x20) 0 16 = Nat.min (rdF s (lnkC 0x20) 0 16 + 1) 0xFFFF) ∧
      (∀ (c : Nat) (x : Xfer), getOf s (mTag r.hdr) = some (c, x) → s.syn.dumpBusy = true →
        (∀ y ∈ (t.core c).xfers, y.id ≠ x.id) ∧
        (x.sig = true → ∃ a ∈ t.syn.transit, a.ctx = x.ctx ∧ a.conj = x.conj ∧
          a.short = (r.short || mStatus r.hdr != 0 || mLen r.hdr != x.len))))) ∧
  -- GET_TIMEOUT: after 1 ms the LINK.GET ends short
  (∀ (c : CoreId) (n : Nat) (x : Xfer) (s : State), (s.core c).xfers.find? (fun x => x.id == n && x.isGet) = some x →
    x.issuedAt + 1000000 ≤ s.time → s.syn.dumpBusy = true → Runs (.getTimeout c n) s (fun t =>
      t.mem = s.mem ∧ (∀ y ∈ (t.core c).xfers, y.id ≠ n) ∧
      (x.sig = true → ∃ a ∈ t.syn.transit, a.ctx = x.ctx ∧ a.conj = x.conj ∧ a.short = true)))

/-- R323, R332, R333, R337 to R341: the events of a port.
Where the manual is open it rests on the model's choices: log entries 83, 87, 88, 92, 93. -/
def Obligations.PortRowsTakeEffect : Prop :=
  -- an UP port with nothing to send or to be acknowledged; one that accepts the CONTROL flit w (R323)
  let idle (s : State) (g : PortId) : Prop :=
    (s.port g).st = .up ∧ (s.port g).retry = [] ∧ (s.port g).outq = [] ∧ (s.port g).ctlq = []
  let takes (s : State) (g : PortId) (w : CtlWire) : Prop :=
    idle s g ∧ w.crcOk = true ∧ w.fecOk = true ∧ fld w.hdr.toNat 8 12 = (s.port g).expect
  -- RETRY_TIMEOUT: everything unacknowledged is sent again; a DATA flit sent four times gives way to a STUB; the 64th
  -- failure in a row takes the port down
  (∀ (g : PortId) (s : State), (s.port g).st = .up → (s.port g).retry ≠ [] → (s.port g).ackWait + 1000 ≤ s.time →
    (s.port g).outq = [] → (s.port g).ctlq = [] → Runs (.retryTimeout g) s (fun t =>
      t.mem = s.mem ∧
      ((s.port g).fails < 63 → (t.port g).st = .up ∧ (t.port g).fails = (s.port g).fails + 1 ∧
        (t.port g).retry = (s.port g).retry.map (fun x => if x.flit.kind = 1 ∧ 4 ≤ x.tries
          then { x with flit := x.flit.stub, tries := 1 } else { x with tries := x.tries + 1 })) ∧
      (63 ≤ (s.port g).fails → (t.port g).st = .training ∧ (t.port g).retry = []))) ∧
  -- CONTROL flits are numbered like the others: a damaged one is discarded with a nak, and counted
  (∀ (g : PortId) (w : CtlWire) (i : IdentInfo) (d r : BitVec 10) (s : State), (s.port g).st = .up →
    (w.crcOk && w.fecOk) = false →
    ∀ x ∈ ([.ident ⟨g, w⟩ i, .fenceControlFlit ⟨g, w⟩, .chipFailed ⟨g, w⟩ d r] : List Instr), Runs x s (fun t =>
      t = { s.ticked with regs := t.regs, lnk := t.lnk } ∧ t.port g = { s.port g with nakSent := true } ∧
      rdF t (lnkA g 0x28) 0 16 =
        (if w.crcOk then rdF s (lnkA g 0x28) 0 16 else Nat.min (rdF s (lnkA g 0x28) 0 16 + 1) 0xFFFF) ∧
      rdF t (lnkA g 0x2C) 0 16 =
        (if w.fecOk then rdF s (lnkA g 0x2C) 0 16 else Nat.min (rdF s (lnkA g 0x2C) 0 16 + 1) 0xFFFF))) ∧
  -- ... and so is one out of sequence
  (∀ (g : PortId) (w : CtlWire) (i : IdentInfo) (d r : BitVec 10) (s : State), idle s g → w.crcOk = true → w.fecOk = true →
    fld w.hdr.toNat 8 12 ≠ (s.port g).expect →
    ∀ x ∈ ([.ident ⟨g, w⟩ i, .fenceControlFlit ⟨g, w⟩, .chipFailed ⟨g, w⟩ d r] : List Instr), Runs x s (fun t =>
      t.mem = s.mem ∧ t.regs = s.regs ∧ (t.port g).st = .up ∧ (t.port g).nakSent = true ∧
      (t.port g).expect = (s.port g).expect)) ∧
  -- CREDIT_SYNC: a VC whose credits, with those the flit brings, do not add up to 128 is repaired and counted; the flit that
  -- answers is in the retry buffer
  (∀ (g : PortId) (w : CtlWire) (held : List Nat) (s : State), wfHeld held = true → takes s g w →
    (s.port g).seqAt + 1200 ≤ s.time → Runs (.creditSync ⟨g, w⟩ held) s (fun t =>
      t.mem = s.mem ∧ (t.port g).expect = ((s.port g).expect + 1) % 4096 ∧
      let has (v : Nat) : Nat := Nat.min ((s.port g).avail.getD v 0 + fld w.hdr.toNat (34 + 4 * v) 4) 128
      let bad := (List.range 4).filter (fun v => has v + held.getD v 0 != 128)
      (∀ v < 4, (t.port g).avail.getD v 0 + held.getD v 0 = 128) ∧
      (∃ x, (t.port g).retry = [x] ∧ x.flit.ctl = some .creditSync) ∧
      rdF t (lnkA g 0x38) 0 16 = Nat.min (rdF s (lnkA g 0x38) 0 16 + bad.length) 0xFFFF)) ∧
  -- ... one that is damaged: no repair, and a nak is owed
  (∀ (g : PortId) (w : CtlWire) (held : List Nat) (s : State), wfHeld held = true → idle s g → (w.crcOk && w.fecOk) = false →
    (s.port g).seqAt + 1200 ≤ s.time → Runs (.creditSync ⟨g, w⟩ held) s (fun t =>
      t.mem = s.mem ∧ (t.port g).avail = (s.port g).avail ∧ (t.port g).nakSent = true ∧
      (t.port g).expect = (s.port g).expect)) ∧
  -- IDENT: a partner that LINK_TOPOLOGY does not place there is miswired
  (∀ (g : PortId) (w : CtlWire) (i : IdentInfo) (s : State), takes s g w → Runs (.ident ⟨g, w⟩ i) s (fun t =>
    t.mem = s.mem ∧ (t.port g).partner = some (i.chip, i.port) ∧
    ((∀ tp, s.charter.topo = some tp → ¬ (tp.dims = i.dims ∧ tp.sx = i.sx ∧ tp.sy = i.sy ∧ tp.sz = i.sz ∧
      partnerOf s g = some i.chip.toNat)) → (t.port g).st = .fenced ∧ (t.port g).cause = 4 ∧ rdB t (lnkC 8) 2 = true) ∧
    (∀ tp, s.charter.topo = some tp → tp.dims = i.dims → tp.sx = i.sx → tp.sy = i.sy → tp.sz = i.sz →
      partnerOf s g = some i.chip.toNat → (t.port g).st = .up))) ∧
  (∀ (g : PortId) (w : CtlWire) (s : State), takes s g w → Runs (.fenceControlFlit ⟨g, w⟩) s (fun t =>
    t.mem = s.mem ∧ (t.port g).st = .fenced ∧ (t.port g).cause = 3 ∧ (t.port g).retry = [])) ∧
  -- CHIP_FAILED: the chip is marked, once
  (∀ (g : PortId) (w : CtlWire) (d r : BitVec 10) (s : State), takes s g w → Runs (.chipFailed ⟨g, w⟩ d r) s (fun t =>
    t.mem = s.mem ∧ chipIsFailed t d.toNat = true ∧
    (chipIsFailed s d.toNat = true → t.regs = s.regs) ∧ (chipIsFailed s d.toNat = false → rdB t (lnkC 8) 0 = true))) ∧
  -- PORT_DOWN: the port trains again at once; the loss is counted
  (∀ (g : PortId) (s : State), (s.port g).st = .up → Runs (.portDown g) s (fun t =>
    t.mem = s.mem ∧ (t.port g).st = .training ∧ (t.port g).retry = [] ∧ (t.port g).outq = [] ∧
    (t.port g).avail = [128, 128, 128, 128] ∧ rdB t (lnkC 8) 1 = true ∧
    rdF t (lnkA g 0x3C) 0 16 = Nat.min (rdF s (lnkA g 0x3C) 0 16 + 1) 0xFFFF)) ∧
  (∀ (g : PortId) (s : State), s.isUp = true → s.boot.lref = true → (s.port g).st = .training → Runs (.portTrainingDone g) s (fun t =>
    t.mem = s.mem ∧ t.regs = s.regs ∧ (t.port g).st = .up ∧ (t.port g).cause = 0)) ∧
  -- PARTNER_FAILED: after 1 s without UP
  (∀ (g : PortId) (d : Nat) (s : State), (s.port g).st = .training → (s.port g).since + 1000000000 ≤ s.time →
    partnerOf s g = some d → d < 1024 → Runs (.partnerFailed g) s (fun t =>
      t.mem = s.mem ∧ (t.port g).st = .fenced ∧ (t.port g).cause = 5 ∧ chipIsFailed t d = true)) ∧
  -- PORT_FENCE drains; FENCE_DRAIN_END fences; PORT_UNFENCE trains again. A port that the Charter does not enable ignores both
  (∀ (g : PortId) (s : State), portEnabled s g = false → Runs (.portFence g) s (fun t => t = s.ticked) ∧
    Runs (.portUnfence ⟨g, false⟩) s (fun t => t = s.ticked)) ∧
  -- ... a port that is FENCED already is fenced by this end too; one that drains goes on draining
  (∀ (g : PortId) (s : State), portEnabled s g = true → Runs (.portFence g) s (fun t =>
    t = { s.ticked with regs := t.regs, lnk := t.lnk } ∧ rdB t (lnkA g 4) 0 = true ∧
    ((s.port g).st = .fenced → t.port g = { s.port g with cause := 2 }) ∧
    ((s.port g).st ≠ .fenced → (s.port g).fenceAt.isSome = true → t.lnk = s.lnk))) ∧
  (∀ (g : PortId) (s : State), portEnabled s g = true → (s.port g).st ≠ .fenced → (s.port g).fenceAt = none →
    Runs (.portFence g) s (fun t => t = { s.ticked with regs := t.regs, lnk := t.lnk } ∧
      (t.port g) = { s.port g with fenceAt := some s.time } ∧ rdB t (lnkA g 4) 0 = true)) ∧
  (∀ (g : PortId) (d : Nat) (s : State), (s.port g).fenceAt = some d →
    (d + 100000 ≤ s.time ∨ unfinished (s.port g) = 0 ∧ (s.port g).rx.entries = []) → Runs (.fenceDrainEnd g) s (fun t =>
      t.mem = s.mem ∧ (t.port g).st = .fenced ∧ (t.port g).cause = 2 ∧ (t.port g).fenceAt = none ∧ (t.port g).outq = [])) ∧
  (∀ (g : PortId) (s : State), portEnabled s g = true → Runs (.portUnfence ⟨g, false⟩) s (fun t =>
    t = { s.ticked with regs := t.regs, lnk := t.lnk } ∧ rdB t (lnkA g 4) 0 = false ∧
    ((s.port g).st = .fenced → (s.port g).cause ≠ 3 → (t.port g).st = .training ∧ (t.port g).cause = 0) ∧
    ((s.port g).st ≠ .fenced ∨ (s.port g).cause = 3 → (t.port g) = { s.port g with fenceAt := none }))) ∧
  -- ... at the partner's end: a port that the partner had fenced trains again; nothing else changes
  (∀ (g : PortId) (s : State), Runs (.portUnfence ⟨g, true⟩) s (fun t =>
    ((s.port g).st = .fenced → (s.port g).cause = 3 → s.isUp = true →
      t = { s.ticked with lnk := t.lnk } ∧ t.port g = { s.port g with st := .training, cause := 0, since := s.time }) ∧
    ((s.port g).st ≠ .fenced ∨ (s.port g).cause ≠ 3 ∨ s.isUp = false → t = s.ticked))) ∧
  -- ROUTE_SELECT: a table that is present takes effect, another is refused
  (∀ (v : W32) (s : State), Runs (.routeSelect v) s (fun t =>
    t = { s.ticked with regs := t.regs } ∧
    ((tablesPresent s).testBit (fld v.toNat 0 2) = true → rdF t (lnkC 4) 0 2 = fld v.toNat 0 2 ∧
      rdB t (lnkC 4) 8 = (rdB s (lnkC 4) 8 && !v.getLsbD 8)) ∧
    ((tablesPresent s).testBit (fld v.toNat 0 2) = false → rdB t (lnkC 4) 8 = true ∧ rdF t (lnkC 4) 0 2 = rdF s (lnkC 4) 0 2))) ∧
  -- LANE_DEGRADE_CHECK: degraded where the lanes report more than an eighth of a correction per codeword
  (∀ (g : PortId) (l : List LaneInfo) (n k : Nat) (s : State), wfLanes l n k = true → Runs (.laneDegradeCheck g l n k) s (fun t =>
    t = { s.ticked with lnk := t.lnk } ∧
    (t.port g).degraded = ((s.port g).degraded || decide (n * 8 < (l.map (·.corrected)).sum)) ∧
    (t.port g).fecCorr = ((s.port g).fecCorr + k) % 2 ^ 64 ∧ ∀ h : PortId, h ≠ g → t.port h = s.port h))

/-! ## Logs, monitors, trace, register writes -/

/-- R349, R352, R357 to R366: mailboxes, monitors, freeze and thaw, trace.
Where the manual is open it rests on the model's choices: log entries 83, 84, 94. -/
def Obligations.LogMonitorAndTraceRowsTakeEffect : Prop :=
  -- FLT_POP: the oldest record leaves the log for the mailbox
  (∀ (f : Fn) (s : State), Runs (.fltPop f) s (fun t =>
    t = { s.ticked with ras := t.ras } ∧ (t.flt f).valid = true ∧
    (∀ r rest, (s.flt f).recs = r :: rest → (t.flt f).recs = rest ∧ (t.flt f).mbx = r.bytes ∧ (t.flt f).empty = false) ∧
    ((s.flt f).recs = [] → (t.flt f).empty = true ∧ (t.flt f).recs = []) ∧
    ∀ g : Fn, g ≠ f → t.flt g = s.flt g)) ∧
  -- RAS_LOG_REQUEST: the entry of the number asked for, while the log still holds it
  (∀ s : State, Runs .rasLogRequest s (fun t =>
    let n := (rd s 0x0080000C).toNat
    t = { s.ticked with ras := { s.ras with valid := true, gone := t.ras.gone, mbx := t.ras.mbx } } ∧
    (∀ e, s.ras.log.find? (fun e => e.num == n) = some e → 1 ≤ (s.ras.next + 2 ^ 32 - n) % 2 ^ 32 →
      (s.ras.next + 2 ^ 32 - n) % 2 ^ 32 ≤ 1024 → t.ras.gone = false ∧ t.ras.mbx = e.bytes) ∧
    (1024 < (s.ras.next + 2 ^ 32 - n) % 2 ^ 32 → t.ras.gone = true))) ∧
  -- RAS_IRQ_SEND: one message, at most once in 100 us
  (∀ s : State, s.ras.irqDue = true → rdB s 0x00800004 0 = true → (∀ e, s.ras.irqAt = some e → e + 100000 ≤ s.time) →
    Runs .rasIrqSend s (fun t =>
      let v := rdF s 0x00800004 8 6
      t.ras.irqDue = false ∧ t.ras.irqAt = some s.time ∧
      (if rdB s (fpA 0 (0x40000 + 16 * v + 12)) 0 then rdB t (fpA 0 (0x41000 + 4 * (v / 32))) (v % 32) = true ∧ t.hq = s.hq
       else t.hq.msix = s.hq.msix ++ [⟨0, v⟩] ∧ t.regs = s.regs))) ∧
  -- MON_CLEAR, MON_CNT_HI_WRITE, MON_CNT_LO_WRITE where the Charter allows monitors
  (∀ (m : Fin 64) (s : State), s.charter.dbgMonitors = true → Runs (.monClear m) s (fun t =>
    t = { s.ticked with mon := { s.mon with mons := t.mon.mons } } ∧
    t.mon.mons.get {} m = { s.mon.mons.get {} m with min := 0xFFFFFFFF, max := 0, skip := 0, bins := {} })) ∧
  (∀ (n : Fin 64) (v : W32) (s : State), s.charter.dbgMonitors = true → Runs (.monCntHiWrite n v) s (fun t =>
    t = { s.ticked with mon := { s.mon with cntHi := t.mon.cntHi } } ∧ t.mon.cntHi.get 0 n = v)) ∧
  (∀ (n : Fin 64) (v : W32) (s : State), s.charter.dbgMonitors = true → Runs (.monCntLoWrite n v) s (fun t =>
    t = { s.ticked with mon := { s.mon with cnt := t.mon.cnt } } ∧
    t.mon.cnt.get 0 n = (s.mon.cntHi.get 0 n).toNat * 2 ^ 32 + v.toNat)) ∧
  (∀ i ∈ ([.monClear 3, .monCntHiWrite 3 5, .monCntLoWrite 3 5, .freezeNow, .thaw] : List Instr), ∀ s : State,
    s.charter.dbgMonitors = false → Runs i s (fun t => t = s.ticked)) ∧
  -- FREEZE_NOW and an armed FREEZE_TRIGGER: the monitors stand, with the chip time and the ledger of the instant
  (∀ (now : Bool) (s : State), s.charter.dbgMonitors = true → s.mon.frozen = false →
    (now = false → rdB s 0x00604800 3 = true ∧
      (rdF s 0x00604800 0 3 = 1 ∧ rd64 s 0x00604804 0x00604808 % 2 ^ 48 ≤ s.gov.work % 2 ^ 48 ∨
       rdF s 0x00604800 0 3 = 2 ∧ rd64 s 0x00604804 0x00604808 ≤ s.time ∨
       (rdF s 0x00604800 0 3 = 3 ∨ rdF s 0x00604800 0 3 = 4) ∧ s.mon.fire = true)) →
    Runs (if now then .freezeNow else .freezeTrigger) s (fun t =>
      t.mem = s.mem ∧ t.mon.frozen = true ∧ t.mon.frTime = s.time ∧ t.mon.frLedger = s.gov.work % 2 ^ 48 ∧
      t.mon.mons = s.mon.mons ∧ t.mon.cnt = s.mon.cnt ∧ rdB t 0x00604800 3 = false ∧ monRuns t = false ∧
      t.trc.stopped = (s.trc.stopped || rdB s 0x00604800 7))) ∧
  -- THAW
  (∀ s : State, s.charter.dbgMonitors = true → s.mon.frozen = true → Runs .thaw s (fun t =>
    t.mem = s.mem ∧ t.mon.frozen = false ∧ t.trc.stopped = false)) ∧
  -- TRACE_ENABLE: from the buffer's beginning, with a SYNC record of every core
  (∀ (v : W32) (s : State), v.getLsbD 0 = true → rdB s 0x00700000 0 = false → s.charter.dbgTrace = true → s.trc.stopped = false →
    (∀ c < 32, s.trc.fifo.get [] c = []) → Runs (.traceEnable v) s (fun t =>
      t = { s.ticked with regs := t.regs, trc := t.trc } ∧ rd t 0x00700000 = v &&& 0x3F ∧ t.trc.write = 0 ∧
      t.trc.full = false ∧ t.trc.active = true ∧
      ∀ c < 32, ∃ r : TrcRec, t.trc.fifo.get [] c = [r] ∧ r.kind = 6 ∧ r.b1 = c ∧ r.time = s.time)) ∧
  (∀ (v : W32) (s : State), v.getLsbD 0 = false → Runs (.traceDisable v) s (fun t =>
    t = { s.ticked with regs := t.regs, trc := t.trc } ∧ rd t 0x00700000 = v &&& 0x3F ∧ t.trc.fifo = s.trc.fifo ∧
    (trcEmpty s = true → t.trc.active = false))) ∧
  -- TRACE_WRITE: the only record goes to the next place of the buffer
  (∀ (c pa : Nat) (bp o : Bool) (r : TrcRec) (u s : State), c ≤ 32 → s.trc.fifo.get [] c = [r] →
    (∀ k ≤ 32, k ≠ c → s.trc.fifo.get [] k = []) → s.trc.full = false →
    (rdB s 0x00700000 1 = true ∨ s.trc.wrapped = false) → s.trc.lost.get 0 c = 0 → s.trc.syncDue.get false c = false →
    translate { s with trc := { s.trc with fifo := s.trc.fifo.put [] c [] } } 32 0 none
      (rdF s 0x00700008 12 20 * 4096 + rdF s 0x0070000C 0 20 * 2 ^ 32 + 32 * s.trc.write) 32 .write = (u, .ok pa bp o) →
    (isHbm pa = true ∨ isCommons pa = true) → Runs .traceWrite s (fun t =>
      t.mem = (writePa u pa r.bytes).mem ∧ (∀ k ≤ 32, t.trc.fifo.get [] k = []) ∧
      (s.trc.write + 1 < 2 ^ (trcLog2 s - 5) → t.trc.write = s.trc.write + 1) ∧ t.trc.dropped = s.trc.dropped)) ∧
  -- TRACE_WRITE: each record leaves its FIFO once; where the buffer is full or has wrapped, and no longer does, it is dropped
  (∀ (c : Nat) (r : TrcRec) (s : State), c ≤ 32 → s.trc.fifo.get [] c = [r] → (∀ k ≤ 32, k ≠ c → s.trc.fifo.get [] k = []) →
    (s.trc.full = true ∨ s.trc.wrapped = true) → rdB s 0x00700000 1 = false → s.trc.lost.get 0 c = 0 →
    s.trc.syncDue.get false c = false → Runs .traceWrite s (fun t =>
      t.mem = s.mem ∧ (∀ k ≤ 32, t.trc.fifo.get [] k = []) ∧ t.trc.dropped = (s.trc.dropped + 1) % 2 ^ 64)) ∧
  -- after a record of a core that has lost some leaves its FIFO: a LOST record with their number, then a SYNC record
  (∀ (c : CoreId) (s : State), s.trc.stopped = false → s.trc.syncDue.get false c = false → s.trc.lost.get 0 c ≠ 0 →
    (s.trc.fifo.get [] c).length < 63 →
    ∃ (a b : TrcRec), (trcRecover s c).trc.fifo.get [] c = s.trc.fifo.get [] c ++ [a, b] ∧ a.kind = 7 ∧ a.b1 = c ∧
      a.seq = BitVec.ofNat 32 (Nat.min (s.trc.lost.get 0 c) 0xFFFFFFFF) ∧ b = syncRec s c ∧
      (trcRecover s c).trc.lost.get 0 c = 0) ∧
  -- ... with room for one, the SYNC record follows when the next has gone
  (∀ (c : CoreId) (s : State), s.trc.stopped = false → s.trc.syncDue.get false c = false → s.trc.lost.get 0 c ≠ 0 →
    (s.trc.fifo.get [] c).length = 63 →
    ∃ a : TrcRec, (trcRecover s c).trc.fifo.get [] c = s.trc.fifo.get [] c ++ [a] ∧ a.kind = 7 ∧
      (trcRecover s c).trc.syncDue.get false c = true) ∧
  -- TRACE_SYNC when bit 30 of the core's cycle count has changed
  (∀ (c : CoreId) (s : State), s.trc.bit30.get false c ≠ (s.core c).cycles.testBit 30 → trcRuns s = true →
    (s.trc.fifo.get [] c).length < 64 → Runs (.traceSync c) s (fun t =>
      t = { s.ticked with trc := t.trc } ∧ t.trc.bit30.get false c = (s.core c).cycles.testBit 30 ∧
      ∃ r : TrcRec, t.trc.fifo.get [] c = s.trc.fifo.get [] c ++ [r] ∧ r.kind = 6 ∧
        r.seq = BitVec.ofNat 32 ((s.core c).cycles / 2 ^ 32)))

/-- R9, R10, R370 to R373: a host write reaches registers word by word, each with its own rule.
Where the manual is open it rests on the model's choices: log entry 4. -/
def Obligations.RegisterWritesReachTheirRegisters : Prop :=
  let at_ (f : Fn) (p : Nat) : Nat := if f.val = 0 then 0x40000 + p else p
  let one (f : Fn) (off : Nat) (v : W32) : Instr := .registerWrite f off (leBytes 4 v.toNat)
  let m (b : Bool) : Nat := if b then 4 else 0
  -- a plain register of CHR, PLT, HQ globals, RAS or a core window: RW fields take the value, a 1 clears a W1C bit, and no
  -- other register changes
  (∀ (f : Fn) (off a : Nat) (v : W32) (s : State), off % 4 = 0 → off + 4 ≤ 0x4000000 → writeAddr s f off = some a →
    (a < 0x200000 ∧ a ≠ 0x20200 ∨ 0x800000 ≤ a ∧ a < 0x1000000 ∧ a ≠ 0x800010 ∨
      ∃ c < 32, ∃ o ∈ [0x014, 0x054, 0x100, 0x104, 0x20C, 0x604, 0x608, 0x60C, 0x614], a = coreA c o) →
    Runs (one f off v) s (fun t => t = { s.ticked with regs := t.regs } ∧ (∀ b, b ≠ a → rd t b = rd s b) ∧
      ∀ i < 32, (rd t a).getLsbD i = (if (rwMask a).testBit i then v.getLsbD i else (rd s a).getLsbD i)
        && !((w1cMask a).testBit i && v.getLsbD i))) ∧
  -- no register at the offset, or a word not wholly covered: ignored
  (∀ (f : Fn) (off : Nat) (v : W32) (s : State), off % 4 = 0 → off + 4 ≤ 0x4000000 → writeAddr s f off = none →
    Runs (one f off v) s (fun t => t = s.ticked)) ∧
  (∀ (f : Fn) (off : Nat) (b : List Byte) (s : State), 1 ≤ b.length → off + b.length ≤ 0x4000000 →
    off + b.length < (off + 3) / 4 * 4 + 4 → Runs (.registerWrite f off b) s (fun t => t = s.ticked)) ∧
  -- a virtual function reaches its own page only
  (∀ (f : Fn) (off : Nat) (v : W32) (s : State), f.val ≠ 0 → 0x100000 ≤ off → off + 4 ≤ 0x4000000 → off % 4 = 0 →
    Runs (one f off v) s (fun t => t = s.ticked)) ∧
  -- past the end of BAR0
  (∀ (f : Fn) (off : Nat) (b : List Byte) (s : State), 0x4000000 < off + b.length →
    exec (.registerWrite f off b) s = .fault (.illFormed "REGISTER_WRITE")) ∧
  -- one register at two addresses
  (∀ (f : Fn) (k : Fin 32) (v : W32) (s : State), f.val ≠ 0 →
    exec (one f (0x1F000 + 4 * k) v) s = exec (one 0 (0x200000 + 0x100 * f + 4 * k) v) s) ∧
  (∀ (f : Fn) (k : Fin 64) (r : Fin 8) (v : W32) (s : State), embOwner s k = some f.val → r.val ≠ 2 →
    exec (one f (at_ f (0x1E000 + 0x20 * k + 4 * r)) v) s = exec (one 0 (0x02001000 + 0x20 * k + 4 * r) v) s) ∧
  -- the registers whose write is a row of its own
  ∀ (f : Fn) (q : Qid) (c : CoreId) (n : Fin 64) (b : Bool) (v x : W32) (s : State),
    exec (one f (at_ f (0x1000 + 8 * q)) v) s = exec (.doorbell f q (some v) none) s ∧
    exec (one f (at_ f (0x1004 + 8 * q)) v) s = exec (.doorbell f q none (some v)) s ∧
    exec (.registerWrite f (at_ f (0x1000 + 8 * q)) (leBytes 4 v.toNat ++ leBytes 4 x.toNat)) s
      = exec (.doorbell f q (some v) (some x)) s ∧
    exec (one f (at_ f (0x10014 + 0x80 * q)) v) s = exec (if v.getLsbD 0 then .queueEnable f q v else .queueDisable f q v) s ∧
    exec (one f (at_ f (0x10028 + 0x80 * q)) v) s = exec (.abort f q v) s ∧
    (v.getLsbD 0 = true → exec (one f (at_ f 0x2000C) v) s = exec (.fltPop f) s ∧
      exec (one 0 0x20200 v) s = exec .govSnapRequest s ∧ exec (one 0 0x800010 v) s = exec .rasLogRequest s) ∧
    exec (one 0 (0x200000 + 0x100 * f + m b) v) s = exec (.mmuRootWrite f b v) s ∧
    exec (one 0 (0x200010 + 0x100 * f) v) s = exec (.mmuInvalidate f v) s ∧
    (∀ k : Fin 16, exec (one 0 (0x208000 + 0x80 * f + 8 * k + m b) v) s = exec (.allotWrite f k b v) s ∧
      exec (one 0 (0x400200 + 16 * k + m b) v) s = exec (.bwCfgWrite k b v) s ∧
      exec (one 0 (0x500004 + 0x10000 * k) v) s = exec (if v.getLsbD 0 then .portFence k else .portUnfence ⟨k, false⟩) s) ∧
    exec (one 0 0x400000 v) s = exec (.synSelCapture v) s ∧ exec (one 0 0x40080C v) s = exec (.synDumpStart v) s ∧
    exec (one 0 0x508004 v) s = exec (.routeSelect v) s ∧
    exec (one 0 (0x2000800 + 4 * n) v) s = exec (.embSlotOwnerWrite n v) s ∧
    exec (one 0 (0x604008 + 16 * n) v) s = exec (.monCntHiWrite n v) s ∧
    exec (one 0 (0x604004 + 16 * n) v) s = exec (.monCntLoWrite n v) s ∧
    exec (one 0 0x700000 v) s = exec (if v.getLsbD 0 then .traceEnable v else .traceDisable v) s ∧
    exec (one 0 (coreA c 0x220) v) s = exec (.u63HiWrite c v) s ∧
    exec (one 0 (coreA c 0x21C) v) s = exec (.u63LoWrite c v) s ∧
    exec (one 0 (coreA c 0x600) v) s = exec (.l1EnableWrite c v) s

/-- R349: a pop moves the oldest record into the mailbox, as the mailbox's registers then read; of an empty log it says so. -/
def Obligations.FaultMailboxPopMovesOldestRecord : Prop :=
  ∀ (f : Fn) (s : State),
    let at_ (p : Nat) : Nat := if f.val = 0 then 0x40000 + p else p
    Runs (.registerWrite f (at_ 0x2000C) (leBytes 4 1)) s (fun t =>
      (∀ r rest, (s.flt f).recs = r :: rest →
        (∀ k < 16, readReg t f (at_ (0x20040 + 4 * k)) = BitVec.ofNat 32 (leNat ((r.bytes.drop (4 * k)).take 4))) ∧
        (t.flt f).recs = rest ∧ readReg t f (at_ 0x2000C) = 2) ∧
      ((s.flt f).recs = [] →
        (∀ k < 16, readReg t f (at_ (0x20040 + 4 * k)) = 0) ∧ (t.flt f).recs = [] ∧ readReg t f (at_ 0x2000C) = 6))

/-- R292: sequence numbers are 32-bit and wrap. -/
def Obligations.SequenceNumbersPrecedeModulo : Prop :=
  (∀ a b : W32, seqBefore a b = true ↔ 1 ≤ ((b.toNat : Int) - a.toNat) % 2 ^ 32 ∧ ((b.toNat : Int) - a.toNat) % 2 ^ 32 ≤ 2 ^ 31 - 1) ∧
  (∀ a b : W32, (((b.toNat : Int) - a.toNat) % 2 ^ 32 = 0 ∨ ((b.toNat : Int) - a.toNat) % 2 ^ 32 = 2 ^ 31) → seqBefore a b = false) ∧
  -- the one place where the device compares them by order: ABORT of a number no uncommitted command has
  ∀ (f : Fn) (q : Qid) (v : W32) (s : State), (s.queue f q).abSt ≠ .pending → (∀ c ∈ (s.queue f q).cmds, c.seq ≠ v) →
    Runs (.abort f q v) s (fun t => (t.queue f q).abSt = .done ↔
      1 ≤ (((s.queue f q).nextSeq.toNat : Int) - v.toNat) % 2 ^ 32 ∧
      (((s.queue f q).nextSeq.toNat : Int) - v.toNat) % 2 ^ 32 ≤ 2 ^ 31 - 1)

/-! ## The whole machine -/

/-- Every command answers: its effect, or, where its operands spell no command, a fault. None is refused, and each acts within
its share: the queue of commands is the sender's; the flash changes only with FLASH_OPERATION_DONE and PWRGOOD_FALL (R54, R387);
chip time starts again only with a chip reset or power, and moves on only with a governor tick (R49, R59); the device state
changes only with the rows of power, reset and start-up (R44, R49, R377).
Where the manual is open it rests on the model's choices: log entries 1, 3. -/
def Obligations.CommandsAnswerAndActWithinTheirShare : Prop :=
  ∀ (i : Instr) (s : State),
    (∃ mn, exec i s = .fault (.illFormed mn)) ∨ ∃ t, exec i s = .next t ∧
      t.pending = s.pending ∧ t.freeIdx = s.freeIdx + 1 ∧
      (t.flash = s.flash ∨ i = .pwrgoodFall ∨ ∃ ok, i = .flashOperationDone ok) ∧
      (t.time = s.time ∨ (t.time = 0 ∧ (i = .pwrgoodFall ∨ i = .perstAssert ∨ i = .resetTaken)) ∨
        ∃ k, i = .governorTick k ∧ t.time = ((settle s).gov.tickNo + 1) * 1000 % 2 ^ 64) ∧
      (t.boot.dev = s.boot.dev ∨ (i = .pwrgoodFall ∧ t.boot.dev = .off) ∨
        ((i = .perstAssert ∨ i = .resetTaken ∨ (∃ st, i = .pwrgoodRise st) ∨ ∃ st, i = .perstDeassert st) ∧ t.boot.dev = .strap) ∨
        (i = .strapComplete ∧ s.boot.dev = .strap ∧ t.boot.dev = .charterLoad) ∨
        ((i = .charterLoadDone ∨ i = .charterLoadTimeout ∨ i = .sfdpDiscoveryDone none) ∧ s.boot.dev = .charterLoad ∧
          t.boot.dev = .selftest) ∨
        ((∃ m, i = .hbmTrainingDone m) ∧ s.boot.dev = .selftest ∧ t.boot.dev = .plantArm) ∨
        ((∃ k v, i = .plantArmDone k v) ∧ s.boot.dev = .plantArm ∧ (t.boot.dev = .ready ∨ t.boot.dev = .limp)))

/-- Every step keeps the power, start-up and pin state of R41, R386 to R388 and R391, from every state that has it.
Where the manual is open it rests on the model's choices: log entry 11. -/
def Obligations.EveryStepKeepsPowerAndPinState : Prop :=
  ∀ s t : State, PowerInv s → step s = .next t → PowerInv t

/-- The state after reset has it, and is OFF with nothing driven, chip time zero and no command waiting.
Where the manual is open it rests on the model's choices: log entry 99. -/
def Obligations.ResetStateIsOffAndDrivesNothing : Prop :=
  PowerInv State.reset ∧ State.reset.boot.dev = .off ∧ State.reset.boot.pumpPin = .hiz ∧ State.reset.boot.valvePin = .hiz ∧
    State.reset.time = 0 ∧ State.reset.pending = [] ∧ State.reset.mem = [] ∧
    ∀ f q : Nat, (State.reset.queue f q).st = .disabled
end

