-- ==== Sys2Proof/Laws/Bytes.lean ====
section
/-! SUPPORT. Byte lists: a number's bytes spell it; the bound of a CRC. -/

namespace Sys2Proof.Machine

@[simp] theorem leBytes_length (n v : Nat) : (leBytes n v).length = n := by
  induction n generalizing v with
  | zero => rfl
  | succ n ih => simp [leBytes, ih]

/-- The bytes of a number that fits spell it. -/
theorem leNat_leBytes (n v : Nat) (h : v < 256 ^ n) : leNat (leBytes n v) = v := by
  induction n generalizing v with
  | zero => simp at h; simp [leBytes, leNat, h]
  | succ n ih =>
    have h1 : v / 256 < 256 ^ n := Nat.div_lt_of_lt_mul (by rw [Nat.pow_succ] at h; omega)
    simp only [leBytes, leNat, ih _ h1, BitVec.toNat_ofNat]
    omega

theorem crc64_lt (l : List Byte) : crc64 l < 2 ^ 64 := by
  have bit (c : Nat) : crcBit c < 2 ^ 64 := by
    unfold crcBit
    split
    · exact Nat.xor_lt_two_pow (Nat.mod_lt _ (by decide)) (by decide)
    · exact Nat.mod_lt _ (by decide)
  have fold (l : List Byte) (c : Nat) (h : c < 2 ^ 64) : l.foldl crcByte c < 2 ^ 64 := by
    induction l generalizing c with
    | nil => exact h
    | cons b r ih => exact ih _ (bit _)
  exact Nat.xor_lt_two_pow (fold l _ (by decide)) (by decide)

end Sys2Proof.Machine
end

