-- ==== Sys2Proof/Laws/Tbl.lean ====
section
/-! SUPPORT. Laws of the sparse lists and tables of Word.lean. -/

namespace Sys2Proof

variable {α : Type}

@[simp] theorem look_addKey_same (l : List (Nat × α)) (k : Nat) (v : α) : look (addKey l k v) k = some v := by
  induction l with
  | nil => simp [addKey, look]
  | cons p r ih =>
    obtain ⟨a, x⟩ := p
    simp only [addKey]
    split
    · simp [look]
    · split
      · simp [look]
      · rename_i _ h; simp [look, h, ih]

theorem look_addKey_other (l : List (Nat × α)) (k j : Nat) (v : α) (h : j ≠ k) : look (addKey l k v) j = look l j := by
  induction l with
  | nil => simp [addKey, look, h]
  | cons p r ih =>
    obtain ⟨a, x⟩ := p
    simp only [addKey]
    split
    · simp [look, h]
    · split
      · rename_i _ e; subst e; simp [look, h]
      · simp only [look, ih]

@[simp] theorem look_delKey_same (l : List (Nat × α)) (k : Nat) : look (delKey l k) k = none := by
  induction l with
  | nil => rfl
  | cons p r ih =>
    obtain ⟨a, x⟩ := p
    simp only [delKey]
    split
    · exact ih
    · rename_i h; simp [look, h, ih]

theorem look_delKey_other (l : List (Nat × α)) (k j : Nat) (h : j ≠ k) : look (delKey l k) j = look l j := by
  induction l with
  | nil => rfl
  | cons p r ih =>
    obtain ⟨a, x⟩ := p
    simp only [delKey]
    split
    · rename_i e; subst e; simp [look, h, ih]
    · simp only [look, ih]

@[simp] theorem Tbl.get_put_same [DecidableEq α] (t : Tbl α) (d v : α) (k : Nat) : (t.put d k v).get d k = v := by
  unfold Tbl.put Tbl.get
  split
  · rename_i h; simp [h]
  · simp

theorem Tbl.get_put_other [DecidableEq α] (t : Tbl α) (d v : α) (k j : Nat) (h : j ≠ k) :
    (t.put d k v).get d j = t.get d j := by
  unfold Tbl.put Tbl.get
  split
  · simp [look_delKey_other _ _ _ h]
  · simp [look_addKey_other _ _ _ _ h]

/-- A write and a read of a table, in one rule. -/
theorem Tbl.get_put [DecidableEq α] (t : Tbl α) (d v : α) (k j : Nat) :
    (t.put d k v).get d j = if j = k then v else t.get d j := by
  split
  · rename_i h; subst h; simp
  · rename_i h; exact Tbl.get_put_other t d v k j h

/-- The first key of `l`, if any, lies above `k`. -/
theorem rising_cons (k : Nat) (v : α) (l : List (Nat × α)) :
    rising ((k, v) :: l) = true ↔ (∀ p ∈ l, k < p.1) ∧ rising l = true := by
  induction l generalizing k v with
  | nil => simp [rising]
  | cons p r ih =>
    obtain ⟨a, x⟩ := p
    simp only [rising, Bool.and_eq_true, decide_eq_true_eq, List.mem_cons, forall_eq_or_imp]
    constructor
    · rintro ⟨h, h2⟩
      refine ⟨⟨h, fun q hq => ?_⟩, h2⟩
      exact Nat.lt_trans h (((ih a x).1 h2).1 q hq)
    · rintro ⟨⟨h, _⟩, h2⟩
      exact ⟨h, h2⟩

theorem mem_addKey (l : List (Nat × α)) (k : Nat) (v : α) (p : Nat × α) :
    p ∈ addKey l k v → p = (k, v) ∨ p ∈ l := by
  induction l with
  | nil => simp [addKey]
  | cons q r ih =>
    obtain ⟨a, x⟩ := q
    simp only [addKey]
    split
    · simp
    · split
      · intro h
        rcases List.mem_cons.1 h with h | h
        · exact .inl h
        · exact .inr (List.mem_cons_of_mem _ h)
      · intro h
        rcases List.mem_cons.1 h with h | h
        · exact .inr (h ▸ List.mem_cons_self ..)
        · rcases ih h with h | h
          · exact .inl h
          · exact .inr (List.mem_cons_of_mem _ h)

theorem mem_delKey (l : List (Nat × α)) (k : Nat) (p : Nat × α) : p ∈ delKey l k → p ∈ l := by
  induction l with
  | nil => simp [delKey]
  | cons q r ih =>
    obtain ⟨a, x⟩ := q
    simp only [delKey]
    split
    · exact fun h => List.mem_cons_of_mem _ (ih h)
    · intro h
      rcases List.mem_cons.1 h with h | h
      · exact h ▸ List.mem_cons_self ..
      · exact List.mem_cons_of_mem _ (ih h)

theorem rising_addKey (l : List (Nat × α)) (k : Nat) (v : α) (h : rising l = true) : rising (addKey l k v) = true := by
  induction l with
  | nil => rfl
  | cons q r ih =>
    obtain ⟨a, x⟩ := q
    have hr := (rising_cons a x r).1 h
    simp only [addKey]
    split
    · rename_i hk
      refine (rising_cons k v _).2 ⟨fun p hp => ?_, h⟩
      rcases List.mem_cons.1 hp with e | e
      · rw [e]; exact hk
      · exact Nat.lt_trans hk (hr.1 p e)
    · split
      · rename_i _ e
        subst e
        exact (rising_cons k v r).2 hr
      · refine (rising_cons a x _).2 ⟨fun p hp => ?_, ih hr.2⟩
        rcases mem_addKey r k v p hp with e | e
        · rw [e]; show a < k; omega
        · exact hr.1 p e

theorem rising_delKey (l : List (Nat × α)) (k : Nat) (h : rising l = true) : rising (delKey l k) = true := by
  induction l with
  | nil => rfl
  | cons q r ih =>
    obtain ⟨a, x⟩ := q
    have hr := (rising_cons a x r).1 h
    simp only [delKey]
    split
    · exact ih hr.2
    · exact (rising_cons a x _).2 ⟨fun p hp => hr.1 p (mem_delKey r k p hp), ih hr.2⟩

theorem rising_filter (l : List (Nat × α)) (f : Nat × α → Bool) (h : rising l = true) : rising (l.filter f) = true := by
  induction l with
  | nil => rfl
  | cons q r ih =>
    obtain ⟨a, x⟩ := q
    have hr := (rising_cons a x r).1 h
    simp only [List.filter]
    split
    · exact (rising_cons a x _).2 ⟨fun p hp => hr.1 p ((List.mem_filter.1 hp).1), ih hr.2⟩
    · exact ih hr.2

end Sys2Proof
end

