-- ==== Sys2Proof/Laws/Memory.lean ====
section
/-! SUPPORT. The canonical forms of the memory list and of the flash list: every operation that changes one keeps it;
a read after a write. -/

namespace Sys2Proof.Machine

theorem Memory.wf_iff (m : List Host.Cell) :
    Memory.wf m = true ↔ rising m = true ∧ ∀ c ∈ m, ¬ (isSram c.1 = true ∧ c.2 = 0) := by
  simp only [Memory.wf, Bool.and_eq_true, List.all_eq_true, Bool.not_eq_true', Bool.and_eq_false_iff, beq_eq_false_iff_ne, not_and,
    Decidable.imp_iff_not_or, Bool.not_eq_true, ne_eq]

/-- Writing one byte keeps the canonical form. -/
theorem Memory.put_wf (m : List Host.Cell) (a : Nat) (b : Byte) (h : Memory.wf m = true) :
    Memory.wf (Memory.put m a b) = true := by
  rw [Memory.wf_iff] at h ⊢
  unfold Memory.put
  split
  · exact ⟨rising_delKey m a h.1, fun c hc => h.2 c (mem_delKey m a c hc)⟩
  · rename_i hb
    refine ⟨rising_addKey m a b h.1, fun c hc => ?_⟩
    rcases mem_addKey m a b c hc with e | e
    · subst e; simpa using hb
    · exact h.2 c e

/-- Writing bytes keeps the canonical form. -/
theorem Memory.putsBut_wf (skip : Nat → Bool) (bs : List Byte) (m : List Host.Cell) (a : Nat) (h : Memory.wf m = true) :
    Memory.wf (Memory.putsBut skip m a bs) = true := by
  induction bs generalizing m a with
  | nil => exact h
  | cons b r ih =>
    simp only [Memory.putsBut]
    split
    · exact ih _ _ h
    · exact ih _ _ (Memory.put_wf m a b h)

/-- Dropping cells keeps the canonical form. -/
theorem Memory.filter_wf (f : Host.Cell → Bool) (m : List Host.Cell) (h : Memory.wf m = true) :
    Memory.wf (m.filter f) = true := by
  rw [Memory.wf_iff] at h ⊢
  exact ⟨rising_filter m f h.1, fun c hc => h.2 c (List.mem_filter.1 hc).1⟩

/-- Restoring cells one by one keeps the canonical form. -/
theorem Memory.foldPut_wf (l : List (Nat × Byte)) (m : List Host.Cell) (h : Memory.wf m = true) :
    Memory.wf (l.foldl (fun m (e : Nat × Byte) => Memory.put m e.1 e.2) m) = true := by
  induction l generalizing m with
  | nil => exact h
  | cons e r ih => exact ih _ (Memory.put_wf m e.1 e.2 h)

/-- A device write keeps the canonical form. -/
theorem memWrite_wf (s : State) (a : Nat) (bs : List Byte) (h : Memory.wf s.mem = true) :
    Memory.wf (memWrite s a bs).mem = true :=
  Memory.putsBut_wf _ bs s.mem a h

theorem chipReset_wf (s : State) (k : ResetCause) (h : Memory.wf s.mem = true) : Memory.wf (chipReset s k).mem = true :=
  Memory.filter_wf _ s.mem h

/-- A byte listed after a write of one byte: the byte written there, unless it is the byte an unlisted SRAM address
reads as; every other address keeps its listing. -/
theorem Memory.look_put (m : List Host.Cell) (a j : Nat) (b : Byte) :
    look (Memory.put m a b) j
      = if j = a then (if isSram a && b == 0 then none else some b) else look m j := by
  unfold Memory.put
  split
  · rename_i h
    split
    · rename_i e; subst e; simp
    · rename_i e; exact look_delKey_other m a j e
  · rename_i h
    split
    · rename_i e; subst e; simp
    · rename_i e; exact look_addKey_other m a j b e

/-- Bytes outside the range written keep their listing. -/
theorem Memory.look_putsBut_other (skip : Nat → Bool) (bs : List Byte) (m : List Host.Cell) (a j : Nat)
    (h : j < a ∨ a + bs.length ≤ j) : look (Memory.putsBut skip m a bs) j = look m j := by
  induction bs generalizing m a with
  | nil => rfl
  | cons b r ih =>
    simp only [List.length_cons] at h
    simp only [Memory.putsBut]
    have h1 : j < a + 1 ∨ a + 1 + r.length ≤ j := by omega
    split
    · exact ih _ _ h1
    · rw [ih _ _ h1, Memory.look_put]
      split
      · omega
      · rfl

theorem memWrite_byte_other (s : State) (a j : Nat) (bs : List Byte) (h : j < a ∨ a + bs.length ≤ j) :
    memByte (memWrite s a bs) j = memByte s j := by
  simp only [memByte, memWrite, Memory.look_putsBut_other _ _ _ _ _ h]

/-! ## Flash -/

theorem flashWf_iff (fl : List Host.Cell) : flashWf fl = true ↔ rising fl = true ∧ ∀ c ∈ fl, c.2 ≠ 0xFF := by
  simp [flashWf, List.all_eq_true]

theorem flashPut_wf (fl : List Host.Cell) (a : Nat) (b : Byte) (h : flashWf fl = true) : flashWf (flashPut fl a b) = true := by
  rw [flashWf_iff] at h ⊢
  unfold flashPut
  split
  · exact ⟨rising_delKey fl a h.1, fun c hc => h.2 c (mem_delKey fl a c hc)⟩
  · rename_i hb
    refine ⟨rising_addKey fl a b h.1, fun c hc => ?_⟩
    rcases mem_addKey fl a b c hc with e | e
    · subst e; exact hb
    · exact h.2 c e

/-- What holds of a value and is kept by every turn holds after `n` turns. -/
theorem upTo_induct {α : Type} (P : α → Prop) (n : Nat) (a : α) (f : α → Nat → α) (h0 : P a)
    (h : ∀ x k, P x → P (f x k)) : P (upTo n a f) := by
  unfold upTo
  generalize List.range n = l
  induction l generalizing a with
  | nil => exact h0
  | cons k r ih => exact ih _ (h a k h0)

/-- What every turn keeps, `n` turns keep. -/
theorem upTo_keeps {α β : Type} (g : α → β) (n : Nat) (a : α) (f : α → Nat → α) (h : ∀ x k, g (f x k) = g x) :
    g (upTo n a f) = g a :=
  upTo_induct (fun x => g x = g a) n a f rfl (fun x k e => (h x k).trans e)

/-- A flash operation, whole or cut off, keeps the canonical form. -/
theorem flashApply_wf (n : Nat) (whole : Bool) (fl : List Host.Cell) (op : Nat × List Byte ⊕ Nat × Nat)
    (h : flashWf fl = true) : flashWf (flashApply n whole fl op) = true := by
  unfold flashApply
  split
  · refine upTo_induct (fun x => flashWf x = true) _ _ _ h (fun x k hx => ?_)
    split
    · exact flashPut_wf _ _ _ hx
    · exact hx
  · refine upTo_induct (fun x => flashWf x = true) _ _ _ h (fun x k hx => ?_)
    split
    · exact flashPut_wf _ _ _ hx
    · exact hx

end Sys2Proof.Machine
end

