-- ==== Sys2Proof/Laws/State.lean ====
section
/-! SUPPORT. What each update of the state changes and leaves: one lemma per field and update, so that no proof unfolds
a record update; and what is read back at the place written and at any other. -/

namespace Sys2Proof.Machine

@[simp] theorem State.setCore_time (s : State) (c : Nat) (x : Core) : (s.setCore c x).time = s.time := rfl
@[simp] theorem State.setCore_boot (s : State) (c : Nat) (x : Core) : (s.setCore c x).boot = s.boot := rfl
@[simp] theorem State.setCore_sb (s : State) (c : Nat) (x : Core) : (s.setCore c x).sb = s.sb := rfl
@[simp] theorem State.setCore_flash (s : State) (c : Nat) (x : Core) : (s.setCore c x).flash = s.flash := rfl
@[simp] theorem State.setCore_regs (s : State) (c : Nat) (x : Core) : (s.setCore c x).regs = s.regs := rfl
@[simp] theorem State.setCore_mem (s : State) (c : Nat) (x : Core) : (s.setCore c x).mem = s.mem := rfl
@[simp] theorem State.setCore_poison (s : State) (c : Nat) (x : Core) : (s.setCore c x).poison = s.poison := rfl
@[simp] theorem State.setCore_gov (s : State) (c : Nat) (x : Core) : (s.setCore c x).gov = s.gov := rfl
@[simp] theorem State.setCore_plt (s : State) (c : Nat) (x : Core) : (s.setCore c x).plt = s.plt := rfl
@[simp] theorem State.setCore_syn (s : State) (c : Nat) (x : Core) : (s.setCore c x).syn = s.syn := rfl
@[simp] theorem State.setCore_hq (s : State) (c : Nat) (x : Core) : (s.setCore c x).hq = s.hq := rfl
@[simp] theorem State.setCore_sch (s : State) (c : Nat) (x : Core) : (s.setCore c x).sch = s.sch := rfl
@[simp] theorem State.setCore_lnk (s : State) (c : Nat) (x : Core) : (s.setCore c x).lnk = s.lnk := rfl
@[simp] theorem State.setCore_ras (s : State) (c : Nat) (x : Core) : (s.setCore c x).ras = s.ras := rfl
@[simp] theorem State.setCore_mon (s : State) (c : Nat) (x : Core) : (s.setCore c x).mon = s.mon := rfl
@[simp] theorem State.setCore_trc (s : State) (c : Nat) (x : Core) : (s.setCore c x).trc = s.trc := rfl
@[simp] theorem State.setCore_sketch (s : State) (c : Nat) (x : Core) : (s.setCore c x).sketch = s.sketch := rfl
@[simp] theorem State.setCore_freeIdx (s : State) (c : Nat) (x : Core) : (s.setCore c x).freeIdx = s.freeIdx := rfl
@[simp] theorem State.setCore_pending (s : State) (c : Nat) (x : Core) : (s.setCore c x).pending = s.pending := rfl

@[simp] theorem State.setEng_time (s : State) (c : Nat) (e : CE) (y : ClEng) : (s.setEng c e y).time = s.time := rfl
@[simp] theorem State.setEng_boot (s : State) (c : Nat) (e : CE) (y : ClEng) : (s.setEng c e y).boot = s.boot := rfl
@[simp] theorem State.setEng_sb (s : State) (c : Nat) (e : CE) (y : ClEng) : (s.setEng c e y).sb = s.sb := rfl
@[simp] theorem State.setEng_flash (s : State) (c : Nat) (e : CE) (y : ClEng) : (s.setEng c e y).flash = s.flash := rfl
@[simp] theorem State.setEng_regs (s : State) (c : Nat) (e : CE) (y : ClEng) : (s.setEng c e y).regs = s.regs := rfl
@[simp] theorem State.setEng_mem (s : State) (c : Nat) (e : CE) (y : ClEng) : (s.setEng c e y).mem = s.mem := rfl
@[simp] theorem State.setEng_poison (s : State) (c : Nat) (e : CE) (y : ClEng) : (s.setEng c e y).poison = s.poison := rfl
@[simp] theorem State.setEng_gov (s : State) (c : Nat) (e : CE) (y : ClEng) : (s.setEng c e y).gov = s.gov := rfl
@[simp] theorem State.setEng_plt (s : State) (c : Nat) (e : CE) (y : ClEng) : (s.setEng c e y).plt = s.plt := rfl
@[simp] theorem State.setEng_syn (s : State) (c : Nat) (e : CE) (y : ClEng) : (s.setEng c e y).syn = s.syn := rfl
@[simp] theorem State.setEng_hq (s : State) (c : Nat) (e : CE) (y : ClEng) : (s.setEng c e y).hq = s.hq := rfl
@[simp] theorem State.setEng_sch (s : State) (c : Nat) (e : CE) (y : ClEng) : (s.setEng c e y).sch = s.sch := rfl
@[simp] theorem State.setEng_lnk (s : State) (c : Nat) (e : CE) (y : ClEng) : (s.setEng c e y).lnk = s.lnk := rfl
@[simp] theorem State.setEng_ras (s : State) (c : Nat) (e : CE) (y : ClEng) : (s.setEng c e y).ras = s.ras := rfl
@[simp] theorem State.setEng_mon (s : State) (c : Nat) (e : CE) (y : ClEng) : (s.setEng c e y).mon = s.mon := rfl
@[simp] theorem State.setEng_trc (s : State) (c : Nat) (e : CE) (y : ClEng) : (s.setEng c e y).trc = s.trc := rfl
@[simp] theorem State.setEng_sketch (s : State) (c : Nat) (e : CE) (y : ClEng) : (s.setEng c e y).sketch = s.sketch := rfl
@[simp] theorem State.setEng_freeIdx (s : State) (c : Nat) (e : CE) (y : ClEng) : (s.setEng c e y).freeIdx = s.freeIdx := rfl
@[simp] theorem State.setEng_pending (s : State) (c : Nat) (e : CE) (y : ClEng) : (s.setEng c e y).pending = s.pending := rfl

@[simp] theorem State.setTe_time (s : State) (c : Nat) (t : Te) : (s.setTe c t).time = s.time := rfl
@[simp] theorem State.setTe_boot (s : State) (c : Nat) (t : Te) : (s.setTe c t).boot = s.boot := rfl
@[simp] theorem State.setTe_sb (s : State) (c : Nat) (t : Te) : (s.setTe c t).sb = s.sb := rfl
@[simp] theorem State.setTe_flash (s : State) (c : Nat) (t : Te) : (s.setTe c t).flash = s.flash := rfl
@[simp] theorem State.setTe_regs (s : State) (c : Nat) (t : Te) : (s.setTe c t).regs = s.regs := rfl
@[simp] theorem State.setTe_mem (s : State) (c : Nat) (t : Te) : (s.setTe c t).mem = s.mem := rfl
@[simp] theorem State.setTe_poison (s : State) (c : Nat) (t : Te) : (s.setTe c t).poison = s.poison := rfl
@[simp] theorem State.setTe_gov (s : State) (c : Nat) (t : Te) : (s.setTe c t).gov = s.gov := rfl
@[simp] theorem State.setTe_plt (s : State) (c : Nat) (t : Te) : (s.setTe c t).plt = s.plt := rfl
@[simp] theorem State.setTe_syn (s : State) (c : Nat) (t : Te) : (s.setTe c t).syn = s.syn := rfl
@[simp] theorem State.setTe_hq (s : State) (c : Nat) (t : Te) : (s.setTe c t).hq = s.hq := rfl
@[simp] theorem State.setTe_sch (s : State) (c : Nat) (t : Te) : (s.setTe c t).sch = s.sch := rfl
@[simp] theorem State.setTe_lnk (s : State) (c : Nat) (t : Te) : (s.setTe c t).lnk = s.lnk := rfl
@[simp] theorem State.setTe_ras (s : State) (c : Nat) (t : Te) : (s.setTe c t).ras = s.ras := rfl
@[simp] theorem State.setTe_mon (s : State) (c : Nat) (t : Te) : (s.setTe c t).mon = s.mon := rfl
@[simp] theorem State.setTe_trc (s : State) (c : Nat) (t : Te) : (s.setTe c t).trc = s.trc := rfl
@[simp] theorem State.setTe_sketch (s : State) (c : Nat) (t : Te) : (s.setTe c t).sketch = s.sketch := rfl
@[simp] theorem State.setTe_freeIdx (s : State) (c : Nat) (t : Te) : (s.setTe c t).freeIdx = s.freeIdx := rfl
@[simp] theorem State.setTe_pending (s : State) (c : Nat) (t : Te) : (s.setTe c t).pending = s.pending := rfl

@[simp] theorem State.setPun_time (s : State) (c p : Nat) (x : Punnet) : (s.setPun c p x).time = s.time := rfl
@[simp] theorem State.setPun_boot (s : State) (c p : Nat) (x : Punnet) : (s.setPun c p x).boot = s.boot := rfl
@[simp] theorem State.setPun_sb (s : State) (c p : Nat) (x : Punnet) : (s.setPun c p x).sb = s.sb := rfl
@[simp] theorem State.setPun_flash (s : State) (c p : Nat) (x : Punnet) : (s.setPun c p x).flash = s.flash := rfl
@[simp] theorem State.setPun_regs (s : State) (c p : Nat) (x : Punnet) : (s.setPun c p x).regs = s.regs := rfl
@[simp] theorem State.setPun_mem (s : State) (c p : Nat) (x : Punnet) : (s.setPun c p x).mem = s.mem := rfl
@[simp] theorem State.setPun_poison (s : State) (c p : Nat) (x : Punnet) : (s.setPun c p x).poison = s.poison := rfl
@[simp] theorem State.setPun_gov (s : State) (c p : Nat) (x : Punnet) : (s.setPun c p x).gov = s.gov := rfl
@[simp] theorem State.setPun_plt (s : State) (c p : Nat) (x : Punnet) : (s.setPun c p x).plt = s.plt := rfl
@[simp] theorem State.setPun_syn (s : State) (c p : Nat) (x : Punnet) : (s.setPun c p x).syn = s.syn := rfl
@[simp] theorem State.setPun_hq (s : State) (c p : Nat) (x : Punnet) : (s.setPun c p x).hq = s.hq := rfl
@[simp] theorem State.setPun_sch (s : State) (c p : Nat) (x : Punnet) : (s.setPun c p x).sch = s.sch := rfl
@[simp] theorem State.setPun_lnk (s : State) (c p : Nat) (x : Punnet) : (s.setPun c p x).lnk = s.lnk := rfl
@[simp] theorem State.setPun_ras (s : State) (c p : Nat) (x : Punnet) : (s.setPun c p x).ras = s.ras := rfl
@[simp] theorem State.setPun_mon (s : State) (c p : Nat) (x : Punnet) : (s.setPun c p x).mon = s.mon := rfl
@[simp] theorem State.setPun_trc (s : State) (c p : Nat) (x : Punnet) : (s.setPun c p x).trc = s.trc := rfl
@[simp] theorem State.setPun_sketch (s : State) (c p : Nat) (x : Punnet) : (s.setPun c p x).sketch = s.sketch := rfl
@[simp] theorem State.setPun_freeIdx (s : State) (c p : Nat) (x : Punnet) : (s.setPun c p x).freeIdx = s.freeIdx := rfl
@[simp] theorem State.setPun_pending (s : State) (c p : Nat) (x : Punnet) : (s.setPun c p x).pending = s.pending := rfl

@[simp] theorem State.setQueue_time (s : State) (f q : Nat) (x : Queue) : (s.setQueue f q x).time = s.time := rfl
@[simp] theorem State.setQueue_boot (s : State) (f q : Nat) (x : Queue) : (s.setQueue f q x).boot = s.boot := rfl
@[simp] theorem State.setQueue_sb (s : State) (f q : Nat) (x : Queue) : (s.setQueue f q x).sb = s.sb := rfl
@[simp] theorem State.setQueue_flash (s : State) (f q : Nat) (x : Queue) : (s.setQueue f q x).flash = s.flash := rfl
@[simp] theorem State.setQueue_regs (s : State) (f q : Nat) (x : Queue) : (s.setQueue f q x).regs = s.regs := rfl
@[simp] theorem State.setQueue_mem (s : State) (f q : Nat) (x : Queue) : (s.setQueue f q x).mem = s.mem := rfl
@[simp] theorem State.setQueue_poison (s : State) (f q : Nat) (x : Queue) : (s.setQueue f q x).poison = s.poison := rfl
@[simp] theorem State.setQueue_gov (s : State) (f q : Nat) (x : Queue) : (s.setQueue f q x).gov = s.gov := rfl
@[simp] theorem State.setQueue_plt (s : State) (f q : Nat) (x : Queue) : (s.setQueue f q x).plt = s.plt := rfl
@[simp] theorem State.setQueue_cores (s : State) (f q : Nat) (x : Queue) : (s.setQueue f q x).cores = s.cores := rfl
@[simp] theorem State.setQueue_syn (s : State) (f q : Nat) (x : Queue) : (s.setQueue f q x).syn = s.syn := rfl
@[simp] theorem State.setQueue_sch (s : State) (f q : Nat) (x : Queue) : (s.setQueue f q x).sch = s.sch := rfl
@[simp] theorem State.setQueue_lnk (s : State) (f q : Nat) (x : Queue) : (s.setQueue f q x).lnk = s.lnk := rfl
@[simp] theorem State.setQueue_ras (s : State) (f q : Nat) (x : Queue) : (s.setQueue f q x).ras = s.ras := rfl
@[simp] theorem State.setQueue_mon (s : State) (f q : Nat) (x : Queue) : (s.setQueue f q x).mon = s.mon := rfl
@[simp] theorem State.setQueue_trc (s : State) (f q : Nat) (x : Queue) : (s.setQueue f q x).trc = s.trc := rfl
@[simp] theorem State.setQueue_sketch (s : State) (f q : Nat) (x : Queue) : (s.setQueue f q x).sketch = s.sketch := rfl
@[simp] theorem State.setQueue_freeIdx (s : State) (f q : Nat) (x : Queue) : (s.setQueue f q x).freeIdx = s.freeIdx := rfl
@[simp] theorem State.setQueue_pending (s : State) (f q : Nat) (x : Queue) : (s.setQueue f q x).pending = s.pending := rfl

@[simp] theorem State.setCtx_time (s : State) (x : Nat) (k : Ctx) : (s.setCtx x k).time = s.time := rfl
@[simp] theorem State.setCtx_boot (s : State) (x : Nat) (k : Ctx) : (s.setCtx x k).boot = s.boot := rfl
@[simp] theorem State.setCtx_sb (s : State) (x : Nat) (k : Ctx) : (s.setCtx x k).sb = s.sb := rfl
@[simp] theorem State.setCtx_flash (s : State) (x : Nat) (k : Ctx) : (s.setCtx x k).flash = s.flash := rfl
@[simp] theorem State.setCtx_regs (s : State) (x : Nat) (k : Ctx) : (s.setCtx x k).regs = s.regs := rfl
@[simp] theorem State.setCtx_mem (s : State) (x : Nat) (k : Ctx) : (s.setCtx x k).mem = s.mem := rfl
@[simp] theorem State.setCtx_poison (s : State) (x : Nat) (k : Ctx) : (s.setCtx x k).poison = s.poison := rfl
@[simp] theorem State.setCtx_gov (s : State) (x : Nat) (k : Ctx) : (s.setCtx x k).gov = s.gov := rfl
@[simp] theorem State.setCtx_plt (s : State) (x : Nat) (k : Ctx) : (s.setCtx x k).plt = s.plt := rfl
@[simp] theorem State.setCtx_cores (s : State) (x : Nat) (k : Ctx) : (s.setCtx x k).cores = s.cores := rfl
@[simp] theorem State.setCtx_syn (s : State) (x : Nat) (k : Ctx) : (s.setCtx x k).syn = s.syn := rfl
@[simp] theorem State.setCtx_sch (s : State) (x : Nat) (k : Ctx) : (s.setCtx x k).sch = s.sch := rfl
@[simp] theorem State.setCtx_lnk (s : State) (x : Nat) (k : Ctx) : (s.setCtx x k).lnk = s.lnk := rfl
@[simp] theorem State.setCtx_ras (s : State) (x : Nat) (k : Ctx) : (s.setCtx x k).ras = s.ras := rfl
@[simp] theorem State.setCtx_mon (s : State) (x : Nat) (k : Ctx) : (s.setCtx x k).mon = s.mon := rfl
@[simp] theorem State.setCtx_trc (s : State) (x : Nat) (k : Ctx) : (s.setCtx x k).trc = s.trc := rfl
@[simp] theorem State.setCtx_sketch (s : State) (x : Nat) (k : Ctx) : (s.setCtx x k).sketch = s.sketch := rfl
@[simp] theorem State.setCtx_freeIdx (s : State) (x : Nat) (k : Ctx) : (s.setCtx x k).freeIdx = s.freeIdx := rfl
@[simp] theorem State.setCtx_pending (s : State) (x : Nat) (k : Ctx) : (s.setCtx x k).pending = s.pending := rfl

@[simp] theorem State.setQslot_time (s : State) (k : Nat) (x : QSlot) : (s.setQslot k x).time = s.time := rfl
@[simp] theorem State.setQslot_boot (s : State) (k : Nat) (x : QSlot) : (s.setQslot k x).boot = s.boot := rfl
@[simp] theorem State.setQslot_sb (s : State) (k : Nat) (x : QSlot) : (s.setQslot k x).sb = s.sb := rfl
@[simp] theorem State.setQslot_flash (s : State) (k : Nat) (x : QSlot) : (s.setQslot k x).flash = s.flash := rfl
@[simp] theorem State.setQslot_regs (s : State) (k : Nat) (x : QSlot) : (s.setQslot k x).regs = s.regs := rfl
@[simp] theorem State.setQslot_mem (s : State) (k : Nat) (x : QSlot) : (s.setQslot k x).mem = s.mem := rfl
@[simp] theorem State.setQslot_poison (s : State) (k : Nat) (x : QSlot) : (s.setQslot k x).poison = s.poison := rfl
@[simp] theorem State.setQslot_gov (s : State) (k : Nat) (x : QSlot) : (s.setQslot k x).gov = s.gov := rfl
@[simp] theorem State.setQslot_plt (s : State) (k : Nat) (x : QSlot) : (s.setQslot k x).plt = s.plt := rfl
@[simp] theorem State.setQslot_cores (s : State) (k : Nat) (x : QSlot) : (s.setQslot k x).cores = s.cores := rfl
@[simp] theorem State.setQslot_syn (s : State) (k : Nat) (x : QSlot) : (s.setQslot k x).syn = s.syn := rfl
@[simp] theorem State.setQslot_sch (s : State) (k : Nat) (x : QSlot) : (s.setQslot k x).sch = s.sch := rfl
@[simp] theorem State.setQslot_lnk (s : State) (k : Nat) (x : QSlot) : (s.setQslot k x).lnk = s.lnk := rfl
@[simp] theorem State.setQslot_ras (s : State) (k : Nat) (x : QSlot) : (s.setQslot k x).ras = s.ras := rfl
@[simp] theorem State.setQslot_mon (s : State) (k : Nat) (x : QSlot) : (s.setQslot k x).mon = s.mon := rfl
@[simp] theorem State.setQslot_trc (s : State) (k : Nat) (x : QSlot) : (s.setQslot k x).trc = s.trc := rfl
@[simp] theorem State.setQslot_sketch (s : State) (k : Nat) (x : QSlot) : (s.setQslot k x).sketch = s.sketch := rfl
@[simp] theorem State.setQslot_freeIdx (s : State) (k : Nat) (x : QSlot) : (s.setQslot k x).freeIdx = s.freeIdx := rfl
@[simp] theorem State.setQslot_pending (s : State) (k : Nat) (x : QSlot) : (s.setQslot k x).pending = s.pending := rfl

@[simp] theorem State.setPort_time (s : State) (g : Nat) (p : Port) : (s.setPort g p).time = s.time := rfl
@[simp] theorem State.setPort_boot (s : State) (g : Nat) (p : Port) : (s.setPort g p).boot = s.boot := rfl
@[simp] theorem State.setPort_sb (s : State) (g : Nat) (p : Port) : (s.setPort g p).sb = s.sb := rfl
@[simp] theorem State.setPort_flash (s : State) (g : Nat) (p : Port) : (s.setPort g p).flash = s.flash := rfl
@[simp] theorem State.setPort_regs (s : State) (g : Nat) (p : Port) : (s.setPort g p).regs = s.regs := rfl
@[simp] theorem State.setPort_mem (s : State) (g : Nat) (p : Port) : (s.setPort g p).mem = s.mem := rfl
@[simp] theorem State.setPort_poison (s : State) (g : Nat) (p : Port) : (s.setPort g p).poison = s.poison := rfl
@[simp] theorem State.setPort_gov (s : State) (g : Nat) (p : Port) : (s.setPort g p).gov = s.gov := rfl
@[simp] theorem State.setPort_plt (s : State) (g : Nat) (p : Port) : (s.setPort g p).plt = s.plt := rfl
@[simp] theorem State.setPort_cores (s : State) (g : Nat) (p : Port) : (s.setPort g p).cores = s.cores := rfl
@[simp] theorem State.setPort_syn (s : State) (g : Nat) (p : Port) : (s.setPort g p).syn = s.syn := rfl
@[simp] theorem State.setPort_hq (s : State) (g : Nat) (p : Port) : (s.setPort g p).hq = s.hq := rfl
@[simp] theorem State.setPort_sch (s : State) (g : Nat) (p : Port) : (s.setPort g p).sch = s.sch := rfl
@[simp] theorem State.setPort_ras (s : State) (g : Nat) (p : Port) : (s.setPort g p).ras = s.ras := rfl
@[simp] theorem State.setPort_mon (s : State) (g : Nat) (p : Port) : (s.setPort g p).mon = s.mon := rfl
@[simp] theorem State.setPort_trc (s : State) (g : Nat) (p : Port) : (s.setPort g p).trc = s.trc := rfl
@[simp] theorem State.setPort_sketch (s : State) (g : Nat) (p : Port) : (s.setPort g p).sketch = s.sketch := rfl
@[simp] theorem State.setPort_freeIdx (s : State) (g : Nat) (p : Port) : (s.setPort g p).freeIdx = s.freeIdx := rfl
@[simp] theorem State.setPort_pending (s : State) (g : Nat) (p : Port) : (s.setPort g p).pending = s.pending := rfl

@[simp] theorem State.setFnS_time (s : State) (f : Nat) (x : FnSched) : (s.setFnS f x).time = s.time := rfl
@[simp] theorem State.setFnS_boot (s : State) (f : Nat) (x : FnSched) : (s.setFnS f x).boot = s.boot := rfl
@[simp] theorem State.setFnS_sb (s : State) (f : Nat) (x : FnSched) : (s.setFnS f x).sb = s.sb := rfl
@[simp] theorem State.setFnS_flash (s : State) (f : Nat) (x : FnSched) : (s.setFnS f x).flash = s.flash := rfl
@[simp] theorem State.setFnS_regs (s : State) (f : Nat) (x : FnSched) : (s.setFnS f x).regs = s.regs := rfl
@[simp] theorem State.setFnS_mem (s : State) (f : Nat) (x : FnSched) : (s.setFnS f x).mem = s.mem := rfl
@[simp] theorem State.setFnS_poison (s : State) (f : Nat) (x : FnSched) : (s.setFnS f x).poison = s.poison := rfl
@[simp] theorem State.setFnS_gov (s : State) (f : Nat) (x : FnSched) : (s.setFnS f x).gov = s.gov := rfl
@[simp] theorem State.setFnS_plt (s : State) (f : Nat) (x : FnSched) : (s.setFnS f x).plt = s.plt := rfl
@[simp] theorem State.setFnS_cores (s : State) (f : Nat) (x : FnSched) : (s.setFnS f x).cores = s.cores := rfl
@[simp] theorem State.setFnS_syn (s : State) (f : Nat) (x : FnSched) : (s.setFnS f x).syn = s.syn := rfl
@[simp] theorem State.setFnS_hq (s : State) (f : Nat) (x : FnSched) : (s.setFnS f x).hq = s.hq := rfl
@[simp] theorem State.setFnS_lnk (s : State) (f : Nat) (x : FnSched) : (s.setFnS f x).lnk = s.lnk := rfl
@[simp] theorem State.setFnS_ras (s : State) (f : Nat) (x : FnSched) : (s.setFnS f x).ras = s.ras := rfl
@[simp] theorem State.setFnS_mon (s : State) (f : Nat) (x : FnSched) : (s.setFnS f x).mon = s.mon := rfl
@[simp] theorem State.setFnS_trc (s : State) (f : Nat) (x : FnSched) : (s.setFnS f x).trc = s.trc := rfl
@[simp] theorem State.setFnS_sketch (s : State) (f : Nat) (x : FnSched) : (s.setFnS f x).sketch = s.sketch := rfl
@[simp] theorem State.setFnS_freeIdx (s : State) (f : Nat) (x : FnSched) : (s.setFnS f x).freeIdx = s.freeIdx := rfl
@[simp] theorem State.setFnS_pending (s : State) (f : Nat) (x : FnSched) : (s.setFnS f x).pending = s.pending := rfl

@[simp] theorem State.setPartS_time (s : State) (p : Nat) (x : PartSched) : (s.setPartS p x).time = s.time := rfl
@[simp] theorem State.setPartS_boot (s : State) (p : Nat) (x : PartSched) : (s.setPartS p x).boot = s.boot := rfl
@[simp] theorem State.setPartS_sb (s : State) (p : Nat) (x : PartSched) : (s.setPartS p x).sb = s.sb := rfl
@[simp] theorem State.setPartS_flash (s : State) (p : Nat) (x : PartSched) : (s.setPartS p x).flash = s.flash := rfl
@[simp] theorem State.setPartS_regs (s : State) (p : Nat) (x : PartSched) : (s.setPartS p x).regs = s.regs := rfl
@[simp] theorem State.setPartS_mem (s : State) (p : Nat) (x : PartSched) : (s.setPartS p x).mem = s.mem := rfl
@[simp] theorem State.setPartS_poison (s : State) (p : Nat) (x : PartSched) : (s.setPartS p x).poison = s.poison := rfl
@[simp] theorem State.setPartS_gov (s : State) (p : Nat) (x : PartSched) : (s.setPartS p x).gov = s.gov := rfl
@[simp] theorem State.setPartS_plt (s : State) (p : Nat) (x : PartSched) : (s.setPartS p x).plt = s.plt := rfl
@[simp] theorem State.setPartS_cores (s : State) (p : Nat) (x : PartSched) : (s.setPartS p x).cores = s.cores := rfl
@[simp] theorem State.setPartS_syn (s : State) (p : Nat) (x : PartSched) : (s.setPartS p x).syn = s.syn := rfl
@[simp] theorem State.setPartS_hq (s : State) (p : Nat) (x : PartSched) : (s.setPartS p x).hq = s.hq := rfl
@[simp] theorem State.setPartS_lnk (s : State) (p : Nat) (x : PartSched) : (s.setPartS p x).lnk = s.lnk := rfl
@[simp] theorem State.setPartS_ras (s : State) (p : Nat) (x : PartSched) : (s.setPartS p x).ras = s.ras := rfl
@[simp] theorem State.setPartS_mon (s : State) (p : Nat) (x : PartSched) : (s.setPartS p x).mon = s.mon := rfl
@[simp] theorem State.setPartS_trc (s : State) (p : Nat) (x : PartSched) : (s.setPartS p x).trc = s.trc := rfl
@[simp] theorem State.setPartS_sketch (s : State) (p : Nat) (x : PartSched) : (s.setPartS p x).sketch = s.sketch := rfl
@[simp] theorem State.setPartS_freeIdx (s : State) (p : Nat) (x : PartSched) : (s.setPartS p x).freeIdx = s.freeIdx := rfl
@[simp] theorem State.setPartS_pending (s : State) (p : Nat) (x : PartSched) : (s.setPartS p x).pending = s.pending := rfl

@[simp] theorem State.setAcct_time (s : State) (p : Nat) (x : PartAcct) : (s.setAcct p x).time = s.time := rfl
@[simp] theorem State.setAcct_boot (s : State) (p : Nat) (x : PartAcct) : (s.setAcct p x).boot = s.boot := rfl
@[simp] theorem State.setAcct_sb (s : State) (p : Nat) (x : PartAcct) : (s.setAcct p x).sb = s.sb := rfl
@[simp] theorem State.setAcct_flash (s : State) (p : Nat) (x : PartAcct) : (s.setAcct p x).flash = s.flash := rfl
@[simp] theorem State.setAcct_regs (s : State) (p : Nat) (x : PartAcct) : (s.setAcct p x).regs = s.regs := rfl
@[simp] theorem State.setAcct_mem (s : State) (p : Nat) (x : PartAcct) : (s.setAcct p x).mem = s.mem := rfl
@[simp] theorem State.setAcct_poison (s : State) (p : Nat) (x : PartAcct) : (s.setAcct p x).poison = s.poison := rfl
@[simp] theorem State.setAcct_plt (s : State) (p : Nat) (x : PartAcct) : (s.setAcct p x).plt = s.plt := rfl
@[simp] theorem State.setAcct_cores (s : State) (p : Nat) (x : PartAcct) : (s.setAcct p x).cores = s.cores := rfl
@[simp] theorem State.setAcct_syn (s : State) (p : Nat) (x : PartAcct) : (s.setAcct p x).syn = s.syn := rfl
@[simp] theorem State.setAcct_hq (s : State) (p : Nat) (x : PartAcct) : (s.setAcct p x).hq = s.hq := rfl
@[simp] theorem State.setAcct_sch (s : State) (p : Nat) (x : PartAcct) : (s.setAcct p x).sch = s.sch := rfl
@[simp] theorem State.setAcct_lnk (s : State) (p : Nat) (x : PartAcct) : (s.setAcct p x).lnk = s.lnk := rfl
@[simp] theorem State.setAcct_ras (s : State) (p : Nat) (x : PartAcct) : (s.setAcct p x).ras = s.ras := rfl
@[simp] theorem State.setAcct_mon (s : State) (p : Nat) (x : PartAcct) : (s.setAcct p x).mon = s.mon := rfl
@[simp] theorem State.setAcct_trc (s : State) (p : Nat) (x : PartAcct) : (s.setAcct p x).trc = s.trc := rfl
@[simp] theorem State.setAcct_sketch (s : State) (p : Nat) (x : PartAcct) : (s.setAcct p x).sketch = s.sketch := rfl
@[simp] theorem State.setAcct_freeIdx (s : State) (p : Nat) (x : PartAcct) : (s.setAcct p x).freeIdx = s.freeIdx := rfl
@[simp] theorem State.setAcct_pending (s : State) (p : Nat) (x : PartAcct) : (s.setAcct p x).pending = s.pending := rfl

@[simp] theorem State.setConj_time (s : State) (x c : Nat) (v : Conj) : (s.setConj x c v).time = s.time := rfl
@[simp] theorem State.setConj_boot (s : State) (x c : Nat) (v : Conj) : (s.setConj x c v).boot = s.boot := rfl
@[simp] theorem State.setConj_sb (s : State) (x c : Nat) (v : Conj) : (s.setConj x c v).sb = s.sb := rfl
@[simp] theorem State.setConj_flash (s : State) (x c : Nat) (v : Conj) : (s.setConj x c v).flash = s.flash := rfl
@[simp] theorem State.setConj_regs (s : State) (x c : Nat) (v : Conj) : (s.setConj x c v).regs = s.regs := rfl
@[simp] theorem State.setConj_mem (s : State) (x c : Nat) (v : Conj) : (s.setConj x c v).mem = s.mem := rfl
@[simp] theorem State.setConj_poison (s : State) (x c : Nat) (v : Conj) : (s.setConj x c v).poison = s.poison := rfl
@[simp] theorem State.setConj_gov (s : State) (x c : Nat) (v : Conj) : (s.setConj x c v).gov = s.gov := rfl
@[simp] theorem State.setConj_plt (s : State) (x c : Nat) (v : Conj) : (s.setConj x c v).plt = s.plt := rfl
@[simp] theorem State.setConj_cores (s : State) (x c : Nat) (v : Conj) : (s.setConj x c v).cores = s.cores := rfl
@[simp] theorem State.setConj_hq (s : State) (x c : Nat) (v : Conj) : (s.setConj x c v).hq = s.hq := rfl
@[simp] theorem State.setConj_sch (s : State) (x c : Nat) (v : Conj) : (s.setConj x c v).sch = s.sch := rfl
@[simp] theorem State.setConj_lnk (s : State) (x c : Nat) (v : Conj) : (s.setConj x c v).lnk = s.lnk := rfl
@[simp] theorem State.setConj_ras (s : State) (x c : Nat) (v : Conj) : (s.setConj x c v).ras = s.ras := rfl
@[simp] theorem State.setConj_mon (s : State) (x c : Nat) (v : Conj) : (s.setConj x c v).mon = s.mon := rfl
@[simp] theorem State.setConj_trc (s : State) (x c : Nat) (v : Conj) : (s.setConj x c v).trc = s.trc := rfl
@[simp] theorem State.setConj_sketch (s : State) (x c : Nat) (v : Conj) : (s.setConj x c v).sketch = s.sketch := rfl
@[simp] theorem State.setConj_freeIdx (s : State) (x c : Nat) (v : Conj) : (s.setConj x c v).freeIdx = s.freeIdx := rfl
@[simp] theorem State.setConj_pending (s : State) (x c : Nat) (v : Conj) : (s.setConj x c v).pending = s.pending := rfl

@[simp] theorem State.setWire_time (s : State) (w : Nat) (v : Wire) : (s.setWire w v).time = s.time := rfl
@[simp] theorem State.setWire_boot (s : State) (w : Nat) (v : Wire) : (s.setWire w v).boot = s.boot := rfl
@[simp] theorem State.setWire_sb (s : State) (w : Nat) (v : Wire) : (s.setWire w v).sb = s.sb := rfl
@[simp] theorem State.setWire_flash (s : State) (w : Nat) (v : Wire) : (s.setWire w v).flash = s.flash := rfl
@[simp] theorem State.setWire_regs (s : State) (w : Nat) (v : Wire) : (s.setWire w v).regs = s.regs := rfl
@[simp] theorem State.setWire_mem (s : State) (w : Nat) (v : Wire) : (s.setWire w v).mem = s.mem := rfl
@[simp] theorem State.setWire_poison (s : State) (w : Nat) (v : Wire) : (s.setWire w v).poison = s.poison := rfl
@[simp] theorem State.setWire_gov (s : State) (w : Nat) (v : Wire) : (s.setWire w v).gov = s.gov := rfl
@[simp] theorem State.setWire_plt (s : State) (w : Nat) (v : Wire) : (s.setWire w v).plt = s.plt := rfl
@[simp] theorem State.setWire_cores (s : State) (w : Nat) (v : Wire) : (s.setWire w v).cores = s.cores := rfl
@[simp] theorem State.setWire_hq (s : State) (w : Nat) (v : Wire) : (s.setWire w v).hq = s.hq := rfl
@[simp] theorem State.setWire_sch (s : State) (w : Nat) (v : Wire) : (s.setWire w v).sch = s.sch := rfl
@[simp] theorem State.setWire_lnk (s : State) (w : Nat) (v : Wire) : (s.setWire w v).lnk = s.lnk := rfl
@[simp] theorem State.setWire_ras (s : State) (w : Nat) (v : Wire) : (s.setWire w v).ras = s.ras := rfl
@[simp] theorem State.setWire_mon (s : State) (w : Nat) (v : Wire) : (s.setWire w v).mon = s.mon := rfl
@[simp] theorem State.setWire_trc (s : State) (w : Nat) (v : Wire) : (s.setWire w v).trc = s.trc := rfl
@[simp] theorem State.setWire_sketch (s : State) (w : Nat) (v : Wire) : (s.setWire w v).sketch = s.sketch := rfl
@[simp] theorem State.setWire_freeIdx (s : State) (w : Nat) (v : Wire) : (s.setWire w v).freeIdx = s.freeIdx := rfl
@[simp] theorem State.setWire_pending (s : State) (w : Nat) (v : Wire) : (s.setWire w v).pending = s.pending := rfl

@[simp] theorem State.setGroup_time (s : State) (x g : Nat) (v : Group) : (s.setGroup x g v).time = s.time := rfl
@[simp] theorem State.setGroup_boot (s : State) (x g : Nat) (v : Group) : (s.setGroup x g v).boot = s.boot := rfl
@[simp] theorem State.setGroup_sb (s : State) (x g : Nat) (v : Group) : (s.setGroup x g v).sb = s.sb := rfl
@[simp] theorem State.setGroup_flash (s : State) (x g : Nat) (v : Group) : (s.setGroup x g v).flash = s.flash := rfl
@[simp] theorem State.setGroup_regs (s : State) (x g : Nat) (v : Group) : (s.setGroup x g v).regs = s.regs := rfl
@[simp] theorem State.setGroup_mem (s : State) (x g : Nat) (v : Group) : (s.setGroup x g v).mem = s.mem := rfl
@[simp] theorem State.setGroup_poison (s : State) (x g : Nat) (v : Group) : (s.setGroup x g v).poison = s.poison := rfl
@[simp] theorem State.setGroup_gov (s : State) (x g : Nat) (v : Group) : (s.setGroup x g v).gov = s.gov := rfl
@[simp] theorem State.setGroup_plt (s : State) (x g : Nat) (v : Group) : (s.setGroup x g v).plt = s.plt := rfl
@[simp] theorem State.setGroup_cores (s : State) (x g : Nat) (v : Group) : (s.setGroup x g v).cores = s.cores := rfl
@[simp] theorem State.setGroup_hq (s : State) (x g : Nat) (v : Group) : (s.setGroup x g v).hq = s.hq := rfl
@[simp] theorem State.setGroup_sch (s : State) (x g : Nat) (v : Group) : (s.setGroup x g v).sch = s.sch := rfl
@[simp] theorem State.setGroup_lnk (s : State) (x g : Nat) (v : Group) : (s.setGroup x g v).lnk = s.lnk := rfl
@[simp] theorem State.setGroup_ras (s : State) (x g : Nat) (v : Group) : (s.setGroup x g v).ras = s.ras := rfl
@[simp] theorem State.setGroup_mon (s : State) (x g : Nat) (v : Group) : (s.setGroup x g v).mon = s.mon := rfl
@[simp] theorem State.setGroup_trc (s : State) (x g : Nat) (v : Group) : (s.setGroup x g v).trc = s.trc := rfl
@[simp] theorem State.setGroup_sketch (s : State) (x g : Nat) (v : Group) : (s.setGroup x g v).sketch = s.sketch := rfl
@[simp] theorem State.setGroup_freeIdx (s : State) (x g : Nat) (v : Group) : (s.setGroup x g v).freeIdx = s.freeIdx := rfl
@[simp] theorem State.setGroup_pending (s : State) (x g : Nat) (v : Group) : (s.setGroup x g v).pending = s.pending := rfl

@[simp] theorem State.setFlt_time (s : State) (f : Nat) (l : FltLog) : (s.setFlt f l).time = s.time := rfl
@[simp] theorem State.setFlt_boot (s : State) (f : Nat) (l : FltLog) : (s.setFlt f l).boot = s.boot := rfl
@[simp] theorem State.setFlt_sb (s : State) (f : Nat) (l : FltLog) : (s.setFlt f l).sb = s.sb := rfl
@[simp] theorem State.setFlt_flash (s : State) (f : Nat) (l : FltLog) : (s.setFlt f l).flash = s.flash := rfl
@[simp] theorem State.setFlt_regs (s : State) (f : Nat) (l : FltLog) : (s.setFlt f l).regs = s.regs := rfl
@[simp] theorem State.setFlt_mem (s : State) (f : Nat) (l : FltLog) : (s.setFlt f l).mem = s.mem := rfl
@[simp] theorem State.setFlt_poison (s : State) (f : Nat) (l : FltLog) : (s.setFlt f l).poison = s.poison := rfl
@[simp] theorem State.setFlt_gov (s : State) (f : Nat) (l : FltLog) : (s.setFlt f l).gov = s.gov := rfl
@[simp] theorem State.setFlt_plt (s : State) (f : Nat) (l : FltLog) : (s.setFlt f l).plt = s.plt := rfl
@[simp] theorem State.setFlt_cores (s : State) (f : Nat) (l : FltLog) : (s.setFlt f l).cores = s.cores := rfl
@[simp] theorem State.setFlt_syn (s : State) (f : Nat) (l : FltLog) : (s.setFlt f l).syn = s.syn := rfl
@[simp] theorem State.setFlt_hq (s : State) (f : Nat) (l : FltLog) : (s.setFlt f l).hq = s.hq := rfl
@[simp] theorem State.setFlt_sch (s : State) (f : Nat) (l : FltLog) : (s.setFlt f l).sch = s.sch := rfl
@[simp] theorem State.setFlt_lnk (s : State) (f : Nat) (l : FltLog) : (s.setFlt f l).lnk = s.lnk := rfl
@[simp] theorem State.setFlt_mon (s : State) (f : Nat) (l : FltLog) : (s.setFlt f l).mon = s.mon := rfl
@[simp] theorem State.setFlt_trc (s : State) (f : Nat) (l : FltLog) : (s.setFlt f l).trc = s.trc := rfl
@[simp] theorem State.setFlt_sketch (s : State) (f : Nat) (l : FltLog) : (s.setFlt f l).sketch = s.sketch := rfl
@[simp] theorem State.setFlt_freeIdx (s : State) (f : Nat) (l : FltLog) : (s.setFlt f l).freeIdx = s.freeIdx := rfl
@[simp] theorem State.setFlt_pending (s : State) (f : Nat) (l : FltLog) : (s.setFlt f l).pending = s.pending := rfl

@[simp] theorem State.setSk_time (s : State) (k : Nat) (x : Sketch) : (s.setSk k x).time = s.time := rfl
@[simp] theorem State.setSk_boot (s : State) (k : Nat) (x : Sketch) : (s.setSk k x).boot = s.boot := rfl
@[simp] theorem State.setSk_sb (s : State) (k : Nat) (x : Sketch) : (s.setSk k x).sb = s.sb := rfl
@[simp] theorem State.setSk_flash (s : State) (k : Nat) (x : Sketch) : (s.setSk k x).flash = s.flash := rfl
@[simp] theorem State.setSk_regs (s : State) (k : Nat) (x : Sketch) : (s.setSk k x).regs = s.regs := rfl
@[simp] theorem State.setSk_mem (s : State) (k : Nat) (x : Sketch) : (s.setSk k x).mem = s.mem := rfl
@[simp] theorem State.setSk_poison (s : State) (k : Nat) (x : Sketch) : (s.setSk k x).poison = s.poison := rfl
@[simp] theorem State.setSk_gov (s : State) (k : Nat) (x : Sketch) : (s.setSk k x).gov = s.gov := rfl
@[simp] theorem State.setSk_plt (s : State) (k : Nat) (x : Sketch) : (s.setSk k x).plt = s.plt := rfl
@[simp] theorem State.setSk_cores (s : State) (k : Nat) (x : Sketch) : (s.setSk k x).cores = s.cores := rfl
@[simp] theorem State.setSk_syn (s : State) (k : Nat) (x : Sketch) : (s.setSk k x).syn = s.syn := rfl
@[simp] theorem State.setSk_hq (s : State) (k : Nat) (x : Sketch) : (s.setSk k x).hq = s.hq := rfl
@[simp] theorem State.setSk_sch (s : State) (k : Nat) (x : Sketch) : (s.setSk k x).sch = s.sch := rfl
@[simp] theorem State.setSk_lnk (s : State) (k : Nat) (x : Sketch) : (s.setSk k x).lnk = s.lnk := rfl
@[simp] theorem State.setSk_ras (s : State) (k : Nat) (x : Sketch) : (s.setSk k x).ras = s.ras := rfl
@[simp] theorem State.setSk_mon (s : State) (k : Nat) (x : Sketch) : (s.setSk k x).mon = s.mon := rfl
@[simp] theorem State.setSk_trc (s : State) (k : Nat) (x : Sketch) : (s.setSk k x).trc = s.trc := rfl
@[simp] theorem State.setSk_freeIdx (s : State) (k : Nat) (x : Sketch) : (s.setSk k x).freeIdx = s.freeIdx := rfl
@[simp] theorem State.setSk_pending (s : State) (k : Nat) (x : Sketch) : (s.setSk k x).pending = s.pending := rfl

@[simp] theorem wr_time (s : State) (a : Nat) (v : W32) : (wr s a v).time = s.time := rfl
@[simp] theorem wr_boot (s : State) (a : Nat) (v : W32) : (wr s a v).boot = s.boot := rfl
@[simp] theorem wr_sb (s : State) (a : Nat) (v : W32) : (wr s a v).sb = s.sb := rfl
@[simp] theorem wr_flash (s : State) (a : Nat) (v : W32) : (wr s a v).flash = s.flash := rfl
@[simp] theorem wr_mem (s : State) (a : Nat) (v : W32) : (wr s a v).mem = s.mem := rfl
@[simp] theorem wr_poison (s : State) (a : Nat) (v : W32) : (wr s a v).poison = s.poison := rfl
@[simp] theorem wr_gov (s : State) (a : Nat) (v : W32) : (wr s a v).gov = s.gov := rfl
@[simp] theorem wr_plt (s : State) (a : Nat) (v : W32) : (wr s a v).plt = s.plt := rfl
@[simp] theorem wr_cores (s : State) (a : Nat) (v : W32) : (wr s a v).cores = s.cores := rfl
@[simp] theorem wr_syn (s : State) (a : Nat) (v : W32) : (wr s a v).syn = s.syn := rfl
@[simp] theorem wr_hq (s : State) (a : Nat) (v : W32) : (wr s a v).hq = s.hq := rfl
@[simp] theorem wr_sch (s : State) (a : Nat) (v : W32) : (wr s a v).sch = s.sch := rfl
@[simp] theorem wr_lnk (s : State) (a : Nat) (v : W32) : (wr s a v).lnk = s.lnk := rfl
@[simp] theorem wr_ras (s : State) (a : Nat) (v : W32) : (wr s a v).ras = s.ras := rfl
@[simp] theorem wr_mon (s : State) (a : Nat) (v : W32) : (wr s a v).mon = s.mon := rfl
@[simp] theorem wr_trc (s : State) (a : Nat) (v : W32) : (wr s a v).trc = s.trc := rfl
@[simp] theorem wr_sketch (s : State) (a : Nat) (v : W32) : (wr s a v).sketch = s.sketch := rfl
@[simp] theorem wr_freeIdx (s : State) (a : Nat) (v : W32) : (wr s a v).freeIdx = s.freeIdx := rfl
@[simp] theorem wr_pending (s : State) (a : Nat) (v : W32) : (wr s a v).pending = s.pending := rfl

@[simp] theorem wrF_time (s : State) (a lo len v : Nat) : (wrF s a lo len v).time = s.time := rfl
@[simp] theorem wrF_boot (s : State) (a lo len v : Nat) : (wrF s a lo len v).boot = s.boot := rfl
@[simp] theorem wrF_sb (s : State) (a lo len v : Nat) : (wrF s a lo len v).sb = s.sb := rfl
@[simp] theorem wrF_flash (s : State) (a lo len v : Nat) : (wrF s a lo len v).flash = s.flash := rfl
@[simp] theorem wrF_mem (s : State) (a lo len v : Nat) : (wrF s a lo len v).mem = s.mem := rfl
@[simp] theorem wrF_poison (s : State) (a lo len v : Nat) : (wrF s a lo len v).poison = s.poison := rfl
@[simp] theorem wrF_gov (s : State) (a lo len v : Nat) : (wrF s a lo len v).gov = s.gov := rfl
@[simp] theorem wrF_plt (s : State) (a lo len v : Nat) : (wrF s a lo len v).plt = s.plt := rfl
@[simp] theorem wrF_cores (s : State) (a lo len v : Nat) : (wrF s a lo len v).cores = s.cores := rfl
@[simp] theorem wrF_syn (s : State) (a lo len v : Nat) : (wrF s a lo len v).syn = s.syn := rfl
@[simp] theorem wrF_hq (s : State) (a lo len v : Nat) : (wrF s a lo len v).hq = s.hq := rfl
@[simp] theorem wrF_sch (s : State) (a lo len v : Nat) : (wrF s a lo len v).sch = s.sch := rfl
@[simp] theorem wrF_lnk (s : State) (a lo len v : Nat) : (wrF s a lo len v).lnk = s.lnk := rfl
@[simp] theorem wrF_ras (s : State) (a lo len v : Nat) : (wrF s a lo len v).ras = s.ras := rfl
@[simp] theorem wrF_mon (s : State) (a lo len v : Nat) : (wrF s a lo len v).mon = s.mon := rfl
@[simp] theorem wrF_trc (s : State) (a lo len v : Nat) : (wrF s a lo len v).trc = s.trc := rfl
@[simp] theorem wrF_sketch (s : State) (a lo len v : Nat) : (wrF s a lo len v).sketch = s.sketch := rfl
@[simp] theorem wrF_freeIdx (s : State) (a lo len v : Nat) : (wrF s a lo len v).freeIdx = s.freeIdx := rfl
@[simp] theorem wrF_pending (s : State) (a lo len v : Nat) : (wrF s a lo len v).pending = s.pending := rfl

@[simp] theorem incF_time (s : State) (a lo len n : Nat) : (incF s a lo len n).time = s.time := rfl
@[simp] theorem incF_boot (s : State) (a lo len n : Nat) : (incF s a lo len n).boot = s.boot := rfl
@[simp] theorem incF_sb (s : State) (a lo len n : Nat) : (incF s a lo len n).sb = s.sb := rfl
@[simp] theorem incF_flash (s : State) (a lo len n : Nat) : (incF s a lo len n).flash = s.flash := rfl
@[simp] theorem incF_mem (s : State) (a lo len n : Nat) : (incF s a lo len n).mem = s.mem := rfl
@[simp] theorem incF_poison (s : State) (a lo len n : Nat) : (incF s a lo len n).poison = s.poison := rfl
@[simp] theorem incF_gov (s : State) (a lo len n : Nat) : (incF s a lo len n).gov = s.gov := rfl
@[simp] theorem incF_plt (s : State) (a lo len n : Nat) : (incF s a lo len n).plt = s.plt := rfl
@[simp] theorem incF_cores (s : State) (a lo len n : Nat) : (incF s a lo len n).cores = s.cores := rfl
@[simp] theorem incF_syn (s : State) (a lo len n : Nat) : (incF s a lo len n).syn = s.syn := rfl
@[simp] theorem incF_hq (s : State) (a lo len n : Nat) : (incF s a lo len n).hq = s.hq := rfl
@[simp] theorem incF_sch (s : State) (a lo len n : Nat) : (incF s a lo len n).sch = s.sch := rfl
@[simp] theorem incF_lnk (s : State) (a lo len n : Nat) : (incF s a lo len n).lnk = s.lnk := rfl
@[simp] theorem incF_ras (s : State) (a lo len n : Nat) : (incF s a lo len n).ras = s.ras := rfl
@[simp] theorem incF_mon (s : State) (a lo len n : Nat) : (incF s a lo len n).mon = s.mon := rfl
@[simp] theorem incF_trc (s : State) (a lo len n : Nat) : (incF s a lo len n).trc = s.trc := rfl
@[simp] theorem incF_sketch (s : State) (a lo len n : Nat) : (incF s a lo len n).sketch = s.sketch := rfl
@[simp] theorem incF_freeIdx (s : State) (a lo len n : Nat) : (incF s a lo len n).freeIdx = s.freeIdx := rfl
@[simp] theorem incF_pending (s : State) (a lo len n : Nat) : (incF s a lo len n).pending = s.pending := rfl

@[simp] theorem inc16_time (s : State) (a : Nat) : (inc16 s a).time = s.time := rfl
@[simp] theorem inc16_boot (s : State) (a : Nat) : (inc16 s a).boot = s.boot := rfl
@[simp] theorem inc16_sb (s : State) (a : Nat) : (inc16 s a).sb = s.sb := rfl
@[simp] theorem inc16_flash (s : State) (a : Nat) : (inc16 s a).flash = s.flash := rfl
@[simp] theorem inc16_mem (s : State) (a : Nat) : (inc16 s a).mem = s.mem := rfl
@[simp] theorem inc16_poison (s : State) (a : Nat) : (inc16 s a).poison = s.poison := rfl
@[simp] theorem inc16_gov (s : State) (a : Nat) : (inc16 s a).gov = s.gov := rfl
@[simp] theorem inc16_plt (s : State) (a : Nat) : (inc16 s a).plt = s.plt := rfl
@[simp] theorem inc16_cores (s : State) (a : Nat) : (inc16 s a).cores = s.cores := rfl
@[simp] theorem inc16_syn (s : State) (a : Nat) : (inc16 s a).syn = s.syn := rfl
@[simp] theorem inc16_hq (s : State) (a : Nat) : (inc16 s a).hq = s.hq := rfl
@[simp] theorem inc16_sch (s : State) (a : Nat) : (inc16 s a).sch = s.sch := rfl
@[simp] theorem inc16_lnk (s : State) (a : Nat) : (inc16 s a).lnk = s.lnk := rfl
@[simp] theorem inc16_ras (s : State) (a : Nat) : (inc16 s a).ras = s.ras := rfl
@[simp] theorem inc16_mon (s : State) (a : Nat) : (inc16 s a).mon = s.mon := rfl
@[simp] theorem inc16_trc (s : State) (a : Nat) : (inc16 s a).trc = s.trc := rfl
@[simp] theorem inc16_sketch (s : State) (a : Nat) : (inc16 s a).sketch = s.sketch := rfl
@[simp] theorem inc16_freeIdx (s : State) (a : Nat) : (inc16 s a).freeIdx = s.freeIdx := rfl
@[simp] theorem inc16_pending (s : State) (a : Nat) : (inc16 s a).pending = s.pending := rfl

@[simp] theorem inc32_time (s : State) (a n : Nat) : (inc32 s a n).time = s.time := rfl
@[simp] theorem inc32_boot (s : State) (a n : Nat) : (inc32 s a n).boot = s.boot := rfl
@[simp] theorem inc32_sb (s : State) (a n : Nat) : (inc32 s a n).sb = s.sb := rfl
@[simp] theorem inc32_flash (s : State) (a n : Nat) : (inc32 s a n).flash = s.flash := rfl
@[simp] theorem inc32_mem (s : State) (a n : Nat) : (inc32 s a n).mem = s.mem := rfl
@[simp] theorem inc32_poison (s : State) (a n : Nat) : (inc32 s a n).poison = s.poison := rfl
@[simp] theorem inc32_gov (s : State) (a n : Nat) : (inc32 s a n).gov = s.gov := rfl
@[simp] theorem inc32_plt (s : State) (a n : Nat) : (inc32 s a n).plt = s.plt := rfl
@[simp] theorem inc32_cores (s : State) (a n : Nat) : (inc32 s a n).cores = s.cores := rfl
@[simp] theorem inc32_syn (s : State) (a n : Nat) : (inc32 s a n).syn = s.syn := rfl
@[simp] theorem inc32_hq (s : State) (a n : Nat) : (inc32 s a n).hq = s.hq := rfl
@[simp] theorem inc32_sch (s : State) (a n : Nat) : (inc32 s a n).sch = s.sch := rfl
@[simp] theorem inc32_lnk (s : State) (a n : Nat) : (inc32 s a n).lnk = s.lnk := rfl
@[simp] theorem inc32_ras (s : State) (a n : Nat) : (inc32 s a n).ras = s.ras := rfl
@[simp] theorem inc32_mon (s : State) (a n : Nat) : (inc32 s a n).mon = s.mon := rfl
@[simp] theorem inc32_trc (s : State) (a n : Nat) : (inc32 s a n).trc = s.trc := rfl
@[simp] theorem inc32_sketch (s : State) (a n : Nat) : (inc32 s a n).sketch = s.sketch := rfl
@[simp] theorem inc32_freeIdx (s : State) (a n : Nat) : (inc32 s a n).freeIdx = s.freeIdx := rfl
@[simp] theorem inc32_pending (s : State) (a n : Nat) : (inc32 s a n).pending = s.pending := rfl

@[simp] theorem clearRegs_time (s : State) (lo hi : Nat) : (clearRegs s lo hi).time = s.time := rfl
@[simp] theorem clearRegs_boot (s : State) (lo hi : Nat) : (clearRegs s lo hi).boot = s.boot := rfl
@[simp] theorem clearRegs_sb (s : State) (lo hi : Nat) : (clearRegs s lo hi).sb = s.sb := rfl
@[simp] theorem clearRegs_flash (s : State) (lo hi : Nat) : (clearRegs s lo hi).flash = s.flash := rfl
@[simp] theorem clearRegs_mem (s : State) (lo hi : Nat) : (clearRegs s lo hi).mem = s.mem := rfl
@[simp] theorem clearRegs_poison (s : State) (lo hi : Nat) : (clearRegs s lo hi).poison = s.poison := rfl
@[simp] theorem clearRegs_gov (s : State) (lo hi : Nat) : (clearRegs s lo hi).gov = s.gov := rfl
@[simp] theorem clearRegs_plt (s : State) (lo hi : Nat) : (clearRegs s lo hi).plt = s.plt := rfl
@[simp] theorem clearRegs_cores (s : State) (lo hi : Nat) : (clearRegs s lo hi).cores = s.cores := rfl
@[simp] theorem clearRegs_syn (s : State) (lo hi : Nat) : (clearRegs s lo hi).syn = s.syn := rfl
@[simp] theorem clearRegs_hq (s : State) (lo hi : Nat) : (clearRegs s lo hi).hq = s.hq := rfl
@[simp] theorem clearRegs_sch (s : State) (lo hi : Nat) : (clearRegs s lo hi).sch = s.sch := rfl
@[simp] theorem clearRegs_lnk (s : State) (lo hi : Nat) : (clearRegs s lo hi).lnk = s.lnk := rfl
@[simp] theorem clearRegs_ras (s : State) (lo hi : Nat) : (clearRegs s lo hi).ras = s.ras := rfl
@[simp] theorem clearRegs_mon (s : State) (lo hi : Nat) : (clearRegs s lo hi).mon = s.mon := rfl
@[simp] theorem clearRegs_trc (s : State) (lo hi : Nat) : (clearRegs s lo hi).trc = s.trc := rfl
@[simp] theorem clearRegs_sketch (s : State) (lo hi : Nat) : (clearRegs s lo hi).sketch = s.sketch := rfl
@[simp] theorem clearRegs_freeIdx (s : State) (lo hi : Nat) : (clearRegs s lo hi).freeIdx = s.freeIdx := rfl
@[simp] theorem clearRegs_pending (s : State) (lo hi : Nat) : (clearRegs s lo hi).pending = s.pending := rfl

@[simp] theorem memWrite_time (s : State) (a : Nat) (bs : List Byte) : (memWrite s a bs).time = s.time := rfl
@[simp] theorem memWrite_boot (s : State) (a : Nat) (bs : List Byte) : (memWrite s a bs).boot = s.boot := rfl
@[simp] theorem memWrite_sb (s : State) (a : Nat) (bs : List Byte) : (memWrite s a bs).sb = s.sb := rfl
@[simp] theorem memWrite_flash (s : State) (a : Nat) (bs : List Byte) : (memWrite s a bs).flash = s.flash := rfl
@[simp] theorem memWrite_regs (s : State) (a : Nat) (bs : List Byte) : (memWrite s a bs).regs = s.regs := rfl
@[simp] theorem memWrite_gov (s : State) (a : Nat) (bs : List Byte) : (memWrite s a bs).gov = s.gov := rfl
@[simp] theorem memWrite_plt (s : State) (a : Nat) (bs : List Byte) : (memWrite s a bs).plt = s.plt := rfl
@[simp] theorem memWrite_cores (s : State) (a : Nat) (bs : List Byte) : (memWrite s a bs).cores = s.cores := rfl
@[simp] theorem memWrite_syn (s : State) (a : Nat) (bs : List Byte) : (memWrite s a bs).syn = s.syn := rfl
@[simp] theorem memWrite_hq (s : State) (a : Nat) (bs : List Byte) : (memWrite s a bs).hq = s.hq := rfl
@[simp] theorem memWrite_sch (s : State) (a : Nat) (bs : List Byte) : (memWrite s a bs).sch = s.sch := rfl
@[simp] theorem memWrite_lnk (s : State) (a : Nat) (bs : List Byte) : (memWrite s a bs).lnk = s.lnk := rfl
@[simp] theorem memWrite_ras (s : State) (a : Nat) (bs : List Byte) : (memWrite s a bs).ras = s.ras := rfl
@[simp] theorem memWrite_mon (s : State) (a : Nat) (bs : List Byte) : (memWrite s a bs).mon = s.mon := rfl
@[simp] theorem memWrite_trc (s : State) (a : Nat) (bs : List Byte) : (memWrite s a bs).trc = s.trc := rfl
@[simp] theorem memWrite_sketch (s : State) (a : Nat) (bs : List Byte) : (memWrite s a bs).sketch = s.sketch := rfl
@[simp] theorem memWrite_freeIdx (s : State) (a : Nat) (bs : List Byte) : (memWrite s a bs).freeIdx = s.freeIdx := rfl
@[simp] theorem memWrite_pending (s : State) (a : Nat) (bs : List Byte) : (memWrite s a bs).pending = s.pending := rfl

@[simp] theorem poisonRange_time (s : State) (a n : Nat) : (poisonRange s a n).time = s.time := rfl
@[simp] theorem poisonRange_boot (s : State) (a n : Nat) : (poisonRange s a n).boot = s.boot := rfl
@[simp] theorem poisonRange_sb (s : State) (a n : Nat) : (poisonRange s a n).sb = s.sb := rfl
@[simp] theorem poisonRange_flash (s : State) (a n : Nat) : (poisonRange s a n).flash = s.flash := rfl
@[simp] theorem poisonRange_regs (s : State) (a n : Nat) : (poisonRange s a n).regs = s.regs := rfl
@[simp] theorem poisonRange_mem (s : State) (a n : Nat) : (poisonRange s a n).mem = s.mem := rfl
@[simp] theorem poisonRange_gov (s : State) (a n : Nat) : (poisonRange s a n).gov = s.gov := rfl
@[simp] theorem poisonRange_plt (s : State) (a n : Nat) : (poisonRange s a n).plt = s.plt := rfl
@[simp] theorem poisonRange_cores (s : State) (a n : Nat) : (poisonRange s a n).cores = s.cores := rfl
@[simp] theorem poisonRange_syn (s : State) (a n : Nat) : (poisonRange s a n).syn = s.syn := rfl
@[simp] theorem poisonRange_hq (s : State) (a n : Nat) : (poisonRange s a n).hq = s.hq := rfl
@[simp] theorem poisonRange_sch (s : State) (a n : Nat) : (poisonRange s a n).sch = s.sch := rfl
@[simp] theorem poisonRange_lnk (s : State) (a n : Nat) : (poisonRange s a n).lnk = s.lnk := rfl
@[simp] theorem poisonRange_ras (s : State) (a n : Nat) : (poisonRange s a n).ras = s.ras := rfl
@[simp] theorem poisonRange_mon (s : State) (a n : Nat) : (poisonRange s a n).mon = s.mon := rfl
@[simp] theorem poisonRange_trc (s : State) (a n : Nat) : (poisonRange s a n).trc = s.trc := rfl
@[simp] theorem poisonRange_sketch (s : State) (a n : Nat) : (poisonRange s a n).sketch = s.sketch := rfl
@[simp] theorem poisonRange_freeIdx (s : State) (a n : Nat) : (poisonRange s a n).freeIdx = s.freeIdx := rfl
@[simp] theorem poisonRange_pending (s : State) (a n : Nat) : (poisonRange s a n).pending = s.pending := rfl

@[simp] theorem State.setCore_rd (s : State) (c : Nat) (x : Core) (r : Nat) : rd (s.setCore c x) r = rd s r := rfl
@[simp] theorem State.setEng_rd (s : State) (c : Nat) (e : CE) (y : ClEng) (r : Nat) : rd (s.setEng c e y) r = rd s r := rfl
@[simp] theorem State.setTe_rd (s : State) (c : Nat) (t : Te) (r : Nat) : rd (s.setTe c t) r = rd s r := rfl
@[simp] theorem State.setPun_rd (s : State) (c p : Nat) (x : Punnet) (r : Nat) : rd (s.setPun c p x) r = rd s r := rfl
@[simp] theorem State.setQueue_rd (s : State) (f q : Nat) (x : Queue) (r : Nat) : rd (s.setQueue f q x) r = rd s r := rfl
@[simp] theorem State.setCtx_rd (s : State) (x : Nat) (k : Ctx) (r : Nat) : rd (s.setCtx x k) r = rd s r := rfl
@[simp] theorem State.setQslot_rd (s : State) (k : Nat) (x : QSlot) (r : Nat) : rd (s.setQslot k x) r = rd s r := rfl
@[simp] theorem State.setPort_rd (s : State) (g : Nat) (p : Port) (r : Nat) : rd (s.setPort g p) r = rd s r := rfl
@[simp] theorem State.setFnS_rd (s : State) (f : Nat) (x : FnSched) (r : Nat) : rd (s.setFnS f x) r = rd s r := rfl
@[simp] theorem State.setPartS_rd (s : State) (p : Nat) (x : PartSched) (r : Nat) : rd (s.setPartS p x) r = rd s r := rfl
@[simp] theorem State.setAcct_rd (s : State) (p : Nat) (x : PartAcct) (r : Nat) : rd (s.setAcct p x) r = rd s r := rfl
@[simp] theorem State.setConj_rd (s : State) (x c : Nat) (v : Conj) (r : Nat) : rd (s.setConj x c v) r = rd s r := rfl
@[simp] theorem State.setWire_rd (s : State) (w : Nat) (v : Wire) (r : Nat) : rd (s.setWire w v) r = rd s r := rfl
@[simp] theorem State.setGroup_rd (s : State) (x g : Nat) (v : Group) (r : Nat) : rd (s.setGroup x g v) r = rd s r := rfl
@[simp] theorem State.setFlt_rd (s : State) (f : Nat) (l : FltLog) (r : Nat) : rd (s.setFlt f l) r = rd s r := rfl
@[simp] theorem State.setSk_rd (s : State) (k : Nat) (x : Sketch) (r : Nat) : rd (s.setSk k x) r = rd s r := rfl
@[simp] theorem memWrite_rd (s : State) (a : Nat) (bs : List Byte) (r : Nat) : rd (memWrite s a bs) r = rd s r := rfl
@[simp] theorem poisonRange_rd (s : State) (a n : Nat) (r : Nat) : rd (poisonRange s a n) r = rd s r := rfl

@[simp] theorem State.setCore_queue (s : State) (c : Nat) (x : Core) (k j : Nat) : (s.setCore c x).queue k j = s.queue k j := rfl
@[simp] theorem State.setCore_ctx (s : State) (c : Nat) (x : Core) (k : Nat) : (s.setCore c x).ctx k = s.ctx k := rfl
@[simp] theorem State.setCore_qslot (s : State) (c : Nat) (x : Core) (k : Nat) : (s.setCore c x).qslot k = s.qslot k := rfl
@[simp] theorem State.setCore_port (s : State) (c : Nat) (x : Core) (k : Nat) : (s.setCore c x).port k = s.port k := rfl
@[simp] theorem State.setCore_fnS (s : State) (c : Nat) (x : Core) (k : Nat) : (s.setCore c x).fnS k = s.fnS k := rfl
@[simp] theorem State.setCore_partS (s : State) (c : Nat) (x : Core) (k : Nat) : (s.setCore c x).partS k = s.partS k := rfl
@[simp] theorem State.setCore_acct (s : State) (c : Nat) (x : Core) (k : Nat) : (s.setCore c x).acct k = s.acct k := rfl
@[simp] theorem State.setCore_conj (s : State) (c : Nat) (x : Core) (k j : Nat) : (s.setCore c x).conj k j = s.conj k j := rfl
@[simp] theorem State.setCore_wire (s : State) (c : Nat) (x : Core) (k : Nat) : (s.setCore c x).wire k = s.wire k := rfl
@[simp] theorem State.setCore_flt (s : State) (c : Nat) (x : Core) (k : Nat) : (s.setCore c x).flt k = s.flt k := rfl
@[simp] theorem State.setCore_sk (s : State) (c : Nat) (x : Core) (k : Nat) : (s.setCore c x).sk k = s.sk k := rfl

@[simp] theorem State.setEng_queue (s : State) (c : Nat) (e : CE) (y : ClEng) (k j : Nat) : (s.setEng c e y).queue k j = s.queue k j := rfl
@[simp] theorem State.setEng_ctx (s : State) (c : Nat) (e : CE) (y : ClEng) (k : Nat) : (s.setEng c e y).ctx k = s.ctx k := rfl
@[simp] theorem State.setEng_qslot (s : State) (c : Nat) (e : CE) (y : ClEng) (k : Nat) : (s.setEng c e y).qslot k = s.qslot k := rfl
@[simp] theorem State.setEng_port (s : State) (c : Nat) (e : CE) (y : ClEng) (k : Nat) : (s.setEng c e y).port k = s.port k := rfl
@[simp] theorem State.setEng_fnS (s : State) (c : Nat) (e : CE) (y : ClEng) (k : Nat) : (s.setEng c e y).fnS k = s.fnS k := rfl
@[simp] theorem State.setEng_partS (s : State) (c : Nat) (e : CE) (y : ClEng) (k : Nat) : (s.setEng c e y).partS k = s.partS k := rfl
@[simp] theorem State.setEng_acct (s : State) (c : Nat) (e : CE) (y : ClEng) (k : Nat) : (s.setEng c e y).acct k = s.acct k := rfl
@[simp] theorem State.setEng_conj (s : State) (c : Nat) (e : CE) (y : ClEng) (k j : Nat) : (s.setEng c e y).conj k j = s.conj k j := rfl
@[simp] theorem State.setEng_wire (s : State) (c : Nat) (e : CE) (y : ClEng) (k : Nat) : (s.setEng c e y).wire k = s.wire k := rfl
@[simp] theorem State.setEng_flt (s : State) (c : Nat) (e : CE) (y : ClEng) (k : Nat) : (s.setEng c e y).flt k = s.flt k := rfl
@[simp] theorem State.setEng_sk (s : State) (c : Nat) (e : CE) (y : ClEng) (k : Nat) : (s.setEng c e y).sk k = s.sk k := rfl

@[simp] theorem State.setTe_queue (s : State) (c : Nat) (t : Te) (k j : Nat) : (s.setTe c t).queue k j = s.queue k j := rfl
@[simp] theorem State.setTe_ctx (s : State) (c : Nat) (t : Te) (k : Nat) : (s.setTe c t).ctx k = s.ctx k := rfl
@[simp] theorem State.setTe_qslot (s : State) (c : Nat) (t : Te) (k : Nat) : (s.setTe c t).qslot k = s.qslot k := rfl
@[simp] theorem State.setTe_port (s : State) (c : Nat) (t : Te) (k : Nat) : (s.setTe c t).port k = s.port k := rfl
@[simp] theorem State.setTe_fnS (s : State) (c : Nat) (t : Te) (k : Nat) : (s.setTe c t).fnS k = s.fnS k := rfl
@[simp] theorem State.setTe_partS (s : State) (c : Nat) (t : Te) (k : Nat) : (s.setTe c t).partS k = s.partS k := rfl
@[simp] theorem State.setTe_acct (s : State) (c : Nat) (t : Te) (k : Nat) : (s.setTe c t).acct k = s.acct k := rfl
@[simp] theorem State.setTe_conj (s : State) (c : Nat) (t : Te) (k j : Nat) : (s.setTe c t).conj k j = s.conj k j := rfl
@[simp] theorem State.setTe_wire (s : State) (c : Nat) (t : Te) (k : Nat) : (s.setTe c t).wire k = s.wire k := rfl
@[simp] theorem State.setTe_flt (s : State) (c : Nat) (t : Te) (k : Nat) : (s.setTe c t).flt k = s.flt k := rfl
@[simp] theorem State.setTe_sk (s : State) (c : Nat) (t : Te) (k : Nat) : (s.setTe c t).sk k = s.sk k := rfl

@[simp] theorem State.setPun_queue (s : State) (c p : Nat) (x : Punnet) (k j : Nat) : (s.setPun c p x).queue k j = s.queue k j := rfl
@[simp] theorem State.setPun_ctx (s : State) (c p : Nat) (x : Punnet) (k : Nat) : (s.setPun c p x).ctx k = s.ctx k := rfl
@[simp] theorem State.setPun_qslot (s : State) (c p : Nat) (x : Punnet) (k : Nat) : (s.setPun c p x).qslot k = s.qslot k := rfl
@[simp] theorem State.setPun_port (s : State) (c p : Nat) (x : Punnet) (k : Nat) : (s.setPun c p x).port k = s.port k := rfl
@[simp] theorem State.setPun_fnS (s : State) (c p : Nat) (x : Punnet) (k : Nat) : (s.setPun c p x).fnS k = s.fnS k := rfl
@[simp] theorem State.setPun_partS (s : State) (c p : Nat) (x : Punnet) (k : Nat) : (s.setPun c p x).partS k = s.partS k := rfl
@[simp] theorem State.setPun_acct (s : State) (c p : Nat) (x : Punnet) (k : Nat) : (s.setPun c p x).acct k = s.acct k := rfl
@[simp] theorem State.setPun_conj (s : State) (c p : Nat) (x : Punnet) (k j : Nat) : (s.setPun c p x).conj k j = s.conj k j := rfl
@[simp] theorem State.setPun_wire (s : State) (c p : Nat) (x : Punnet) (k : Nat) : (s.setPun c p x).wire k = s.wire k := rfl
@[simp] theorem State.setPun_flt (s : State) (c p : Nat) (x : Punnet) (k : Nat) : (s.setPun c p x).flt k = s.flt k := rfl
@[simp] theorem State.setPun_sk (s : State) (c p : Nat) (x : Punnet) (k : Nat) : (s.setPun c p x).sk k = s.sk k := rfl

@[simp] theorem State.setQueue_core (s : State) (f q : Nat) (x : Queue) (k : Nat) : (s.setQueue f q x).core k = s.core k := rfl
@[simp] theorem State.setQueue_eng (s : State) (f q : Nat) (x : Queue) (k : Nat) (z : CE) : (s.setQueue f q x).eng k z = s.eng k z := rfl
@[simp] theorem State.setQueue_te (s : State) (f q : Nat) (x : Queue) (k : Nat) : (s.setQueue f q x).te k = s.te k := rfl
@[simp] theorem State.setQueue_pun (s : State) (f q : Nat) (x : Queue) (k j : Nat) : (s.setQueue f q x).pun k j = s.pun k j := rfl
@[simp] theorem State.setQueue_port (s : State) (f q : Nat) (x : Queue) (k : Nat) : (s.setQueue f q x).port k = s.port k := rfl
@[simp] theorem State.setQueue_fnS (s : State) (f q : Nat) (x : Queue) (k : Nat) : (s.setQueue f q x).fnS k = s.fnS k := rfl
@[simp] theorem State.setQueue_partS (s : State) (f q : Nat) (x : Queue) (k : Nat) : (s.setQueue f q x).partS k = s.partS k := rfl
@[simp] theorem State.setQueue_acct (s : State) (f q : Nat) (x : Queue) (k : Nat) : (s.setQueue f q x).acct k = s.acct k := rfl
@[simp] theorem State.setQueue_conj (s : State) (f q : Nat) (x : Queue) (k j : Nat) : (s.setQueue f q x).conj k j = s.conj k j := rfl
@[simp] theorem State.setQueue_wire (s : State) (f q : Nat) (x : Queue) (k : Nat) : (s.setQueue f q x).wire k = s.wire k := rfl
@[simp] theorem State.setQueue_flt (s : State) (f q : Nat) (x : Queue) (k : Nat) : (s.setQueue f q x).flt k = s.flt k := rfl
@[simp] theorem State.setQueue_sk (s : State) (f q : Nat) (x : Queue) (k : Nat) : (s.setQueue f q x).sk k = s.sk k := rfl

@[simp] theorem State.setCtx_core (s : State) (x : Nat) (kk : Ctx) (k : Nat) : (s.setCtx x kk).core k = s.core k := rfl
@[simp] theorem State.setCtx_eng (s : State) (x : Nat) (kk : Ctx) (k : Nat) (z : CE) : (s.setCtx x kk).eng k z = s.eng k z := rfl
@[simp] theorem State.setCtx_te (s : State) (x : Nat) (kk : Ctx) (k : Nat) : (s.setCtx x kk).te k = s.te k := rfl
@[simp] theorem State.setCtx_pun (s : State) (x : Nat) (kk : Ctx) (k j : Nat) : (s.setCtx x kk).pun k j = s.pun k j := rfl
@[simp] theorem State.setCtx_port (s : State) (x : Nat) (kk : Ctx) (k : Nat) : (s.setCtx x kk).port k = s.port k := rfl
@[simp] theorem State.setCtx_fnS (s : State) (x : Nat) (kk : Ctx) (k : Nat) : (s.setCtx x kk).fnS k = s.fnS k := rfl
@[simp] theorem State.setCtx_partS (s : State) (x : Nat) (kk : Ctx) (k : Nat) : (s.setCtx x kk).partS k = s.partS k := rfl
@[simp] theorem State.setCtx_acct (s : State) (x : Nat) (kk : Ctx) (k : Nat) : (s.setCtx x kk).acct k = s.acct k := rfl
@[simp] theorem State.setCtx_conj (s : State) (x : Nat) (kk : Ctx) (k j : Nat) : (s.setCtx x kk).conj k j = s.conj k j := rfl
@[simp] theorem State.setCtx_wire (s : State) (x : Nat) (kk : Ctx) (k : Nat) : (s.setCtx x kk).wire k = s.wire k := rfl
@[simp] theorem State.setCtx_flt (s : State) (x : Nat) (kk : Ctx) (k : Nat) : (s.setCtx x kk).flt k = s.flt k := rfl
@[simp] theorem State.setCtx_sk (s : State) (x : Nat) (kk : Ctx) (k : Nat) : (s.setCtx x kk).sk k = s.sk k := rfl

@[simp] theorem State.setQslot_core (s : State) (kk : Nat) (x : QSlot) (k : Nat) : (s.setQslot kk x).core k = s.core k := rfl
@[simp] theorem State.setQslot_eng (s : State) (kk : Nat) (x : QSlot) (k : Nat) (z : CE) : (s.setQslot kk x).eng k z = s.eng k z := rfl
@[simp] theorem State.setQslot_te (s : State) (kk : Nat) (x : QSlot) (k : Nat) : (s.setQslot kk x).te k = s.te k := rfl
@[simp] theorem State.setQslot_pun (s : State) (kk : Nat) (x : QSlot) (k j : Nat) : (s.setQslot kk x).pun k j = s.pun k j := rfl
@[simp] theorem State.setQslot_port (s : State) (kk : Nat) (x : QSlot) (k : Nat) : (s.setQslot kk x).port k = s.port k := rfl
@[simp] theorem State.setQslot_fnS (s : State) (kk : Nat) (x : QSlot) (k : Nat) : (s.setQslot kk x).fnS k = s.fnS k := rfl
@[simp] theorem State.setQslot_partS (s : State) (kk : Nat) (x : QSlot) (k : Nat) : (s.setQslot kk x).partS k = s.partS k := rfl
@[simp] theorem State.setQslot_acct (s : State) (kk : Nat) (x : QSlot) (k : Nat) : (s.setQslot kk x).acct k = s.acct k := rfl
@[simp] theorem State.setQslot_conj (s : State) (kk : Nat) (x : QSlot) (k j : Nat) : (s.setQslot kk x).conj k j = s.conj k j := rfl
@[simp] theorem State.setQslot_wire (s : State) (kk : Nat) (x : QSlot) (k : Nat) : (s.setQslot kk x).wire k = s.wire k := rfl
@[simp] theorem State.setQslot_flt (s : State) (kk : Nat) (x : QSlot) (k : Nat) : (s.setQslot kk x).flt k = s.flt k := rfl
@[simp] theorem State.setQslot_sk (s : State) (kk : Nat) (x : QSlot) (k : Nat) : (s.setQslot kk x).sk k = s.sk k := rfl

@[simp] theorem State.setPort_core (s : State) (g : Nat) (p : Port) (k : Nat) : (s.setPort g p).core k = s.core k := rfl
@[simp] theorem State.setPort_eng (s : State) (g : Nat) (p : Port) (k : Nat) (z : CE) : (s.setPort g p).eng k z = s.eng k z := rfl
@[simp] theorem State.setPort_te (s : State) (g : Nat) (p : Port) (k : Nat) : (s.setPort g p).te k = s.te k := rfl
@[simp] theorem State.setPort_pun (s : State) (g : Nat) (p : Port) (k j : Nat) : (s.setPort g p).pun k j = s.pun k j := rfl
@[simp] theorem State.setPort_queue (s : State) (g : Nat) (p : Port) (k j : Nat) : (s.setPort g p).queue k j = s.queue k j := rfl
@[simp] theorem State.setPort_ctx (s : State) (g : Nat) (p : Port) (k : Nat) : (s.setPort g p).ctx k = s.ctx k := rfl
@[simp] theorem State.setPort_qslot (s : State) (g : Nat) (p : Port) (k : Nat) : (s.setPort g p).qslot k = s.qslot k := rfl
@[simp] theorem State.setPort_fnS (s : State) (g : Nat) (p : Port) (k : Nat) : (s.setPort g p).fnS k = s.fnS k := rfl
@[simp] theorem State.setPort_partS (s : State) (g : Nat) (p : Port) (k : Nat) : (s.setPort g p).partS k = s.partS k := rfl
@[simp] theorem State.setPort_acct (s : State) (g : Nat) (p : Port) (k : Nat) : (s.setPort g p).acct k = s.acct k := rfl
@[simp] theorem State.setPort_conj (s : State) (g : Nat) (p : Port) (k j : Nat) : (s.setPort g p).conj k j = s.conj k j := rfl
@[simp] theorem State.setPort_wire (s : State) (g : Nat) (p : Port) (k : Nat) : (s.setPort g p).wire k = s.wire k := rfl
@[simp] theorem State.setPort_flt (s : State) (g : Nat) (p : Port) (k : Nat) : (s.setPort g p).flt k = s.flt k := rfl
@[simp] theorem State.setPort_sk (s : State) (g : Nat) (p : Port) (k : Nat) : (s.setPort g p).sk k = s.sk k := rfl

@[simp] theorem State.setFnS_core (s : State) (f : Nat) (x : FnSched) (k : Nat) : (s.setFnS f x).core k = s.core k := rfl
@[simp] theorem State.setFnS_eng (s : State) (f : Nat) (x : FnSched) (k : Nat) (z : CE) : (s.setFnS f x).eng k z = s.eng k z := rfl
@[simp] theorem State.setFnS_te (s : State) (f : Nat) (x : FnSched) (k : Nat) : (s.setFnS f x).te k = s.te k := rfl
@[simp] theorem State.setFnS_pun (s : State) (f : Nat) (x : FnSched) (k j : Nat) : (s.setFnS f x).pun k j = s.pun k j := rfl
@[simp] theorem State.setFnS_queue (s : State) (f : Nat) (x : FnSched) (k j : Nat) : (s.setFnS f x).queue k j = s.queue k j := rfl
@[simp] theorem State.setFnS_ctx (s : State) (f : Nat) (x : FnSched) (k : Nat) : (s.setFnS f x).ctx k = s.ctx k := rfl
@[simp] theorem State.setFnS_qslot (s : State) (f : Nat) (x : FnSched) (k : Nat) : (s.setFnS f x).qslot k = s.qslot k := rfl
@[simp] theorem State.setFnS_port (s : State) (f : Nat) (x : FnSched) (k : Nat) : (s.setFnS f x).port k = s.port k := rfl
@[simp] theorem State.setFnS_acct (s : State) (f : Nat) (x : FnSched) (k : Nat) : (s.setFnS f x).acct k = s.acct k := rfl
@[simp] theorem State.setFnS_conj (s : State) (f : Nat) (x : FnSched) (k j : Nat) : (s.setFnS f x).conj k j = s.conj k j := rfl
@[simp] theorem State.setFnS_wire (s : State) (f : Nat) (x : FnSched) (k : Nat) : (s.setFnS f x).wire k = s.wire k := rfl
@[simp] theorem State.setFnS_flt (s : State) (f : Nat) (x : FnSched) (k : Nat) : (s.setFnS f x).flt k = s.flt k := rfl
@[simp] theorem State.setFnS_sk (s : State) (f : Nat) (x : FnSched) (k : Nat) : (s.setFnS f x).sk k = s.sk k := rfl

@[simp] theorem State.setPartS_core (s : State) (p : Nat) (x : PartSched) (k : Nat) : (s.setPartS p x).core k = s.core k := rfl
@[simp] theorem State.setPartS_eng (s : State) (p : Nat) (x : PartSched) (k : Nat) (z : CE) : (s.setPartS p x).eng k z = s.eng k z := rfl
@[simp] theorem State.setPartS_te (s : State) (p : Nat) (x : PartSched) (k : Nat) : (s.setPartS p x).te k = s.te k := rfl
@[simp] theorem State.setPartS_pun (s : State) (p : Nat) (x : PartSched) (k j : Nat) : (s.setPartS p x).pun k j = s.pun k j := rfl
@[simp] theorem State.setPartS_queue (s : State) (p : Nat) (x : PartSched) (k j : Nat) : (s.setPartS p x).queue k j = s.queue k j := rfl
@[simp] theorem State.setPartS_ctx (s : State) (p : Nat) (x : PartSched) (k : Nat) : (s.setPartS p x).ctx k = s.ctx k := rfl
@[simp] theorem State.setPartS_qslot (s : State) (p : Nat) (x : PartSched) (k : Nat) : (s.setPartS p x).qslot k = s.qslot k := rfl
@[simp] theorem State.setPartS_port (s : State) (p : Nat) (x : PartSched) (k : Nat) : (s.setPartS p x).port k = s.port k := rfl
@[simp] theorem State.setPartS_acct (s : State) (p : Nat) (x : PartSched) (k : Nat) : (s.setPartS p x).acct k = s.acct k := rfl
@[simp] theorem State.setPartS_conj (s : State) (p : Nat) (x : PartSched) (k j : Nat) : (s.setPartS p x).conj k j = s.conj k j := rfl
@[simp] theorem State.setPartS_wire (s : State) (p : Nat) (x : PartSched) (k : Nat) : (s.setPartS p x).wire k = s.wire k := rfl
@[simp] theorem State.setPartS_flt (s : State) (p : Nat) (x : PartSched) (k : Nat) : (s.setPartS p x).flt k = s.flt k := rfl
@[simp] theorem State.setPartS_sk (s : State) (p : Nat) (x : PartSched) (k : Nat) : (s.setPartS p x).sk k = s.sk k := rfl

@[simp] theorem State.setAcct_core (s : State) (p : Nat) (x : PartAcct) (k : Nat) : (s.setAcct p x).core k = s.core k := rfl
@[simp] theorem State.setAcct_eng (s : State) (p : Nat) (x : PartAcct) (k : Nat) (z : CE) : (s.setAcct p x).eng k z = s.eng k z := rfl
@[simp] theorem State.setAcct_te (s : State) (p : Nat) (x : PartAcct) (k : Nat) : (s.setAcct p x).te k = s.te k := rfl
@[simp] theorem State.setAcct_pun (s : State) (p : Nat) (x : PartAcct) (k j : Nat) : (s.setAcct p x).pun k j = s.pun k j := rfl
@[simp] theorem State.setAcct_queue (s : State) (p : Nat) (x : PartAcct) (k j : Nat) : (s.setAcct p x).queue k j = s.queue k j := rfl
@[simp] theorem State.setAcct_ctx (s : State) (p : Nat) (x : PartAcct) (k : Nat) : (s.setAcct p x).ctx k = s.ctx k := rfl
@[simp] theorem State.setAcct_qslot (s : State) (p : Nat) (x : PartAcct) (k : Nat) : (s.setAcct p x).qslot k = s.qslot k := rfl
@[simp] theorem State.setAcct_port (s : State) (p : Nat) (x : PartAcct) (k : Nat) : (s.setAcct p x).port k = s.port k := rfl
@[simp] theorem State.setAcct_fnS (s : State) (p : Nat) (x : PartAcct) (k : Nat) : (s.setAcct p x).fnS k = s.fnS k := rfl
@[simp] theorem State.setAcct_partS (s : State) (p : Nat) (x : PartAcct) (k : Nat) : (s.setAcct p x).partS k = s.partS k := rfl
@[simp] theorem State.setAcct_conj (s : State) (p : Nat) (x : PartAcct) (k j : Nat) : (s.setAcct p x).conj k j = s.conj k j := rfl
@[simp] theorem State.setAcct_wire (s : State) (p : Nat) (x : PartAcct) (k : Nat) : (s.setAcct p x).wire k = s.wire k := rfl
@[simp] theorem State.setAcct_flt (s : State) (p : Nat) (x : PartAcct) (k : Nat) : (s.setAcct p x).flt k = s.flt k := rfl
@[simp] theorem State.setAcct_sk (s : State) (p : Nat) (x : PartAcct) (k : Nat) : (s.setAcct p x).sk k = s.sk k := rfl

@[simp] theorem State.setConj_core (s : State) (x c : Nat) (v : Conj) (k : Nat) : (s.setConj x c v).core k = s.core k := rfl
@[simp] theorem State.setConj_eng (s : State) (x c : Nat) (v : Conj) (k : Nat) (z : CE) : (s.setConj x c v).eng k z = s.eng k z := rfl
@[simp] theorem State.setConj_te (s : State) (x c : Nat) (v : Conj) (k : Nat) : (s.setConj x c v).te k = s.te k := rfl
@[simp] theorem State.setConj_pun (s : State) (x c : Nat) (v : Conj) (k j : Nat) : (s.setConj x c v).pun k j = s.pun k j := rfl
@[simp] theorem State.setConj_queue (s : State) (x c : Nat) (v : Conj) (k j : Nat) : (s.setConj x c v).queue k j = s.queue k j := rfl
@[simp] theorem State.setConj_ctx (s : State) (x c : Nat) (v : Conj) (k : Nat) : (s.setConj x c v).ctx k = s.ctx k := rfl
@[simp] theorem State.setConj_qslot (s : State) (x c : Nat) (v : Conj) (k : Nat) : (s.setConj x c v).qslot k = s.qslot k := rfl
@[simp] theorem State.setConj_port (s : State) (x c : Nat) (v : Conj) (k : Nat) : (s.setConj x c v).port k = s.port k := rfl
@[simp] theorem State.setConj_fnS (s : State) (x c : Nat) (v : Conj) (k : Nat) : (s.setConj x c v).fnS k = s.fnS k := rfl
@[simp] theorem State.setConj_partS (s : State) (x c : Nat) (v : Conj) (k : Nat) : (s.setConj x c v).partS k = s.partS k := rfl
@[simp] theorem State.setConj_acct (s : State) (x c : Nat) (v : Conj) (k : Nat) : (s.setConj x c v).acct k = s.acct k := rfl
@[simp] theorem State.setConj_flt (s : State) (x c : Nat) (v : Conj) (k : Nat) : (s.setConj x c v).flt k = s.flt k := rfl
@[simp] theorem State.setConj_sk (s : State) (x c : Nat) (v : Conj) (k : Nat) : (s.setConj x c v).sk k = s.sk k := rfl

@[simp] theorem State.setWire_core (s : State) (w : Nat) (v : Wire) (k : Nat) : (s.setWire w v).core k = s.core k := rfl
@[simp] theorem State.setWire_eng (s : State) (w : Nat) (v : Wire) (k : Nat) (z : CE) : (s.setWire w v).eng k z = s.eng k z := rfl
@[simp] theorem State.setWire_te (s : State) (w : Nat) (v : Wire) (k : Nat) : (s.setWire w v).te k = s.te k := rfl
@[simp] theorem State.setWire_pun (s : State) (w : Nat) (v : Wire) (k j : Nat) : (s.setWire w v).pun k j = s.pun k j := rfl
@[simp] theorem State.setWire_queue (s : State) (w : Nat) (v : Wire) (k j : Nat) : (s.setWire w v).queue k j = s.queue k j := rfl
@[simp] theorem State.setWire_ctx (s : State) (w : Nat) (v : Wire) (k : Nat) : (s.setWire w v).ctx k = s.ctx k := rfl
@[simp] theorem State.setWire_qslot (s : State) (w : Nat) (v : Wire) (k : Nat) : (s.setWire w v).qslot k = s.qslot k := rfl
@[simp] theorem State.setWire_port (s : State) (w : Nat) (v : Wire) (k : Nat) : (s.setWire w v).port k = s.port k := rfl
@[simp] theorem State.setWire_fnS (s : State) (w : Nat) (v : Wire) (k : Nat) : (s.setWire w v).fnS k = s.fnS k := rfl
@[simp] theorem State.setWire_partS (s : State) (w : Nat) (v : Wire) (k : Nat) : (s.setWire w v).partS k = s.partS k := rfl
@[simp] theorem State.setWire_acct (s : State) (w : Nat) (v : Wire) (k : Nat) : (s.setWire w v).acct k = s.acct k := rfl
@[simp] theorem State.setWire_flt (s : State) (w : Nat) (v : Wire) (k : Nat) : (s.setWire w v).flt k = s.flt k := rfl
@[simp] theorem State.setWire_sk (s : State) (w : Nat) (v : Wire) (k : Nat) : (s.setWire w v).sk k = s.sk k := rfl

@[simp] theorem State.setGroup_core (s : State) (x g : Nat) (v : Group) (k : Nat) : (s.setGroup x g v).core k = s.core k := rfl
@[simp] theorem State.setGroup_eng (s : State) (x g : Nat) (v : Group) (k : Nat) (z : CE) : (s.setGroup x g v).eng k z = s.eng k z := rfl
@[simp] theorem State.setGroup_te (s : State) (x g : Nat) (v : Group) (k : Nat) : (s.setGroup x g v).te k = s.te k := rfl
@[simp] theorem State.setGroup_pun (s : State) (x g : Nat) (v : Group) (k j : Nat) : (s.setGroup x g v).pun k j = s.pun k j := rfl
@[simp] theorem State.setGroup_queue (s : State) (x g : Nat) (v : Group) (k j : Nat) : (s.setGroup x g v).queue k j = s.queue k j := rfl
@[simp] theorem State.setGroup_ctx (s : State) (x g : Nat) (v : Group) (k : Nat) : (s.setGroup x g v).ctx k = s.ctx k := rfl
@[simp] theorem State.setGroup_qslot (s : State) (x g : Nat) (v : Group) (k : Nat) : (s.setGroup x g v).qslot k = s.qslot k := rfl
@[simp] theorem State.setGroup_port (s : State) (x g : Nat) (v : Group) (k : Nat) : (s.setGroup x g v).port k = s.port k := rfl
@[simp] theorem State.setGroup_fnS (s : State) (x g : Nat) (v : Group) (k : Nat) : (s.setGroup x g v).fnS k = s.fnS k := rfl
@[simp] theorem State.setGroup_partS (s : State) (x g : Nat) (v : Group) (k : Nat) : (s.setGroup x g v).partS k = s.partS k := rfl
@[simp] theorem State.setGroup_acct (s : State) (x g : Nat) (v : Group) (k : Nat) : (s.setGroup x g v).acct k = s.acct k := rfl
@[simp] theorem State.setGroup_flt (s : State) (x g : Nat) (v : Group) (k : Nat) : (s.setGroup x g v).flt k = s.flt k := rfl
@[simp] theorem State.setGroup_sk (s : State) (x g : Nat) (v : Group) (k : Nat) : (s.setGroup x g v).sk k = s.sk k := rfl

@[simp] theorem State.setFlt_core (s : State) (f : Nat) (l : FltLog) (k : Nat) : (s.setFlt f l).core k = s.core k := rfl
@[simp] theorem State.setFlt_eng (s : State) (f : Nat) (l : FltLog) (k : Nat) (z : CE) : (s.setFlt f l).eng k z = s.eng k z := rfl
@[simp] theorem State.setFlt_te (s : State) (f : Nat) (l : FltLog) (k : Nat) : (s.setFlt f l).te k = s.te k := rfl
@[simp] theorem State.setFlt_pun (s : State) (f : Nat) (l : FltLog) (k j : Nat) : (s.setFlt f l).pun k j = s.pun k j := rfl
@[simp] theorem State.setFlt_queue (s : State) (f : Nat) (l : FltLog) (k j : Nat) : (s.setFlt f l).queue k j = s.queue k j := rfl
@[simp] theorem State.setFlt_ctx (s : State) (f : Nat) (l : FltLog) (k : Nat) : (s.setFlt f l).ctx k = s.ctx k := rfl
@[simp] theorem State.setFlt_qslot (s : State) (f : Nat) (l : FltLog) (k : Nat) : (s.setFlt f l).qslot k = s.qslot k := rfl
@[simp] theorem State.setFlt_port (s : State) (f : Nat) (l : FltLog) (k : Nat) : (s.setFlt f l).port k = s.port k := rfl
@[simp] theorem State.setFlt_fnS (s : State) (f : Nat) (l : FltLog) (k : Nat) : (s.setFlt f l).fnS k = s.fnS k := rfl
@[simp] theorem State.setFlt_partS (s : State) (f : Nat) (l : FltLog) (k : Nat) : (s.setFlt f l).partS k = s.partS k := rfl
@[simp] theorem State.setFlt_acct (s : State) (f : Nat) (l : FltLog) (k : Nat) : (s.setFlt f l).acct k = s.acct k := rfl
@[simp] theorem State.setFlt_conj (s : State) (f : Nat) (l : FltLog) (k j : Nat) : (s.setFlt f l).conj k j = s.conj k j := rfl
@[simp] theorem State.setFlt_wire (s : State) (f : Nat) (l : FltLog) (k : Nat) : (s.setFlt f l).wire k = s.wire k := rfl
@[simp] theorem State.setFlt_sk (s : State) (f : Nat) (l : FltLog) (k : Nat) : (s.setFlt f l).sk k = s.sk k := rfl

@[simp] theorem State.setSk_core (s : State) (kk : Nat) (x : Sketch) (k : Nat) : (s.setSk kk x).core k = s.core k := rfl
@[simp] theorem State.setSk_eng (s : State) (kk : Nat) (x : Sketch) (k : Nat) (z : CE) : (s.setSk kk x).eng k z = s.eng k z := rfl
@[simp] theorem State.setSk_te (s : State) (kk : Nat) (x : Sketch) (k : Nat) : (s.setSk kk x).te k = s.te k := rfl
@[simp] theorem State.setSk_pun (s : State) (kk : Nat) (x : Sketch) (k j : Nat) : (s.setSk kk x).pun k j = s.pun k j := rfl
@[simp] theorem State.setSk_queue (s : State) (kk : Nat) (x : Sketch) (k j : Nat) : (s.setSk kk x).queue k j = s.queue k j := rfl
@[simp] theorem State.setSk_ctx (s : State) (kk : Nat) (x : Sketch) (k : Nat) : (s.setSk kk x).ctx k = s.ctx k := rfl
@[simp] theorem State.setSk_qslot (s : State) (kk : Nat) (x : Sketch) (k : Nat) : (s.setSk kk x).qslot k = s.qslot k := rfl
@[simp] theorem State.setSk_port (s : State) (kk : Nat) (x : Sketch) (k : Nat) : (s.setSk kk x).port k = s.port k := rfl
@[simp] theorem State.setSk_fnS (s : State) (kk : Nat) (x : Sketch) (k : Nat) : (s.setSk kk x).fnS k = s.fnS k := rfl
@[simp] theorem State.setSk_partS (s : State) (kk : Nat) (x : Sketch) (k : Nat) : (s.setSk kk x).partS k = s.partS k := rfl
@[simp] theorem State.setSk_acct (s : State) (kk : Nat) (x : Sketch) (k : Nat) : (s.setSk kk x).acct k = s.acct k := rfl
@[simp] theorem State.setSk_conj (s : State) (kk : Nat) (x : Sketch) (k j : Nat) : (s.setSk kk x).conj k j = s.conj k j := rfl
@[simp] theorem State.setSk_wire (s : State) (kk : Nat) (x : Sketch) (k : Nat) : (s.setSk kk x).wire k = s.wire k := rfl
@[simp] theorem State.setSk_flt (s : State) (kk : Nat) (x : Sketch) (k : Nat) : (s.setSk kk x).flt k = s.flt k := rfl

@[simp] theorem wr_core (s : State) (a : Nat) (v : W32) (k : Nat) : (wr s a v).core k = s.core k := rfl
@[simp] theorem wr_eng (s : State) (a : Nat) (v : W32) (k : Nat) (z : CE) : (wr s a v).eng k z = s.eng k z := rfl
@[simp] theorem wr_te (s : State) (a : Nat) (v : W32) (k : Nat) : (wr s a v).te k = s.te k := rfl
@[simp] theorem wr_pun (s : State) (a : Nat) (v : W32) (k j : Nat) : (wr s a v).pun k j = s.pun k j := rfl
@[simp] theorem wr_queue (s : State) (a : Nat) (v : W32) (k j : Nat) : (wr s a v).queue k j = s.queue k j := rfl
@[simp] theorem wr_ctx (s : State) (a : Nat) (v : W32) (k : Nat) : (wr s a v).ctx k = s.ctx k := rfl
@[simp] theorem wr_qslot (s : State) (a : Nat) (v : W32) (k : Nat) : (wr s a v).qslot k = s.qslot k := rfl
@[simp] theorem wr_port (s : State) (a : Nat) (v : W32) (k : Nat) : (wr s a v).port k = s.port k := rfl
@[simp] theorem wr_fnS (s : State) (a : Nat) (v : W32) (k : Nat) : (wr s a v).fnS k = s.fnS k := rfl
@[simp] theorem wr_partS (s : State) (a : Nat) (v : W32) (k : Nat) : (wr s a v).partS k = s.partS k := rfl
@[simp] theorem wr_acct (s : State) (a : Nat) (v : W32) (k : Nat) : (wr s a v).acct k = s.acct k := rfl
@[simp] theorem wr_conj (s : State) (a : Nat) (v : W32) (k j : Nat) : (wr s a v).conj k j = s.conj k j := rfl
@[simp] theorem wr_wire (s : State) (a : Nat) (v : W32) (k : Nat) : (wr s a v).wire k = s.wire k := rfl
@[simp] theorem wr_flt (s : State) (a : Nat) (v : W32) (k : Nat) : (wr s a v).flt k = s.flt k := rfl
@[simp] theorem wr_sk (s : State) (a : Nat) (v : W32) (k : Nat) : (wr s a v).sk k = s.sk k := rfl

@[simp] theorem wrF_core (s : State) (a lo len v : Nat) (k : Nat) : (wrF s a lo len v).core k = s.core k := rfl
@[simp] theorem wrF_eng (s : State) (a lo len v : Nat) (k : Nat) (z : CE) : (wrF s a lo len v).eng k z = s.eng k z := rfl
@[simp] theorem wrF_te (s : State) (a lo len v : Nat) (k : Nat) : (wrF s a lo len v).te k = s.te k := rfl
@[simp] theorem wrF_pun (s : State) (a lo len v : Nat) (k j : Nat) : (wrF s a lo len v).pun k j = s.pun k j := rfl
@[simp] theorem wrF_queue (s : State) (a lo len v : Nat) (k j : Nat) : (wrF s a lo len v).queue k j = s.queue k j := rfl
@[simp] theorem wrF_ctx (s : State) (a lo len v : Nat) (k : Nat) : (wrF s a lo len v).ctx k = s.ctx k := rfl
@[simp] theorem wrF_qslot (s : State) (a lo len v : Nat) (k : Nat) : (wrF s a lo len v).qslot k = s.qslot k := rfl
@[simp] theorem wrF_port (s : State) (a lo len v : Nat) (k : Nat) : (wrF s a lo len v).port k = s.port k := rfl
@[simp] theorem wrF_fnS (s : State) (a lo len v : Nat) (k : Nat) : (wrF s a lo len v).fnS k = s.fnS k := rfl
@[simp] theorem wrF_partS (s : State) (a lo len v : Nat) (k : Nat) : (wrF s a lo len v).partS k = s.partS k := rfl
@[simp] theorem wrF_acct (s : State) (a lo len v : Nat) (k : Nat) : (wrF s a lo len v).acct k = s.acct k := rfl
@[simp] theorem wrF_conj (s : State) (a lo len v : Nat) (k j : Nat) : (wrF s a lo len v).conj k j = s.conj k j := rfl
@[simp] theorem wrF_wire (s : State) (a lo len v : Nat) (k : Nat) : (wrF s a lo len v).wire k = s.wire k := rfl
@[simp] theorem wrF_flt (s : State) (a lo len v : Nat) (k : Nat) : (wrF s a lo len v).flt k = s.flt k := rfl
@[simp] theorem wrF_sk (s : State) (a lo len v : Nat) (k : Nat) : (wrF s a lo len v).sk k = s.sk k := rfl

@[simp] theorem incF_core (s : State) (a lo len n : Nat) (k : Nat) : (incF s a lo len n).core k = s.core k := rfl
@[simp] theorem incF_eng (s : State) (a lo len n : Nat) (k : Nat) (z : CE) : (incF s a lo len n).eng k z = s.eng k z := rfl
@[simp] theorem incF_te (s : State) (a lo len n : Nat) (k : Nat) : (incF s a lo len n).te k = s.te k := rfl
@[simp] theorem incF_pun (s : State) (a lo len n : Nat) (k j : Nat) : (incF s a lo len n).pun k j = s.pun k j := rfl
@[simp] theorem incF_queue (s : State) (a lo len n : Nat) (k j : Nat) : (incF s a lo len n).queue k j = s.queue k j := rfl
@[simp] theorem incF_ctx (s : State) (a lo len n : Nat) (k : Nat) : (incF s a lo len n).ctx k = s.ctx k := rfl
@[simp] theorem incF_qslot (s : State) (a lo len n : Nat) (k : Nat) : (incF s a lo len n).qslot k = s.qslot k := rfl
@[simp] theorem incF_port (s : State) (a lo len n : Nat) (k : Nat) : (incF s a lo len n).port k = s.port k := rfl
@[simp] theorem incF_fnS (s : State) (a lo len n : Nat) (k : Nat) : (incF s a lo len n).fnS k = s.fnS k := rfl
@[simp] theorem incF_partS (s : State) (a lo len n : Nat) (k : Nat) : (incF s a lo len n).partS k = s.partS k := rfl
@[simp] theorem incF_acct (s : State) (a lo len n : Nat) (k : Nat) : (incF s a lo len n).acct k = s.acct k := rfl
@[simp] theorem incF_conj (s : State) (a lo len n : Nat) (k j : Nat) : (incF s a lo len n).conj k j = s.conj k j := rfl
@[simp] theorem incF_wire (s : State) (a lo len n : Nat) (k : Nat) : (incF s a lo len n).wire k = s.wire k := rfl
@[simp] theorem incF_flt (s : State) (a lo len n : Nat) (k : Nat) : (incF s a lo len n).flt k = s.flt k := rfl
@[simp] theorem incF_sk (s : State) (a lo len n : Nat) (k : Nat) : (incF s a lo len n).sk k = s.sk k := rfl

@[simp] theorem inc16_core (s : State) (a : Nat) (k : Nat) : (inc16 s a).core k = s.core k := rfl
@[simp] theorem inc16_eng (s : State) (a : Nat) (k : Nat) (z : CE) : (inc16 s a).eng k z = s.eng k z := rfl
@[simp] theorem inc16_te (s : State) (a : Nat) (k : Nat) : (inc16 s a).te k = s.te k := rfl
@[simp] theorem inc16_pun (s : State) (a : Nat) (k j : Nat) : (inc16 s a).pun k j = s.pun k j := rfl
@[simp] theorem inc16_queue (s : State) (a : Nat) (k j : Nat) : (inc16 s a).queue k j = s.queue k j := rfl
@[simp] theorem inc16_ctx (s : State) (a : Nat) (k : Nat) : (inc16 s a).ctx k = s.ctx k := rfl
@[simp] theorem inc16_qslot (s : State) (a : Nat) (k : Nat) : (inc16 s a).qslot k = s.qslot k := rfl
@[simp] theorem inc16_port (s : State) (a : Nat) (k : Nat) : (inc16 s a).port k = s.port k := rfl
@[simp] theorem inc16_fnS (s : State) (a : Nat) (k : Nat) : (inc16 s a).fnS k = s.fnS k := rfl
@[simp] theorem inc16_partS (s : State) (a : Nat) (k : Nat) : (inc16 s a).partS k = s.partS k := rfl
@[simp] theorem inc16_acct (s : State) (a : Nat) (k : Nat) : (inc16 s a).acct k = s.acct k := rfl
@[simp] theorem inc16_conj (s : State) (a : Nat) (k j : Nat) : (inc16 s a).conj k j = s.conj k j := rfl
@[simp] theorem inc16_wire (s : State) (a : Nat) (k : Nat) : (inc16 s a).wire k = s.wire k := rfl
@[simp] theorem inc16_flt (s : State) (a : Nat) (k : Nat) : (inc16 s a).flt k = s.flt k := rfl
@[simp] theorem inc16_sk (s : State) (a : Nat) (k : Nat) : (inc16 s a).sk k = s.sk k := rfl

@[simp] theorem inc32_core (s : State) (a n : Nat) (k : Nat) : (inc32 s a n).core k = s.core k := rfl
@[simp] theorem inc32_eng (s : State) (a n : Nat) (k : Nat) (z : CE) : (inc32 s a n).eng k z = s.eng k z := rfl
@[simp] theorem inc32_te (s : State) (a n : Nat) (k : Nat) : (inc32 s a n).te k = s.te k := rfl
@[simp] theorem inc32_pun (s : State) (a n : Nat) (k j : Nat) : (inc32 s a n).pun k j = s.pun k j := rfl
@[simp] theorem inc32_queue (s : State) (a n : Nat) (k j : Nat) : (inc32 s a n).queue k j = s.queue k j := rfl
@[simp] theorem inc32_ctx (s : State) (a n : Nat) (k : Nat) : (inc32 s a n).ctx k = s.ctx k := rfl
@[simp] theorem inc32_qslot (s : State) (a n : Nat) (k : Nat) : (inc32 s a n).qslot k = s.qslot k := rfl
@[simp] theorem inc32_port (s : State) (a n : Nat) (k : Nat) : (inc32 s a n).port k = s.port k := rfl
@[simp] theorem inc32_fnS (s : State) (a n : Nat) (k : Nat) : (inc32 s a n).fnS k = s.fnS k := rfl
@[simp] theorem inc32_partS (s : State) (a n : Nat) (k : Nat) : (inc32 s a n).partS k = s.partS k := rfl
@[simp] theorem inc32_acct (s : State) (a n : Nat) (k : Nat) : (inc32 s a n).acct k = s.acct k := rfl
@[simp] theorem inc32_conj (s : State) (a n : Nat) (k j : Nat) : (inc32 s a n).conj k j = s.conj k j := rfl
@[simp] theorem inc32_wire (s : State) (a n : Nat) (k : Nat) : (inc32 s a n).wire k = s.wire k := rfl
@[simp] theorem inc32_flt (s : State) (a n : Nat) (k : Nat) : (inc32 s a n).flt k = s.flt k := rfl
@[simp] theorem inc32_sk (s : State) (a n : Nat) (k : Nat) : (inc32 s a n).sk k = s.sk k := rfl

@[simp] theorem clearRegs_core (s : State) (lo hi : Nat) (k : Nat) : (clearRegs s lo hi).core k = s.core k := rfl
@[simp] theorem clearRegs_eng (s : State) (lo hi : Nat) (k : Nat) (z : CE) : (clearRegs s lo hi).eng k z = s.eng k z := rfl
@[simp] theorem clearRegs_te (s : State) (lo hi : Nat) (k : Nat) : (clearRegs s lo hi).te k = s.te k := rfl
@[simp] theorem clearRegs_pun (s : State) (lo hi : Nat) (k j : Nat) : (clearRegs s lo hi).pun k j = s.pun k j := rfl
@[simp] theorem clearRegs_queue (s : State) (lo hi : Nat) (k j : Nat) : (clearRegs s lo hi).queue k j = s.queue k j := rfl
@[simp] theorem clearRegs_ctx (s : State) (lo hi : Nat) (k : Nat) : (clearRegs s lo hi).ctx k = s.ctx k := rfl
@[simp] theorem clearRegs_qslot (s : State) (lo hi : Nat) (k : Nat) : (clearRegs s lo hi).qslot k = s.qslot k := rfl
@[simp] theorem clearRegs_port (s : State) (lo hi : Nat) (k : Nat) : (clearRegs s lo hi).port k = s.port k := rfl
@[simp] theorem clearRegs_fnS (s : State) (lo hi : Nat) (k : Nat) : (clearRegs s lo hi).fnS k = s.fnS k := rfl
@[simp] theorem clearRegs_partS (s : State) (lo hi : Nat) (k : Nat) : (clearRegs s lo hi).partS k = s.partS k := rfl
@[simp] theorem clearRegs_acct (s : State) (lo hi : Nat) (k : Nat) : (clearRegs s lo hi).acct k = s.acct k := rfl
@[simp] theorem clearRegs_conj (s : State) (lo hi : Nat) (k j : Nat) : (clearRegs s lo hi).conj k j = s.conj k j := rfl
@[simp] theorem clearRegs_wire (s : State) (lo hi : Nat) (k : Nat) : (clearRegs s lo hi).wire k = s.wire k := rfl
@[simp] theorem clearRegs_flt (s : State) (lo hi : Nat) (k : Nat) : (clearRegs s lo hi).flt k = s.flt k := rfl
@[simp] theorem clearRegs_sk (s : State) (lo hi : Nat) (k : Nat) : (clearRegs s lo hi).sk k = s.sk k := rfl

@[simp] theorem memWrite_core (s : State) (a : Nat) (bs : List Byte) (k : Nat) : (memWrite s a bs).core k = s.core k := rfl
@[simp] theorem memWrite_eng (s : State) (a : Nat) (bs : List Byte) (k : Nat) (z : CE) : (memWrite s a bs).eng k z = s.eng k z := rfl
@[simp] theorem memWrite_te (s : State) (a : Nat) (bs : List Byte) (k : Nat) : (memWrite s a bs).te k = s.te k := rfl
@[simp] theorem memWrite_pun (s : State) (a : Nat) (bs : List Byte) (k j : Nat) : (memWrite s a bs).pun k j = s.pun k j := rfl
@[simp] theorem memWrite_queue (s : State) (a : Nat) (bs : List Byte) (k j : Nat) : (memWrite s a bs).queue k j = s.queue k j := rfl
@[simp] theorem memWrite_ctx (s : State) (a : Nat) (bs : List Byte) (k : Nat) : (memWrite s a bs).ctx k = s.ctx k := rfl
@[simp] theorem memWrite_qslot (s : State) (a : Nat) (bs : List Byte) (k : Nat) : (memWrite s a bs).qslot k = s.qslot k := rfl
@[simp] theorem memWrite_port (s : State) (a : Nat) (bs : List Byte) (k : Nat) : (memWrite s a bs).port k = s.port k := rfl
@[simp] theorem memWrite_fnS (s : State) (a : Nat) (bs : List Byte) (k : Nat) : (memWrite s a bs).fnS k = s.fnS k := rfl
@[simp] theorem memWrite_partS (s : State) (a : Nat) (bs : List Byte) (k : Nat) : (memWrite s a bs).partS k = s.partS k := rfl
@[simp] theorem memWrite_acct (s : State) (a : Nat) (bs : List Byte) (k : Nat) : (memWrite s a bs).acct k = s.acct k := rfl
@[simp] theorem memWrite_conj (s : State) (a : Nat) (bs : List Byte) (k j : Nat) : (memWrite s a bs).conj k j = s.conj k j := rfl
@[simp] theorem memWrite_wire (s : State) (a : Nat) (bs : List Byte) (k : Nat) : (memWrite s a bs).wire k = s.wire k := rfl
@[simp] theorem memWrite_flt (s : State) (a : Nat) (bs : List Byte) (k : Nat) : (memWrite s a bs).flt k = s.flt k := rfl
@[simp] theorem memWrite_sk (s : State) (a : Nat) (bs : List Byte) (k : Nat) : (memWrite s a bs).sk k = s.sk k := rfl

@[simp] theorem poisonRange_core (s : State) (a n : Nat) (k : Nat) : (poisonRange s a n).core k = s.core k := rfl
@[simp] theorem poisonRange_eng (s : State) (a n : Nat) (k : Nat) (z : CE) : (poisonRange s a n).eng k z = s.eng k z := rfl
@[simp] theorem poisonRange_te (s : State) (a n : Nat) (k : Nat) : (poisonRange s a n).te k = s.te k := rfl
@[simp] theorem poisonRange_pun (s : State) (a n : Nat) (k j : Nat) : (poisonRange s a n).pun k j = s.pun k j := rfl
@[simp] theorem poisonRange_queue (s : State) (a n : Nat) (k j : Nat) : (poisonRange s a n).queue k j = s.queue k j := rfl
@[simp] theorem poisonRange_ctx (s : State) (a n : Nat) (k : Nat) : (poisonRange s a n).ctx k = s.ctx k := rfl
@[simp] theorem poisonRange_qslot (s : State) (a n : Nat) (k : Nat) : (poisonRange s a n).qslot k = s.qslot k := rfl
@[simp] theorem poisonRange_port (s : State) (a n : Nat) (k : Nat) : (poisonRange s a n).port k = s.port k := rfl
@[simp] theorem poisonRange_fnS (s : State) (a n : Nat) (k : Nat) : (poisonRange s a n).fnS k = s.fnS k := rfl
@[simp] theorem poisonRange_partS (s : State) (a n : Nat) (k : Nat) : (poisonRange s a n).partS k = s.partS k := rfl
@[simp] theorem poisonRange_acct (s : State) (a n : Nat) (k : Nat) : (poisonRange s a n).acct k = s.acct k := rfl
@[simp] theorem poisonRange_conj (s : State) (a n : Nat) (k j : Nat) : (poisonRange s a n).conj k j = s.conj k j := rfl
@[simp] theorem poisonRange_wire (s : State) (a n : Nat) (k : Nat) : (poisonRange s a n).wire k = s.wire k := rfl
@[simp] theorem poisonRange_flt (s : State) (a n : Nat) (k : Nat) : (poisonRange s a n).flt k = s.flt k := rfl
@[simp] theorem poisonRange_sk (s : State) (a n : Nat) (k : Nat) : (poisonRange s a n).sk k = s.sk k := rfl

/-! ## Read back -/

@[simp] theorem core_setCore (s : State) (c k : Nat) (x : Core) :
    (s.setCore c x).core k = if k = c then x else s.core k := Tbl.get_put s.cores {} x c k

@[simp] theorem Core.eng_setEng (x : Core) (e z : CE) (y : ClEng) :
    (x.setEng e y).eng z = if z = e then y else x.eng z := by
  cases e <;> cases z <;> simp [Core.setEng, Core.eng]

theorem eng_eq (s : State) (c : Nat) (e : CE) : s.eng c e = (s.core c).eng e := by cases e <;> rfl

@[simp] theorem eng_setEng (s : State) (c k : Nat) (e z : CE) (y : ClEng) :
    (s.setEng c e y).eng k z = if k = c ∧ z = e then y else s.eng k z := by
  simp only [eng_eq, State.setEng, core_setCore]
  by_cases h : k = c
  · subst h; simp
  · simp [h]

@[simp] theorem te_setTe (s : State) (c k : Nat) (t : Te) : (s.setTe c t).te k = if k = c then t else s.te k := by
  simp only [State.te, State.setTe, core_setCore]
  split <;> rfl

@[simp] theorem pun_setPun (s : State) (c p k j : Nat) (x : Punnet) :
    (s.setPun c p x).pun k j = if k = c ∧ j = p then x else s.pun k j := by
  simp only [State.pun, State.setPun, te_setTe]
  by_cases h : k = c
  · subst h; simp [Tbl.get_put]
  · simp [h]

@[simp] theorem queue_setQueue_same (s : State) (f q : Nat) (x : Queue) : (s.setQueue f q x).queue f q = x := by
  simp [State.queue, State.setQueue]

theorem queue_setQueue_other (s : State) (f q g r : Nat) (x : Queue) (h : 64 * g + r ≠ 64 * f + q) :
    (s.setQueue f q x).queue g r = s.queue g r := by
  simp [State.queue, State.setQueue, Tbl.get_put_other _ _ _ _ _ h]

@[simp] theorem ctx_setCtx (s : State) (x k : Nat) (v : Ctx) : (s.setCtx x v).ctx k = if k = x then v else s.ctx k :=
  Tbl.get_put s.hq.ctxs {} v x k

@[simp] theorem qslot_setQslot (s : State) (x k : Nat) (v : QSlot) :
    (s.setQslot x v).qslot k = if k = x then v else s.qslot k := Tbl.get_put s.hq.qslots {} v x k

@[simp] theorem port_setPort (s : State) (g k : Nat) (p : Port) : (s.setPort g p).port k = if k = g then p else s.port k :=
  Tbl.get_put s.lnk.ports {} p g k

@[simp] theorem fnS_setFnS (s : State) (f k : Nat) (x : FnSched) : (s.setFnS f x).fnS k = if k = f then x else s.fnS k :=
  Tbl.get_put s.sch.fns {} x f k

@[simp] theorem partS_setPartS (s : State) (p k : Nat) (x : PartSched) :
    (s.setPartS p x).partS k = if k = p then x else s.partS k := Tbl.get_put s.sch.parts {} x p k

@[simp] theorem acct_setAcct (s : State) (p k : Nat) (x : PartAcct) :
    (s.setAcct p x).acct k = if k = p then x else s.acct k := Tbl.get_put s.gov.parts {} x p k

@[simp] theorem conj_setConj_same (s : State) (x c : Nat) (v : Conj) : (s.setConj x c v).conj x c = v := by
  simp [State.conj, State.setConj]

@[simp] theorem wire_setWire (s : State) (w k : Nat) (v : Wire) : (s.setWire w v).wire k = if k = w then v else s.wire k :=
  Tbl.get_put s.syn.wires {} v w k

@[simp] theorem flt_setFlt (s : State) (f k : Nat) (l : FltLog) : (s.setFlt f l).flt k = if k = f then l else s.flt k :=
  Tbl.get_put s.ras.flt {} l f k

@[simp] theorem sk_setSk (s : State) (x k : Nat) (v : Sketch) : (s.setSk x v).sk k = if k = x then v else s.sk k :=
  Tbl.get_put s.sketch {} v x k

/-! ## Context slots and signals on their way -/

@[simp] theorem State.setSlot_time (s : State) (n : Nat) (v : CtxSlot) : (s.setSlot n v).time = s.time := rfl
@[simp] theorem State.setSlot_boot (s : State) (n : Nat) (v : CtxSlot) : (s.setSlot n v).boot = s.boot := rfl
@[simp] theorem State.setSlot_sb (s : State) (n : Nat) (v : CtxSlot) : (s.setSlot n v).sb = s.sb := rfl
@[simp] theorem State.setSlot_flash (s : State) (n : Nat) (v : CtxSlot) : (s.setSlot n v).flash = s.flash := rfl
@[simp] theorem State.setSlot_regs (s : State) (n : Nat) (v : CtxSlot) : (s.setSlot n v).regs = s.regs := rfl
@[simp] theorem State.setSlot_mem (s : State) (n : Nat) (v : CtxSlot) : (s.setSlot n v).mem = s.mem := rfl
@[simp] theorem State.setSlot_poison (s : State) (n : Nat) (v : CtxSlot) : (s.setSlot n v).poison = s.poison := rfl
@[simp] theorem State.setSlot_gov (s : State) (n : Nat) (v : CtxSlot) : (s.setSlot n v).gov = s.gov := rfl
@[simp] theorem State.setSlot_plt (s : State) (n : Nat) (v : CtxSlot) : (s.setSlot n v).plt = s.plt := rfl
@[simp] theorem State.setSlot_cores (s : State) (n : Nat) (v : CtxSlot) : (s.setSlot n v).cores = s.cores := rfl
@[simp] theorem State.setSlot_hq (s : State) (n : Nat) (v : CtxSlot) : (s.setSlot n v).hq = s.hq := rfl
@[simp] theorem State.setSlot_sch (s : State) (n : Nat) (v : CtxSlot) : (s.setSlot n v).sch = s.sch := rfl
@[simp] theorem State.setSlot_lnk (s : State) (n : Nat) (v : CtxSlot) : (s.setSlot n v).lnk = s.lnk := rfl
@[simp] theorem State.setSlot_ras (s : State) (n : Nat) (v : CtxSlot) : (s.setSlot n v).ras = s.ras := rfl
@[simp] theorem State.setSlot_mon (s : State) (n : Nat) (v : CtxSlot) : (s.setSlot n v).mon = s.mon := rfl
@[simp] theorem State.setSlot_trc (s : State) (n : Nat) (v : CtxSlot) : (s.setSlot n v).trc = s.trc := rfl
@[simp] theorem State.setSlot_sketch (s : State) (n : Nat) (v : CtxSlot) : (s.setSlot n v).sketch = s.sketch := rfl
@[simp] theorem State.setSlot_freeIdx (s : State) (n : Nat) (v : CtxSlot) : (s.setSlot n v).freeIdx = s.freeIdx := rfl
@[simp] theorem State.setSlot_pending (s : State) (n : Nat) (v : CtxSlot) : (s.setSlot n v).pending = s.pending := rfl
@[simp] theorem State.setSlot_core (s : State) (n : Nat) (v : CtxSlot) (k : Nat) : (s.setSlot n v).core k = s.core k := rfl
@[simp] theorem State.setSlot_te (s : State) (n : Nat) (v : CtxSlot) (k : Nat) : (s.setSlot n v).te k = s.te k := rfl
@[simp] theorem State.setSlot_pun (s : State) (n : Nat) (v : CtxSlot) (k j : Nat) : (s.setSlot n v).pun k j = s.pun k j := rfl
@[simp] theorem State.setSlot_queue (s : State) (n : Nat) (v : CtxSlot) (k j : Nat) : (s.setSlot n v).queue k j = s.queue k j := rfl
@[simp] theorem State.setSlot_ctx (s : State) (n : Nat) (v : CtxSlot) (k : Nat) : (s.setSlot n v).ctx k = s.ctx k := rfl
@[simp] theorem State.setSlot_qslot (s : State) (n : Nat) (v : CtxSlot) (k : Nat) : (s.setSlot n v).qslot k = s.qslot k := rfl
@[simp] theorem State.setSlot_port (s : State) (n : Nat) (v : CtxSlot) (k : Nat) : (s.setSlot n v).port k = s.port k := rfl
@[simp] theorem State.setSlot_fnS (s : State) (n : Nat) (v : CtxSlot) (k : Nat) : (s.setSlot n v).fnS k = s.fnS k := rfl
@[simp] theorem State.setSlot_partS (s : State) (n : Nat) (v : CtxSlot) (k : Nat) : (s.setSlot n v).partS k = s.partS k := rfl
@[simp] theorem State.setSlot_acct (s : State) (n : Nat) (v : CtxSlot) (k : Nat) : (s.setSlot n v).acct k = s.acct k := rfl
@[simp] theorem State.setSlot_conj (s : State) (n : Nat) (v : CtxSlot) (k j : Nat) : (s.setSlot n v).conj k j = s.conj k j := rfl
@[simp] theorem State.setSlot_wire (s : State) (n : Nat) (v : CtxSlot) (k : Nat) : (s.setSlot n v).wire k = s.wire k := rfl
@[simp] theorem State.setSlot_group (s : State) (n : Nat) (v : CtxSlot) (k j : Nat) : (s.setSlot n v).group k j = s.group k j := rfl
@[simp] theorem State.setSlot_flt (s : State) (n : Nat) (v : CtxSlot) (k : Nat) : (s.setSlot n v).flt k = s.flt k := rfl
@[simp] theorem State.setSlot_sk (s : State) (n : Nat) (v : CtxSlot) (k : Nat) : (s.setSlot n v).sk k = s.sk k := rfl

@[simp] theorem sendSignal_time (s : State) (g : Signal) : (sendSignal s g).time = s.time := rfl
@[simp] theorem sendSignal_boot (s : State) (g : Signal) : (sendSignal s g).boot = s.boot := rfl
@[simp] theorem sendSignal_sb (s : State) (g : Signal) : (sendSignal s g).sb = s.sb := rfl
@[simp] theorem sendSignal_flash (s : State) (g : Signal) : (sendSignal s g).flash = s.flash := rfl
@[simp] theorem sendSignal_regs (s : State) (g : Signal) : (sendSignal s g).regs = s.regs := rfl
@[simp] theorem sendSignal_mem (s : State) (g : Signal) : (sendSignal s g).mem = s.mem := rfl
@[simp] theorem sendSignal_poison (s : State) (g : Signal) : (sendSignal s g).poison = s.poison := rfl
@[simp] theorem sendSignal_gov (s : State) (g : Signal) : (sendSignal s g).gov = s.gov := rfl
@[simp] theorem sendSignal_plt (s : State) (g : Signal) : (sendSignal s g).plt = s.plt := rfl
@[simp] theorem sendSignal_cores (s : State) (g : Signal) : (sendSignal s g).cores = s.cores := rfl
@[simp] theorem sendSignal_hq (s : State) (g : Signal) : (sendSignal s g).hq = s.hq := rfl
@[simp] theorem sendSignal_sch (s : State) (g : Signal) : (sendSignal s g).sch = s.sch := rfl
@[simp] theorem sendSignal_lnk (s : State) (g : Signal) : (sendSignal s g).lnk = s.lnk := rfl
@[simp] theorem sendSignal_ras (s : State) (g : Signal) : (sendSignal s g).ras = s.ras := rfl
@[simp] theorem sendSignal_mon (s : State) (g : Signal) : (sendSignal s g).mon = s.mon := rfl
@[simp] theorem sendSignal_trc (s : State) (g : Signal) : (sendSignal s g).trc = s.trc := rfl
@[simp] theorem sendSignal_sketch (s : State) (g : Signal) : (sendSignal s g).sketch = s.sketch := rfl
@[simp] theorem sendSignal_freeIdx (s : State) (g : Signal) : (sendSignal s g).freeIdx = s.freeIdx := rfl
@[simp] theorem sendSignal_pending (s : State) (g : Signal) : (sendSignal s g).pending = s.pending := rfl
@[simp] theorem sendSignal_transit (s : State) (g : Signal) : (sendSignal s g).syn.transit = s.syn.transit ++ [g] := rfl
@[simp] theorem sendSignal_conj (s : State) (g : Signal) (k j : Nat) : (sendSignal s g).conj k j = s.conj k j := rfl
@[simp] theorem sendSignal_slot (s : State) (g : Signal) (k : Nat) : (sendSignal s g).slot k = s.slot k := rfl

@[simp] theorem slot_setSlot (s : State) (n k : Nat) (v : CtxSlot) :
    (s.setSlot n v).slot k = if k = n then v else s.slot k := Tbl.get_put s.syn.slots {} v n k

@[simp] theorem State.setCore_slot (s : State) (c : Nat) (x : Core) (k : Nat) : (s.setCore c x).slot k = s.slot k := rfl
@[simp] theorem State.setQueue_slot (s : State) (f q : Nat) (x : Queue) (k : Nat) : (s.setQueue f q x).slot k = s.slot k := rfl
@[simp] theorem State.setCtx_slot (s : State) (c : Nat) (x : Ctx) (k : Nat) : (s.setCtx c x).slot k = s.slot k := rfl
@[simp] theorem State.setPort_slot (s : State) (g : Nat) (x : Port) (k : Nat) : (s.setPort g x).slot k = s.slot k := rfl
@[simp] theorem State.setFnS_slot (s : State) (f : Nat) (x : FnSched) (k : Nat) : (s.setFnS f x).slot k = s.slot k := rfl
@[simp] theorem State.setPartS_slot (s : State) (p : Nat) (x : PartSched) (k : Nat) : (s.setPartS p x).slot k = s.slot k := rfl
@[simp] theorem State.setConj_slot (s : State) (x c : Nat) (v : Conj) (k : Nat) : (s.setConj x c v).slot k = s.slot k := rfl
@[simp] theorem State.setWire_slot (s : State) (w : Nat) (v : Wire) (k : Nat) : (s.setWire w v).slot k = s.slot k := rfl

/-- A register reads back what was written; the others hold what they held. -/
@[simp] theorem rd_wr (s : State) (a r : Nat) (v : W32) : rd (wr s a v) r = if r = a then v else rd s r := by
  unfold rd wr putReg
  by_cases h : r = a
  · subst h
    by_cases e : v = resetVal r <;> simp [e]
  · by_cases e : v = resetVal a
    · simp [e, h, look_delKey_other _ _ _ h]
    · simp [e, h, look_addKey_other _ _ _ _ h]

/-! ## Two updates of one place -/

@[simp] theorem setCore_freeIdx_update (s : State) (c : Nat) (x : Core) (n : Nat) :
    ({ s with freeIdx := n } : State).setCore c x = { s.setCore c x with freeIdx := n } := rfl

end Sys2Proof.Machine
end

