-- ==== Sys2Proof/Laws/Ops.lean ====
section
/-! SUPPORT. What the shared reporting operations (Machine/Ops.lean) can change: monitors, trace, error counters and logs,
MSI-X. One lemma per operation: its answer is the old state with the named parts replaced. -/

namespace Sys2Proof.Machine

/-- `upTo` with a turn that only replaces the monitors only replaces the monitors. -/
theorem upTo_mon (n : Nat) (s : State) (f : State → Nat → State)
    (h : ∀ (t : State) (k : Nat), ∃ m, f t k = { t with mon := m }) : ∃ m, upTo n s f = { s with mon := m } :=
  upTo_induct (fun t : State => ∃ m, t = { s with mon := m }) n s f ⟨s.mon, rfl⟩
    (fun t k ⟨m, e⟩ => by obtain ⟨m', e'⟩ := h t k; exact ⟨m', by rw [e', e]⟩)

theorem monEvent_eq (s : State) (ev inst n : Nat) : ∃ m, monEvent s ev inst n = { s with mon := m } := by
  unfold monEvent
  split
  · exact ⟨s.mon, rfl⟩
  · refine upTo_mon 64 s _ (fun t k => ?_)
    dsimp only
    split
    · exact ⟨_, rfl⟩
    · exact ⟨t.mon, rfl⟩

theorem monSample_eq (s : State) (level : Bool) (src inst v : Nat) :
    ∃ m, monSample s level src inst v = { s with mon := m } := by
  unfold monSample
  split
  · exact ⟨s.mon, rfl⟩
  · refine upTo_mon 64 s _ (fun t k => ?_)
    dsimp only
    split
    · exact ⟨_, rfl⟩
    · exact ⟨t.mon, rfl⟩

theorem trcPush_eq (s : State) (c : Nat) (r : TrcRec) : ∃ m t, trcPush s c r = { s with mon := m, trc := t } := by
  unfold trcPush
  dsimp only
  split
  · obtain ⟨m, h⟩ := monEvent_eq { s with trc := { s.trc with
      dropped := (s.trc.dropped + 1) % 2 ^ 64, lostFlag := true, lost := s.trc.lost.put 0 c (s.trc.lost.get 0 c + 1) } } 19 0 1
    exact ⟨m, _, h⟩
  · exact ⟨s.mon, _, rfl⟩

theorem freezeFrom_eq (s : State) (src : Nat) : ∃ m, freezeFrom s src = { s with mon := m } := by
  unfold freezeFrom
  split
  · exact ⟨_, rfl⟩
  · exact ⟨s.mon, rfl⟩

/-- A conditional push of a record. -/
theorem trcIf_eq (s : State) (b : Bool) (c : Nat) (r : TrcRec) :
    ∃ m t, (if b = true then trcPush s c r else s) = { s with mon := m, trc := t } := by
  cases b
  · exact ⟨s.mon, s.trc, rfl⟩
  · exact trcPush_eq s c r

/-- Noting a BEGIN marks the command and may let a freeze source fire. -/
theorem noteBegin_eq (s : State) (r : CmdRef) : ∃ m h, noteBegin s r = { s with mon := m, hq := h } := by
  unfold noteBegin
  dsimp only
  generalize (fun k : Cmd => if r.hits k then { k with begun := true } else k) = f
  split
  · obtain ⟨m, h⟩ := freezeFrom_eq (s.setQueue r.fn r.q { s.queue r.fn r.q with cmds := (s.queue r.fn r.q).cmds.map f }) 3
    exact ⟨m, _, h⟩
  · exact ⟨s.mon, _, rfl⟩

theorem trcEng_eq (s : State) (kind c : Nat) (e : Eng) (ctx : Nat) (r : CmdRef) (tag : W16) (outcome : Nat) :
    ∃ m t h, trcEng s kind c e ctx r tag outcome = { s with mon := m, trc := t, hq := h } := by
  unfold trcEng
  dsimp only
  generalize hx : @ite State (_ = true) (instDecidableEqBool _ true) (trcPush s c _) s = x
  obtain ⟨m, t, rfl⟩ : ∃ m t, x = { s with mon := m, trc := t } := hx ▸ trcIf_eq s _ c _
  split
  · obtain ⟨m', h', e'⟩ := noteBegin_eq { s with mon := m, trc := t } r
    exact ⟨m', t, h', e'⟩
  · exact ⟨m, t, s.hq, rfl⟩

theorem trcCommit_eq (s : State) (ctx : Nat) (r : CmdRef) (tag : W16) (status flags : Nat) :
    ∃ m t, trcCommit s ctx r tag status flags = { s with mon := m, trc := t } := by
  unfold trcCommit
  split
  · exact trcPush_eq _ _ _
  · exact ⟨s.mon, s.trc, rfl⟩

theorem msix_eq (s : State) (f v : Nat) : ∃ r h, msix s f v = { s with regs := r, hq := h } := by
  unfold msix
  split
  · exact ⟨_, s.hq, rfl⟩
  · exact ⟨s.regs, _, rfl⟩

theorem rasCount_eq (s : State) (code : Nat) : ∃ r, rasCount s code = { s with regs := r } := by
  unfold rasCount
  dsimp only
  split
  · exact ⟨_, rfl⟩
  · exact ⟨_, rfl⟩

theorem chipEntry_eq (s : State) (code sub block inst detail : Nat) :
    ∃ r, chipEntry s code sub block inst detail = { s with ras := r } := by
  unfold chipEntry
  dsimp only
  split
  · split
    · exact ⟨_, rfl⟩
    · exact ⟨_, rfl⟩
  · exact ⟨_, rfl⟩

theorem chipErr_eq (s : State) (code sub block inst detail : Nat) :
    ∃ r l, chipErr s code sub block inst detail = { s with regs := r, ras := l } := by
  unfold chipErr
  obtain ⟨r, h⟩ := rasCount_eq s code
  obtain ⟨l, h'⟩ := chipEntry_eq (rasCount s code) code sub block inst detail
  exact ⟨r, l, by rw [h', h]⟩

/-- A message sent from a state that differs in the logs only. -/
theorem msix_ras (s t : State) (l : Ras) (h : t = { s with ras := l }) (f v : Nat) :
    ∃ g l h, msix t f v = { s with regs := g, ras := l, hq := h } := by
  subst h
  obtain ⟨g, h, e⟩ := msix_eq { s with ras := l } f v
  exact ⟨g, l, h, e⟩

theorem fnNew_eq (s : State) (f : Nat) (r : FltRec) : ∃ g l h, fnNew s f r = { s with regs := g, ras := l, hq := h } := by
  unfold fnNew
  dsimp only
  split
  · exact ⟨_, _, s.hq, rfl⟩
  · split
    · exact msix_ras s _ _ rfl _ _
    · exact ⟨s.regs, _, s.hq, rfl⟩

theorem fnCoal_eq (s : State) (f : Nat) (r : FltRec) : ∃ g l h, fnCoal s f r = { s with regs := g, ras := l, hq := h } := by
  unfold fnCoal
  dsimp only
  split
  · split
    · exact ⟨s.regs, _, s.hq, rfl⟩
    · exact fnNew_eq s f r
  · exact fnNew_eq s f r

/-- A record made from a state that differs in the register file only. -/
theorem fnNew_regs (s t : State) (g0 : List (Nat × W32)) (h0 : t = { s with regs := g0 }) (f : Nat) (r : FltRec) :
    ∃ g l h, fnNew t f r = { s with regs := g, ras := l, hq := h } := by
  subst h0
  obtain ⟨g, l, h, e⟩ := fnNew_eq { s with regs := g0 } f r
  exact ⟨g, l, h, e⟩

theorem engineFault_eq (s : State) (f : Nat) (r : FltRec) :
    ∃ g l h, engineFault s f r = { s with regs := g, ras := l, hq := h } := by
  unfold engineFault
  generalize hx : inc16 s (fnErrA f r.code) = x
  have h1 : x = { s with regs := x.regs } := by rw [← hx]; rfl
  by_cases hc : r.code = 0x02
  · simp only [hc, if_true]
    exact fnNew_regs s (inc16 x (mmuA f 6)) (inc16 x (mmuA f 6)).regs (by rw [h1]; rfl) f r
  · simp only [hc, if_false]
    exact fnNew_regs s x x.regs h1 f r

theorem raiseLoss_eq (s : State) (b : Nat) : ∃ r l, raiseLoss s b = { s with regs := r, ras := l } := by
  obtain ⟨r, l, e⟩ := chipErr_eq (inc16 (wrF s 0x00030004 b 1 1) 0x00030008) 0x44 0 2 0 0
  exact ⟨r, l, e⟩

end Sys2Proof.Machine
end

