-- ==== Sys2Proof/Laws/PerInstr.lean ====
section
/-! SUPPORT. Laws per constructor. The table gives its rows no bits, so no word spells a command of any row. -/

namespace Sys2Proof

/-- No word of the table spells the command. -/
def Laws.RowWord.Statement (i : Instr) : Prop := ∀ nbits w : Nat, decodeTableWord nbits w ≠ some i

theorem Laws.RowWord.of_none (i : Instr) : Laws.RowWord.Statement i := by simp [Laws.RowWord.Statement, decodeTableWord]

theorem Laws.RowWord.pwrgoodRise (st : Straps) : Laws.RowWord.Statement (.pwrgoodRise st) := of_none _
theorem Laws.RowWord.pwrgoodFall : Laws.RowWord.Statement (.pwrgoodFall) := of_none _
theorem Laws.RowWord.perstAssert : Laws.RowWord.Statement (.perstAssert) := of_none _
theorem Laws.RowWord.perstDeassert (st : Straps) : Laws.RowWord.Statement (.perstDeassert st) := of_none _
theorem Laws.RowWord.fatalN (cause : FatalCause) : Laws.RowWord.Statement (.fatalN cause) := of_none _
theorem Laws.RowWord.lrefLoss : Laws.RowWord.Statement (.lrefLoss) := of_none _
theorem Laws.RowWord.strapComplete : Laws.RowWord.Statement (.strapComplete) := of_none _
theorem Laws.RowWord.sfdpDiscoveryDone (sf : Option Sfdp) : Laws.RowWord.Statement (.sfdpDiscoveryDone sf) := of_none _
theorem Laws.RowWord.copyReadDone (k : Slot) : Laws.RowWord.Statement (.copyReadDone k) := of_none _
theorem Laws.RowWord.signatureCheckDone : Laws.RowWord.Statement (.signatureCheckDone) := of_none _
theorem Laws.RowWord.charterLoadDone : Laws.RowWord.Statement (.charterLoadDone) := of_none _
theorem Laws.RowWord.charterLoadTimeout : Laws.RowWord.Statement (.charterLoadTimeout) := of_none _
theorem Laws.RowWord.sramClearDone : Laws.RowWord.Statement (.sramClearDone) := of_none _
theorem Laws.RowWord.hbmTrainingDone (trained : BitVec 8) : Laws.RowWord.Statement (.hbmTrainingDone trained) := of_none _
theorem Laws.RowWord.pumpTachWindowExpiry : Laws.RowWord.Statement (.pumpTachWindowExpiry) := of_none _
theorem Laws.RowWord.plantArmDone (conv : Option ConvAnswer) (vCode : BitVec 12) : Laws.RowWord.Statement (.plantArmDone conv vCode) := of_none _
theorem Laws.RowWord.configRetry : Laws.RowWord.Statement (.configRetry) := of_none _
theorem Laws.RowWord.flashAddr (pec : Bool) (addr : W32) : Laws.RowWord.Statement (.flashAddr pec addr) := of_none _
theorem Laws.RowWord.flashWrite (pec : Bool) (bytes : List Byte) : Laws.RowWord.Statement (.flashWrite pec bytes) := of_none _
theorem Laws.RowWord.flashRead (pec : Bool) : Laws.RowWord.Statement (.flashRead pec) := of_none _
theorem Laws.RowWord.flashErase4k (pec : Bool) : Laws.RowWord.Statement (.flashErase4k pec) := of_none _
theorem Laws.RowWord.flashErase64k (pec : Bool) : Laws.RowWord.Statement (.flashErase64k pec) := of_none _
theorem Laws.RowWord.flashStatus (pec : Bool) : Laws.RowWord.Statement (.flashStatus pec) := of_none _
theorem Laws.RowWord.flashUnlock (pec : Bool) (v : Byte) : Laws.RowWord.Statement (.flashUnlock pec v) := of_none _
theorem Laws.RowWord.chipReset (pec : Bool) (v : Byte) : Laws.RowWord.Statement (.chipReset pec v) := of_none _
theorem Laws.RowWord.deviceState (pec : Bool) : Laws.RowWord.Statement (.deviceState pec) := of_none _
theorem Laws.RowWord.sidebandUnknownCommand (code : Byte) : Laws.RowWord.Statement (.sidebandUnknownCommand code) := of_none _
theorem Laws.RowWord.flashOperationDone (ok : Bool) : Laws.RowWord.Statement (.flashOperationDone ok) := of_none _
theorem Laws.RowWord.resetTaken : Laws.RowWord.Statement (.resetTaken) := of_none _
theorem Laws.RowWord.governorTick (i : TickIn) : Laws.RowWord.Statement (.governorTick i) := of_none _
theorem Laws.RowWord.epochEnd : Laws.RowWord.Statement (.epochEnd) := of_none _
theorem Laws.RowWord.carryRollover : Laws.RowWord.Statement (.carryRollover) := of_none _
theorem Laws.RowWord.ledgerWrap : Laws.RowWord.Statement (.ledgerWrap) := of_none _
theorem Laws.RowWord.telemetryWindowEnd (tel : TelWindow) : Laws.RowWord.Statement (.telemetryWindowEnd tel) := of_none _
theorem Laws.RowWord.comparatorDivergence (p : List DivAt) (a b : List Nat) :
    Laws.RowWord.Statement (.comparatorDivergence p a b) := of_none _
theorem Laws.RowWord.latentDivergence (l : List DivAt) : Laws.RowWord.Statement (.latentDivergence l) := of_none _
theorem Laws.RowWord.resyncHalfFrame : Laws.RowWord.Statement (.resyncHalfFrame) := of_none _
theorem Laws.RowWord.resyncCopyDone : Laws.RowWord.Statement (.resyncCopyDone) := of_none _
theorem Laws.RowWord.resyncComplete : Laws.RowWord.Statement (.resyncComplete) := of_none _
theorem Laws.RowWord.heartbeatInject (g : Gv) : Laws.RowWord.Statement (.heartbeatInject g) := of_none _
theorem Laws.RowWord.heartbeatFlagged (g : Gv) : Laws.RowWord.Statement (.heartbeatFlagged g) := of_none _
theorem Laws.RowWord.heartbeatDeadline (g : Gv) : Laws.RowWord.Statement (.heartbeatDeadline g) := of_none _
theorem Laws.RowWord.trvUpset (fld : TrvField) (c0 c1 c2 : Nat) : Laws.RowWord.Statement (.trvUpset fld c0 c1 c2) := of_none _
theorem Laws.RowWord.parityScan (hits : List ParityHit) : Laws.RowWord.Statement (.parityScan hits) := of_none _
theorem Laws.RowWord.parityRepair (addr : Nat) : Laws.RowWord.Statement (.parityRepair addr) := of_none _
theorem Laws.RowWord.govSnapRequest : Laws.RowWord.Statement (.govSnapRequest) := of_none _
theorem Laws.RowWord.govSnapCapture : Laws.RowWord.Statement (.govSnapCapture) := of_none _
theorem Laws.RowWord.clampRelease : Laws.RowWord.Statement (.clampRelease) := of_none _
theorem Laws.RowWord.clampKStep : Laws.RowWord.Statement (.clampKStep) := of_none _
theorem Laws.RowWord.reservoirLoop : Laws.RowWord.Statement (.reservoirLoop) := of_none _
theorem Laws.RowWord.reconcileDue : Laws.RowWord.Statement (.reconcileDue) := of_none _
theorem Laws.RowWord.reconcileSkip : Laws.RowWord.Statement (.reconcileSkip) := of_none _
theorem Laws.RowWord.pumpLoop (rpm : W16) : Laws.RowWord.Statement (.pumpLoop rpm) := of_none _
theorem Laws.RowWord.valveLoop : Laws.RowWord.Statement (.valveLoop) := of_none _
theorem Laws.RowWord.voltageLoop (n : Fin 8) (slack : Int) (ack : Bool) : Laws.RowWord.Statement (.voltageLoop n slack ack) := of_none _
theorem Laws.RowWord.sensorPoll (rd : List (Option Int)) : Laws.RowWord.Statement (.sensorPoll rd) := of_none _
theorem Laws.RowWord.droopStretch (c : CoreId) : Laws.RowWord.Statement (.droopStretch c) := of_none _
theorem Laws.RowWord.droopRelease (c : CoreId) : Laws.RowWord.Statement (.droopRelease c) := of_none _
theorem Laws.RowWord.junctionRead (rd : List (Option Int)) : Laws.RowWord.Statement (.junctionRead rd) := of_none _
theorem Laws.RowWord.junctionCeilingStep (c : CoreId) : Laws.RowWord.Statement (.junctionCeilingStep c) := of_none _
theorem Laws.RowWord.inletOver : Laws.RowWord.Statement (.inletOver) := of_none _
theorem Laws.RowWord.inletOverClear : Laws.RowWord.Statement (.inletOverClear) := of_none _
theorem Laws.RowWord.sensorLost (l : Loss) : Laws.RowWord.Statement (.sensorLost l) := of_none _
theorem Laws.RowWord.flowGate (pulses : Nat) : Laws.RowWord.Statement (.flowGate pulses) := of_none _
theorem Laws.RowWord.lossResponseEnd (l : Loss) : Laws.RowWord.Statement (.lossResponseEnd l) := of_none _
theorem Laws.RowWord.clauseFetch (c : CoreId) (e : CE) : Laws.RowWord.Statement (.clauseFetch c e) := of_none _
theorem Laws.RowWord.clauseIssue (c : CoreId) (e : CE) : Laws.RowWord.Statement (.clauseIssue c e) := of_none _
theorem Laws.RowWord.resultLand (c : CoreId) (e : CE) : Laws.RowWord.Statement (.resultLand c e) := of_none _
theorem Laws.RowWord.transferComplete (c : CoreId) (n : Nat) : Laws.RowWord.Statement (.transferComplete c n) := of_none _
theorem Laws.RowWord.streamEnd (c : CoreId) (e : CE) : Laws.RowWord.Statement (.streamEnd c e) := of_none _
theorem Laws.RowWord.jmp (c : CoreId) (e : CE) : Laws.RowWord.Statement (.jmp c e) := of_none _
theorem Laws.RowWord.brz (c : CoreId) (e : CE) : Laws.RowWord.Statement (.brz c e) := of_none _
theorem Laws.RowWord.brnz (c : CoreId) (e : CE) : Laws.RowWord.Statement (.brnz c e) := of_none _
theorem Laws.RowWord.loop (c : CoreId) (e : CE) : Laws.RowWord.Statement (.loop c e) := of_none _
theorem Laws.RowWord.setlc (c : CoreId) (e : CE) : Laws.RowWord.Statement (.setlc c e) := of_none _
theorem Laws.RowWord.sig (c : CoreId) (e : CE) : Laws.RowWord.Statement (.sig c e) := of_none _
theorem Laws.RowWord.wait (c : CoreId) (e : CE) : Laws.RowWord.Statement (.wait c e) := of_none _
theorem Laws.RowWord.bwArrive (c : CoreId) (e : CE) : Laws.RowWord.Statement (.bwArrive c e) := of_none _
theorem Laws.RowWord.bwWait (c : CoreId) (e : CE) : Laws.RowWord.Statement (.bwWait c e) := of_none _
theorem Laws.RowWord.gbArrive (c : CoreId) (e : CE) : Laws.RowWord.Statement (.gbArrive c e) := of_none _
theorem Laws.RowWord.gbWait (c : CoreId) (e : CE) : Laws.RowWord.Statement (.gbWait c e) := of_none _
theorem Laws.RowWord.gbTrackerFreed (p : PartId) : Laws.RowWord.Statement (.gbTrackerFreed p) := of_none _
theorem Laws.RowWord.agLin (c : CoreId) (e : CE) : Laws.RowWord.Statement (.agLin c e) := of_none _
theorem Laws.RowWord.agNoun (c : CoreId) (e : CE) : Laws.RowWord.Statement (.agNoun c e) := of_none _
theorem Laws.RowWord.agIdx (c : CoreId) (e : CE) : Laws.RowWord.Statement (.agIdx c e) := of_none _
theorem Laws.RowWord.agStep0 (c : CoreId) (e : CE) : Laws.RowWord.Statement (.agStep0 c e) := of_none _
theorem Laws.RowWord.agStep1 (c : CoreId) (e : CE) : Laws.RowWord.Statement (.agStep1 c e) := of_none _
theorem Laws.RowWord.agAdd (c : CoreId) (e : CE) : Laws.RowWord.Statement (.agAdd c e) := of_none _
theorem Laws.RowWord.agReset (c : CoreId) (e : CE) : Laws.RowWord.Statement (.agReset c e) := of_none _
theorem Laws.RowWord.ldA (c : CoreId) : Laws.RowWord.Statement (.ldA c) := of_none _
theorem Laws.RowWord.ldB (c : CoreId) : Laws.RowWord.Statement (.ldB c) := of_none _
theorem Laws.RowWord.ldRow (c : CoreId) : Laws.RowWord.Statement (.ldRow c) := of_none _
theorem Laws.RowWord.mma (c : CoreId) : Laws.RowWord.Statement (.mma c) := of_none _
theorem Laws.RowWord.mmaAcc (c : CoreId) : Laws.RowWord.Statement (.mmaAcc c) := of_none _
theorem Laws.RowWord.shift (c : CoreId) : Laws.RowWord.Statement (.shift c) := of_none _
theorem Laws.RowWord.zero (c : CoreId) : Laws.RowWord.Statement (.zero c) := of_none _
theorem Laws.RowWord.drain (c : CoreId) : Laws.RowWord.Statement (.drain c) := of_none _
theorem Laws.RowWord.drainZ (c : CoreId) : Laws.RowWord.Statement (.drainZ c) := of_none _
theorem Laws.RowWord.copy (c : CoreId) : Laws.RowWord.Statement (.copy c) := of_none _
theorem Laws.RowWord.reshape (c : CoreId) : Laws.RowWord.Statement (.reshape c) := of_none _
theorem Laws.RowWord.convert (c : CoreId) : Laws.RowWord.Statement (.convert c) := of_none _
theorem Laws.RowWord.gather (c : CoreId) : Laws.RowWord.Statement (.gather c) := of_none _
theorem Laws.RowWord.scatter (c : CoreId) : Laws.RowWord.Statement (.scatter c) := of_none _
theorem Laws.RowWord.embedPool (c : CoreId) : Laws.RowWord.Statement (.embedPool c) := of_none _
theorem Laws.RowWord.embedGather (c : CoreId) : Laws.RowWord.Statement (.embedGather c) := of_none _
theorem Laws.RowWord.linkPut (c : CoreId) : Laws.RowWord.Statement (.linkPut c) := of_none _
theorem Laws.RowWord.linkGet (c : CoreId) : Laws.RowWord.Statement (.linkGet c) := of_none _
theorem Laws.RowWord.add (c : CoreId) (e : CE) : Laws.RowWord.Statement (.add c e) := of_none _
theorem Laws.RowWord.sub (c : CoreId) (e : CE) : Laws.RowWord.Statement (.sub c e) := of_none _
theorem Laws.RowWord.and (c : CoreId) (e : CE) : Laws.RowWord.Statement (.and c e) := of_none _
theorem Laws.RowWord.or (c : CoreId) (e : CE) : Laws.RowWord.Statement (.or c e) := of_none _
theorem Laws.RowWord.xor (c : CoreId) (e : CE) : Laws.RowWord.Statement (.xor c e) := of_none _
theorem Laws.RowWord.shl (c : CoreId) (e : CE) : Laws.RowWord.Statement (.shl c e) := of_none _
theorem Laws.RowWord.shr (c : CoreId) (e : CE) : Laws.RowWord.Statement (.shr c e) := of_none _
theorem Laws.RowWord.mul (c : CoreId) (e : CE) : Laws.RowWord.Statement (.mul c e) := of_none _
theorem Laws.RowWord.movi (c : CoreId) (e : CE) : Laws.RowWord.Statement (.movi c e) := of_none _
theorem Laws.RowWord.movhi (c : CoreId) (e : CE) : Laws.RowWord.Statement (.movhi c e) := of_none _
theorem Laws.RowWord.lds (c : CoreId) (e : CE) : Laws.RowWord.Statement (.lds c e) := of_none _
theorem Laws.RowWord.sts (c : CoreId) (e : CE) : Laws.RowWord.Statement (.sts c e) := of_none _
theorem Laws.RowWord.rdag (c : CoreId) (e : CE) : Laws.RowWord.Statement (.rdag c e) := of_none _
theorem Laws.RowWord.rdtime (c : CoreId) (e : CE) : Laws.RowWord.Statement (.rdtime c e) := of_none _
theorem Laws.RowWord.hazardResume (c : CoreId) (e : CE) : Laws.RowWord.Statement (.hazardResume c e) := of_none _
theorem Laws.RowWord.hazardKill (c : CoreId) (e : CE) : Laws.RowWord.Statement (.hazardKill c e) := of_none _
theorem Laws.RowWord.stopPointReached (c : CoreId) (e : CE) : Laws.RowWord.Statement (.stopPointReached c e) := of_none _
theorem Laws.RowWord.stopTimeout (c : CoreId) (e : CE) : Laws.RowWord.Statement (.stopTimeout c e) := of_none _
theorem Laws.RowWord.preemptCopyDone (c : CoreId) (e : Eng) : Laws.RowWord.Statement (.preemptCopyDone c e) := of_none _
theorem Laws.RowWord.bufferWriteOutDone (c : CoreId) : Laws.RowWord.Statement (.bufferWriteOutDone c) := of_none _
theorem Laws.RowWord.streamRestore (c : CoreId) (e : Eng) : Laws.RowWord.Statement (.streamRestore c e) := of_none _
theorem Laws.RowWord.gleanWindowClose (c : CoreId) : Laws.RowWord.Statement (.gleanWindowClose c) := of_none _
theorem Laws.RowWord.gleanPassStart (c : CoreId) : Laws.RowWord.Statement (.gleanPassStart c) := of_none _
theorem Laws.RowWord.gleanRequestDone (c : CoreId) : Laws.RowWord.Statement (.gleanRequestDone c) := of_none _
theorem Laws.RowWord.blockLaunch (c : CoreId) : Laws.RowWord.Statement (.blockLaunch c) := of_none _
theorem Laws.RowWord.blockEnd (c : CoreId) (b : Nat) : Laws.RowWord.Statement (.blockEnd c b) := of_none _
theorem Laws.RowWord.iadd (c : CoreId) (p : PunId) (w : W64) : Laws.RowWord.Statement (.iadd c p w) := of_none _
theorem Laws.RowWord.isub (c : CoreId) (p : PunId) (w : W64) : Laws.RowWord.Statement (.isub c p w) := of_none _
theorem Laws.RowWord.imul (c : CoreId) (p : PunId) (w : W64) : Laws.RowWord.Statement (.imul c p w) := of_none _
theorem Laws.RowWord.imulhi (c : CoreId) (p : PunId) (w : W64) : Laws.RowWord.Statement (.imulhi c p w) := of_none _
theorem Laws.RowWord.imad (c : CoreId) (p : PunId) (w : W64) : Laws.RowWord.Statement (.imad c p w) := of_none _
theorem Laws.RowWord.imin (c : CoreId) (p : PunId) (w : W64) : Laws.RowWord.Statement (.imin c p w) := of_none _
theorem Laws.RowWord.imax (c : CoreId) (p : PunId) (w : W64) : Laws.RowWord.Statement (.imax c p w) := of_none _
theorem Laws.RowWord.teAnd (c : CoreId) (p : PunId) (w : W64) : Laws.RowWord.Statement (.teAnd c p w) := of_none _
theorem Laws.RowWord.teOr (c : CoreId) (p : PunId) (w : W64) : Laws.RowWord.Statement (.teOr c p w) := of_none _
theorem Laws.RowWord.teXor (c : CoreId) (p : PunId) (w : W64) : Laws.RowWord.Statement (.teXor c p w) := of_none _
theorem Laws.RowWord.teShl (c : CoreId) (p : PunId) (w : W64) : Laws.RowWord.Statement (.teShl c p w) := of_none _
theorem Laws.RowWord.teShr (c : CoreId) (p : PunId) (w : W64) : Laws.RowWord.Statement (.teShr c p w) := of_none _
theorem Laws.RowWord.popc (c : CoreId) (p : PunId) (w : W64) : Laws.RowWord.Statement (.popc c p w) := of_none _
theorem Laws.RowWord.clz (c : CoreId) (p : PunId) (w : W64) : Laws.RowWord.Statement (.clz c p w) := of_none _
theorem Laws.RowWord.brev (c : CoreId) (p : PunId) (w : W64) : Laws.RowWord.Statement (.brev c p w) := of_none _
theorem Laws.RowWord.sel (c : CoreId) (p : PunId) (w : W64) : Laws.RowWord.Statement (.sel c p w) := of_none _
theorem Laws.RowWord.mov (c : CoreId) (p : PunId) (w : W64) : Laws.RowWord.Statement (.mov c p w) := of_none _
theorem Laws.RowWord.teMovi (c : CoreId) (p : PunId) (w : W64) : Laws.RowWord.Statement (.teMovi c p w) := of_none _
theorem Laws.RowWord.icmp (c : CoreId) (p : PunId) (w : W64) : Laws.RowWord.Statement (.icmp c p w) := of_none _
theorem Laws.RowWord.teMovhi (c : CoreId) (p : PunId) (w : W64) : Laws.RowWord.Statement (.teMovhi c p w) := of_none _
theorem Laws.RowWord.fadd (c : CoreId) (p : PunId) (w : W64) : Laws.RowWord.Statement (.fadd c p w) := of_none _
theorem Laws.RowWord.fsub (c : CoreId) (p : PunId) (w : W64) : Laws.RowWord.Statement (.fsub c p w) := of_none _
theorem Laws.RowWord.fmul (c : CoreId) (p : PunId) (w : W64) : Laws.RowWord.Statement (.fmul c p w) := of_none _
theorem Laws.RowWord.ffma (c : CoreId) (p : PunId) (w : W64) : Laws.RowWord.Statement (.ffma c p w) := of_none _
theorem Laws.RowWord.fmin (c : CoreId) (p : PunId) (w : W64) : Laws.RowWord.Statement (.fmin c p w) := of_none _
theorem Laws.RowWord.fmax (c : CoreId) (p : PunId) (w : W64) : Laws.RowWord.Statement (.fmax c p w) := of_none _
theorem Laws.RowWord.fcmp (c : CoreId) (p : PunId) (w : W64) : Laws.RowWord.Statement (.fcmp c p w) := of_none _
theorem Laws.RowWord.fdiv (c : CoreId) (p : PunId) (w : W64) : Laws.RowWord.Statement (.fdiv c p w) := of_none _
theorem Laws.RowWord.fsqrt (c : CoreId) (p : PunId) (w : W64) : Laws.RowWord.Statement (.fsqrt c p w) := of_none _
theorem Laws.RowWord.frcp (c : CoreId) (p : PunId) (w : W64) : Laws.RowWord.Statement (.frcp c p w) := of_none _
theorem Laws.RowWord.frsq (c : CoreId) (p : PunId) (w : W64) : Laws.RowWord.Statement (.frsq c p w) := of_none _
theorem Laws.RowWord.fexp2 (c : CoreId) (p : PunId) (w : W64) : Laws.RowWord.Statement (.fexp2 c p w) := of_none _
theorem Laws.RowWord.flog2 (c : CoreId) (p : PunId) (w : W64) : Laws.RowWord.Statement (.flog2 c p w) := of_none _
theorem Laws.RowWord.fsin (c : CoreId) (p : PunId) (w : W64) : Laws.RowWord.Statement (.fsin c p w) := of_none _
theorem Laws.RowWord.fcos (c : CoreId) (p : PunId) (w : W64) : Laws.RowWord.Statement (.fcos c p w) := of_none _
theorem Laws.RowWord.cvt (c : CoreId) (p : PunId) (w : W64) : Laws.RowWord.Statement (.cvt c p w) := of_none _
theorem Laws.RowWord.pcomb (c : CoreId) (p : PunId) (w : W64) : Laws.RowWord.Statement (.pcomb c p w) := of_none _
theorem Laws.RowWord.lpoll (c : CoreId) (p : PunId) (w : W64) : Laws.RowWord.Statement (.lpoll c p w) := of_none _
theorem Laws.RowWord.xlane (c : CoreId) (p : PunId) (w : W64) : Laws.RowWord.Statement (.xlane c p w) := of_none _
theorem Laws.RowWord.v2u (c : CoreId) (p : PunId) (w : W64) : Laws.RowWord.Statement (.v2u c p w) := of_none _
theorem Laws.RowWord.rdsr (c : CoreId) (p : PunId) (w : W64) : Laws.RowWord.Statement (.rdsr c p w) := of_none _
theorem Laws.RowWord.ld (c : CoreId) (p : PunId) (w : W64) : Laws.RowWord.Statement (.ld c p w) := of_none _
theorem Laws.RowWord.l1Fill (c : CoreId) (n : Nat) : Laws.RowWord.Statement (.l1Fill c n) := of_none _
theorem Laws.RowWord.st (c : CoreId) (p : PunId) (w : W64) : Laws.RowWord.Statement (.st c p w) := of_none _
theorem Laws.RowWord.atom (c : CoreId) (p : PunId) (w : W64) : Laws.RowWord.Statement (.atom c p w) := of_none _
theorem Laws.RowWord.fence (c : CoreId) (p : PunId) (w : W64) : Laws.RowWord.Statement (.fence c p w) := of_none _
theorem Laws.RowWord.bra (c : CoreId) (p : PunId) (w : W64) : Laws.RowWord.Statement (.bra c p w) := of_none _
theorem Laws.RowWord.call (c : CoreId) (p : PunId) (w : W64) : Laws.RowWord.Statement (.call c p w) := of_none _
theorem Laws.RowWord.brx (c : CoreId) (p : PunId) (w : W64) : Laws.RowWord.Statement (.brx c p w) := of_none _
theorem Laws.RowWord.exit (c : CoreId) (p : PunId) (w : W64) : Laws.RowWord.Statement (.exit c p w) := of_none _
theorem Laws.RowWord.teNop (c : CoreId) (p : PunId) (w : W64) : Laws.RowWord.Statement (.teNop c p w) := of_none _
theorem Laws.RowWord.trap (c : CoreId) (p : PunId) (w : W64) : Laws.RowWord.Statement (.trap c p w) := of_none _
theorem Laws.RowWord.brk (c : CoreId) (p : PunId) (w : W64) : Laws.RowWord.Statement (.brk c p w) := of_none _
theorem Laws.RowWord.barBlock (c : CoreId) (p : PunId) (w : W64) : Laws.RowWord.Statement (.barBlock c p w) := of_none _
theorem Laws.RowWord.cjSig (c : CoreId) (p : PunId) (w : W64) : Laws.RowWord.Statement (.cjSig c p w) := of_none _
theorem Laws.RowWord.cjWait (c : CoreId) (p : PunId) (w : W64) : Laws.RowWord.Statement (.cjWait c p w) := of_none _
theorem Laws.RowWord.cjRead (c : CoreId) (p : PunId) (w : W64) : Laws.RowWord.Statement (.cjRead c p w) := of_none _
theorem Laws.RowWord.teBwArrive (c : CoreId) (p : PunId) (w : W64) : Laws.RowWord.Statement (.teBwArrive c p w) := of_none _
theorem Laws.RowWord.teBwWait (c : CoreId) (p : PunId) (w : W64) : Laws.RowWord.Statement (.teBwWait c p w) := of_none _
theorem Laws.RowWord.teGbArrive (c : CoreId) (p : PunId) (w : W64) : Laws.RowWord.Statement (.teGbArrive c p w) := of_none _
theorem Laws.RowWord.teGbWait (c : CoreId) (p : PunId) (w : W64) : Laws.RowWord.Statement (.teGbWait c p w) := of_none _
theorem Laws.RowWord.replay (c : CoreId) : Laws.RowWord.Statement (.replay c) := of_none _
theorem Laws.RowWord.punnetKill (c : CoreId) : Laws.RowWord.Statement (.punnetKill c) := of_none _
theorem Laws.RowWord.u63HiWrite (c : CoreId) (v : W32) : Laws.RowWord.Statement (.u63HiWrite c v) := of_none _
theorem Laws.RowWord.u63LoWrite (c : CoreId) (v : W32) : Laws.RowWord.Statement (.u63LoWrite c v) := of_none _
theorem Laws.RowWord.l1InvalidateOp (c : CoreId) : Laws.RowWord.Statement (.l1InvalidateOp c) := of_none _
theorem Laws.RowWord.l1CleanOp (c : CoreId) : Laws.RowWord.Statement (.l1CleanOp c) := of_none _
theorem Laws.RowWord.l1CleanInvalidateOp (c : CoreId) : Laws.RowWord.Statement (.l1CleanInvalidateOp c) := of_none _
theorem Laws.RowWord.l1MaintDone (c : CoreId) : Laws.RowWord.Statement (.l1MaintDone c) := of_none _
theorem Laws.RowWord.l1EnableWrite (c : CoreId) (v : W32) : Laws.RowWord.Statement (.l1EnableWrite c v) := of_none _
theorem Laws.RowWord.mmuRootWrite (f : Fn) (hi : Bool) (v : W32) : Laws.RowWord.Statement (.mmuRootWrite f hi v) := of_none _
theorem Laws.RowWord.allotWrite (f : Fn) (k : Fin 16) (hi : Bool) (v : W32) : Laws.RowWord.Statement (.allotWrite f k hi v) := of_none _
theorem Laws.RowWord.mmuInvalidate (f : Fn) (v : W32) : Laws.RowWord.Statement (.mmuInvalidate f v) := of_none _
theorem Laws.RowWord.invalidateDone (f : Fn) : Laws.RowWord.Statement (.invalidateDone f) := of_none _
theorem Laws.RowWord.patrolScrub (at_ : EccSite) (r : Ecc) : Laws.RowWord.Statement (.patrolScrub at_ r) := of_none _
theorem Laws.RowWord.hostReadError (r : HostRead) (e : HostErr) : Laws.RowWord.Statement (.hostReadError r e) := of_none _
theorem Laws.RowWord.embDumpStart (f : Fn) (k : Fin 64) : Laws.RowWord.Statement (.embDumpStart f k) := of_none _
theorem Laws.RowWord.embDumpDone (k : Fin 64) : Laws.RowWord.Statement (.embDumpDone k) := of_none _
theorem Laws.RowWord.embSlotOwnerWrite (k : Fin 64) (v : W32) : Laws.RowWord.Statement (.embSlotOwnerWrite k v) := of_none _
theorem Laws.RowWord.signalArrival (n : Nat) : Laws.RowWord.Statement (.signalArrival n) := of_none _
theorem Laws.RowWord.contextRestore (ctx : BitVec 12) : Laws.RowWord.Statement (.contextRestore ctx) := of_none _
theorem Laws.RowWord.contextSave (slot : Fin 48) : Laws.RowWord.Statement (.contextSave slot) := of_none _
theorem Laws.RowWord.bwCfgWrite (wire : Fin 16) (isMask : Bool) (v : W32) : Laws.RowWord.Statement (.bwCfgWrite wire isMask v) := of_none _
theorem Laws.RowWord.synSelCapture (v : W32) : Laws.RowWord.Statement (.synSelCapture v) := of_none _
theorem Laws.RowWord.synDumpStart (v : W32) : Laws.RowWord.Statement (.synDumpStart v) := of_none _
theorem Laws.RowWord.synDumpDone : Laws.RowWord.Statement (.synDumpDone) := of_none _
theorem Laws.RowWord.queueEnable (f : Fn) (q : Qid) (v : W32) : Laws.RowWord.Statement (.queueEnable f q v) := of_none _
theorem Laws.RowWord.queueDisable (f : Fn) (q : Qid) (v : W32) : Laws.RowWord.Statement (.queueDisable f q v) := of_none _
theorem Laws.RowWord.doorbell (f : Fn) (q : Qid) (tail head : Option W32) : Laws.RowWord.Statement (.doorbell f q tail head) := of_none _
theorem Laws.RowWord.commandConsume (f : Fn) (q : Qid) (words : List W64) : Laws.RowWord.Statement (.commandConsume f q words) := of_none _
theorem Laws.RowWord.run (f : Fn) (q : Qid) : Laws.RowWord.Statement (.run f q) := of_none _
theorem Laws.RowWord.teLaunch (f : Fn) (q : Qid) : Laws.RowWord.Statement (.teLaunch f q) := of_none _
theorem Laws.RowWord.glean (f : Fn) (q : Qid) : Laws.RowWord.Statement (.glean f q) := of_none _
theorem Laws.RowWord.nop (f : Fn) (q : Qid) : Laws.RowWord.Statement (.nop f q) := of_none _
theorem Laws.RowWord.ctxCreate (f : Fn) (q : Qid) : Laws.RowWord.Statement (.ctxCreate f q) := of_none _
theorem Laws.RowWord.ctxDestroy (f : Fn) (q : Qid) : Laws.RowWord.Statement (.ctxDestroy f q) := of_none _
theorem Laws.RowWord.ctxReset (f : Fn) (q : Qid) : Laws.RowWord.Statement (.ctxReset f q) := of_none _
theorem Laws.RowWord.commandCommit (f : Fn) (q : Qid) (seq : W32) : Laws.RowWord.Statement (.commandCommit f q seq) := of_none _
theorem Laws.RowWord.abort (f : Fn) (q : Qid) (v : W32) : Laws.RowWord.Statement (.abort f q v) := of_none _
theorem Laws.RowWord.ptmDialogue (master : W64) : Laws.RowWord.Statement (.ptmDialogue master) := of_none _
theorem Laws.RowWord.flrVf (f : Fn) : Laws.RowWord.Statement (.flrVf f) := of_none _
theorem Laws.RowWord.flrSteward : Laws.RowWord.Statement (.flrSteward) := of_none _
theorem Laws.RowWord.vfEnableClear : Laws.RowWord.Statement (.vfEnableClear) := of_none _
theorem Laws.RowWord.sliceExpiry (p : PartId) : Laws.RowWord.Statement (.sliceExpiry p) := of_none _
theorem Laws.RowWord.handoverComplete (p : PartId) : Laws.RowWord.Statement (.handoverComplete p) := of_none _
theorem Laws.RowWord.dataFlitReceive (g : PortId) (bytes : List Byte) (fecOk : Bool) : Laws.RowWord.Statement (.dataFlitReceive g bytes fecOk) := of_none _
theorem Laws.RowWord.idleFlit (g : PortId) (bytes : List Byte) (fecOk : Bool) : Laws.RowWord.Statement (.idleFlit g bytes fecOk) := of_none _
theorem Laws.RowWord.stubReceive (g : PortId) (bytes : List Byte) (fecOk : Bool) : Laws.RowWord.Statement (.stubReceive g bytes fecOk) := of_none _
theorem Laws.RowWord.putArrival (g : PortId) (vc : Fin 4) : Laws.RowWord.Statement (.putArrival g vc) := of_none _
theorem Laws.RowWord.getReqArrival (g : PortId) (vc : Fin 4) : Laws.RowWord.Statement (.getReqArrival g vc) := of_none _
theorem Laws.RowWord.getRespArrival (g : PortId) (vc : Fin 4) : Laws.RowWord.Statement (.getRespArrival g vc) := of_none _
theorem Laws.RowWord.getTimeout (c : CoreId) (n : Nat) : Laws.RowWord.Statement (.getTimeout c n) := of_none _
theorem Laws.RowWord.retryTimeout (g : PortId) : Laws.RowWord.Statement (.retryTimeout g) := of_none _
theorem Laws.RowWord.creditSync (g : CtlFlit) (held : List Nat) : Laws.RowWord.Statement (.creditSync g held) := of_none _
theorem Laws.RowWord.ident (g : CtlFlit) (i : IdentInfo) : Laws.RowWord.Statement (.ident g i) := of_none _
theorem Laws.RowWord.fenceControlFlit (g : CtlFlit) : Laws.RowWord.Statement (.fenceControlFlit g) := of_none _
theorem Laws.RowWord.chipFailed (g : CtlFlit) (failed reporter : BitVec 10) :
    Laws.RowWord.Statement (.chipFailed g failed reporter) := of_none _
theorem Laws.RowWord.portDown (g : PortId) : Laws.RowWord.Statement (.portDown g) := of_none _
theorem Laws.RowWord.portTrainingDone (g : PortId) : Laws.RowWord.Statement (.portTrainingDone g) := of_none _
theorem Laws.RowWord.partnerFailed (g : PortId) : Laws.RowWord.Statement (.partnerFailed g) := of_none _
theorem Laws.RowWord.portFence (g : PortId) : Laws.RowWord.Statement (.portFence g) := of_none _
theorem Laws.RowWord.fenceDrainEnd (g : PortId) : Laws.RowWord.Statement (.fenceDrainEnd g) := of_none _
theorem Laws.RowWord.portUnfence (g : UnfenceAt) : Laws.RowWord.Statement (.portUnfence g) := of_none _
theorem Laws.RowWord.routeSelect (v : W32) : Laws.RowWord.Statement (.routeSelect v) := of_none _
theorem Laws.RowWord.laneDegradeCheck (g : PortId) (lanes : List LaneInfo) (codewords corrected : Nat) : Laws.RowWord.Statement (.laneDegradeCheck g lanes codewords corrected) := of_none _
theorem Laws.RowWord.fltPop (f : Fn) : Laws.RowWord.Statement (.fltPop f) := of_none _
theorem Laws.RowWord.rasLogRequest : Laws.RowWord.Statement (.rasLogRequest) := of_none _
theorem Laws.RowWord.rasIrqSend : Laws.RowWord.Statement (.rasIrqSend) := of_none _
theorem Laws.RowWord.monClear (m : Fin 64) : Laws.RowWord.Statement (.monClear m) := of_none _
theorem Laws.RowWord.monCntHiWrite (n : Fin 64) (v : W32) : Laws.RowWord.Statement (.monCntHiWrite n v) := of_none _
theorem Laws.RowWord.monCntLoWrite (n : Fin 64) (v : W32) : Laws.RowWord.Statement (.monCntLoWrite n v) := of_none _
theorem Laws.RowWord.freezeTrigger : Laws.RowWord.Statement (.freezeTrigger) := of_none _
theorem Laws.RowWord.freezeNow : Laws.RowWord.Statement (.freezeNow) := of_none _
theorem Laws.RowWord.thaw : Laws.RowWord.Statement (.thaw) := of_none _
theorem Laws.RowWord.traceEnable (v : W32) : Laws.RowWord.Statement (.traceEnable v) := of_none _
theorem Laws.RowWord.traceDisable (v : W32) : Laws.RowWord.Statement (.traceDisable v) := of_none _
theorem Laws.RowWord.traceWrite : Laws.RowWord.Statement (.traceWrite) := of_none _
theorem Laws.RowWord.registerWrite (f : Fn) (off : Nat) (bytes : List Byte) : Laws.RowWord.Statement (.registerWrite f off bytes) := of_none _
theorem Laws.RowWord.governorStart : Laws.RowWord.Statement (.governorStart) := of_none _
theorem Laws.RowWord.i3cEnumerationDone (answered : List Bool) : Laws.RowWord.Statement (.i3cEnumerationDone answered) := of_none _
theorem Laws.RowWord.reservoirAdcSample (v : BitVec 12) (i : BitVec 12) : Laws.RowWord.Statement (.reservoirAdcSample v i) := of_none _
theorem Laws.RowWord.memoryRequestComplete (c : CoreId) (n : Nat) (r : Ecc) : Laws.RowWord.Statement (.memoryRequestComplete c n r) := of_none _
theorem Laws.RowWord.traceSync (c : CoreId) : Laws.RowWord.Statement (.traceSync c) := of_none _

end Sys2Proof
end

