-- ==== Sys2Proof/Laws/Regs.lean ====
section
/-! SUPPORT. Fields of registers: what reads back after a field or a counter of the register file is written. -/

namespace Sys2Proof.Machine

theorem fld_setFld (w lo len v : Nat) : fld (setFld w lo len v) lo len = v % 2 ^ len := by
  have : setFld w lo len v = (w % 2^lo + 2^lo * (v % 2^len)) + 2^lo*2^len * (w / 2^(lo+len)) := by
    unfold setFld fld
    rw [Nat.shiftRight_eq_div_pow]
    have h1 := Nat.div_add_mod w (2^lo)
    have h2 := Nat.div_add_mod (w / 2^lo) (2^len)
    rw [Nat.div_div_eq_div_mul, ← pow_add] at h2
    have h3 : w = 2^lo * (2^len * (w / 2^(lo+len)) + w / 2^lo % 2^len) + w % 2^lo := by rw [h2, h1]
    generalize w / 2^(lo+len) = q at *
    generalize w / 2^lo % 2^len = m at *
    generalize w % 2^lo = r at *
    have e : w - m * 2^lo = 2^lo*(2^len*q) + r := by
      rw [h3, Nat.mul_add, Nat.mul_comm m]; omega
    rw [e]; ring
  rw [this]; unfold fld
  rw [Nat.shiftRight_eq_div_pow, Nat.mul_assoc, Nat.add_assoc, ← Nat.mul_add, Nat.add_mul_div_left _ _ (by positivity), Nat.div_eq_of_lt (Nat.mod_lt _ (by positivity))]
  simp

theorem setFld_lt (w lo len v : Nat) (h : w < 2^32) (hl : lo + len ≤ 32) : setFld w lo len v < 2^32 := by
  unfold setFld fld
  rw [Nat.shiftRight_eq_div_pow]
  have h1 := Nat.div_add_mod w (2^lo)
  have h2 := Nat.div_add_mod (w / 2^lo) (2^len)
  rw [Nat.div_div_eq_div_mul, ← pow_add] at h2
  have h3 : w = 2^lo * (2^len * (w / 2^(lo+len)) + w / 2^lo % 2^len) + w % 2^lo := by rw [h2, h1]
  have h5 : w / 2^(lo+len) < 2^(32-(lo+len)) := by
    rw [Nat.div_lt_iff_lt_mul (by positivity), ← pow_add]; rwa [show 32 - (lo+len) + (lo+len) = 32 by omega]
  have h6 : w % 2^lo < 2^lo := Nat.mod_lt _ (by positivity)
  have h7 : v % 2^len < 2^len := Nat.mod_lt _ (by positivity)
  have h8 : 2^32 = 2^lo * (2^len * 2^(32-(lo+len))) := by rw [← pow_add, ← pow_add]; congr 1; omega
  generalize w / 2^(lo+len) = q at *
  generalize w / 2^lo % 2^len = m at *
  generalize w % 2^lo = r at *
  generalize v % 2^len = u at *
  have e : w - m * 2^lo = 2^lo*(2^len*q) + r := by
    rw [h3, Nat.mul_add, Nat.mul_comm m]; omega
  rw [e, h8]
  generalize 2^lo = A at *; generalize 2^len = B at *; generalize 2^(32-(lo+len)) = C at *
  have i1 : 2^lo*0 = 0 := by simp
  have : A * (B*q) + r + u*A < A * (B*q + u + 1) := by nlinarith
  have : B*q+u+1 ≤ B*C := by nlinarith
  calc A * (B*q) + r + u*A < A * (B*q + u + 1) := by assumption
    _ ≤ A * (B*C) := Nat.mul_le_mul_left _ this


theorem rdF_wrF (s : State) (a lo len v : Nat) (h : lo + len ≤ 32) : rdF (wrF s a lo len v) a lo len = v % 2^len := by
  simp only [rdF, wrF, rd_wr, if_true]
  rw [BitVec.toNat_ofNat, Nat.mod_eq_of_lt (setFld_lt _ _ _ _ (rd s a).isLt h), fld_setFld]

theorem rdF_wrF_other (s : State) (a b lo len v l2 n2 : Nat) (h : b ≠ a) : rdF (wrF s a lo len v) b l2 n2 = rdF s b l2 n2 := by
  simp [rdF, wrF, h]

theorem rd_wrF_other (s : State) (a b lo len v : Nat) (h : b ≠ a) : rd (wrF s a lo len v) b = rd s b := by
  simp [wrF, h]

theorem rd_inc16_other (s : State) (a b : Nat) (h : b ≠ a) : rd (inc16 s a) b = rd s b := by
  simp [inc16, incF, wrF, h]

theorem rdB_wrF (s : State) (a b : Nat) (h : b < 32) : rdB (wrF s a b 1 1) a b = true := by
  have := rdF_wrF s a b 1 1 (by omega)
  simp [rdF, fld, Nat.shiftRight_eq_div_pow] at this
  simp [rdB, Nat.testBit, Nat.shiftRight_eq_div_pow, this]

theorem chipErr_rd (s : State) (code sub b i d : Nat) (a : Nat) (h1 : a ≠ 0x00800000) (h2 : a ≠ 0x00800100 + 4 * (code - 0x40)) :
    rd (chipErr s code sub b i d) a = rd s a := by
  unfold chipErr
  obtain ⟨r, h⟩ := chipEntry_eq (rasCount s code) code sub b i d
  rw [h]
  show rd (rasCount s code) a = _
  unfold rasCount; dsimp only; split
  · rw [rd_inc16_other _ _ _ h2, rd_wrF_other _ _ _ _ _ _ h1]
  · rw [rd_inc16_other _ _ _ h2]

theorem rdF_congr {s t : State} (h : t.regs = s.regs) (a l n : Nat) : rdF t a l n = rdF s a l n := by simp [rdF, rd, h]

end Sys2Proof.Machine
end

