-- ==== Sys2Proof/Tests/Slice0.lean ====
section
/-! SUPPORT. The modeller's tests: WellFormed refuses each kind of ill-formed operand; small steps with results that the manual
states; and for each obligation a state and operands that meet its hypotheses, clause by clause. -/

namespace Sys2Proof.Tests

open Machine

-- One theorem at a time: waiting threads cost memory when the whole package is one text.
set_option Elab.async false

/-- Power good, in device state `d`. -/
def inDev (d : DevState) : State :=
  { State.reset with boot := { State.reset.boot with dev := d, pwrgood := true, perst := false, cause := some .powerOn,
                                                     pumpPin := .high, valvePin := .low } }
/-- READY with the governors running. -/
def ready : State := { inDev .ready with gov := { State.reset.gov with started := true } }
/-- A Charter with a reservoir, one inlet sensor and regulators. -/
def charter : Charter := {
  partCount := 1, budget := [100], usableLu := 1000, clockMaxMhz := 1500, feedCapW := 1500
  sensors := [(0x40, 1), (0x41, 2)], regAddr := [0x60], flowPpl := 600, pumpMinPct := 30, channelMask := 2
  thermal := [105, 105, 105, 105, 105, 105, 105, 105, 105]
  dbgMonitors := true, dbgTrace := true, rechargeMaxW := 500, dischargeMaxW := 500, bunchPart := [0, 0, 0, 0, 0, 0, 0, 0] }
def charged (s : State) : State := { s with boot := { s.boot with charter := charter, sh1 := charter, sh2 := charter } }

/-! ## WellFormed refuses -/

theorem test_wf_flash_write : (Instr.flashWrite true []).wf = false := by decide
theorem test_wf_flash_write_long : (Instr.flashWrite true (List.replicate 33 0)).wf = false := by decide
theorem test_wf_governor_tick : (Instr.governorTick ⟨0, 0, [], 0⟩).wf = false := by decide
theorem test_wf_telemetry : (Instr.telemetryWindowEnd ⟨[], 0⟩).wf = false := by decide
theorem test_wf_divergence_none : (Instr.comparatorDivergence [] [] []).wf = false := by decide
theorem test_wf_divergence_same : (Instr.comparatorDivergence [.channel 0] [1] [1]).wf = false := by decide
theorem test_wf_latent_order : (Instr.latentDivergence [.field 0, .channel 31]).wf = false := by decide
theorem test_wf_sensor_poll : (Instr.sensorPoll [none]).wf = false := by decide
theorem test_wf_junction : (Instr.junctionRead []).wf = false := by decide
theorem test_wf_enumeration : (Instr.i3cEnumerationDone [true]).wf = false := by decide
theorem test_wf_credits : (Instr.creditSync ⟨0, 0, true, true⟩ [129, 0, 0, 0]).wf = false := by decide
theorem test_wf_lanes : (Instr.laneDegradeCheck 0 [] 1 0).wf = false := by decide
theorem test_wf_flit : (Instr.idleFlit 0 [0] true).wf = false := by decide
theorem test_wf_write_past_bar : (Instr.registerWrite 0 0x3FFFFFE (leBytes 4 0)).wf = false := by decide
theorem test_wf_consume : (Instr.commandConsume 0 0 []).wf = false := by decide
theorem test_wf_scrub : (Instr.patrolScrub (.mem (2 ^ 52)) .clean).wf = false := by decide
theorem test_wf_parity : (Instr.parityScan [⟨3, 0, false, false, false⟩]).wf = false := by decide
theorem test_wf_thread_word : (Instr.iadd 0 0 0x20).wf = false := by decide
theorem test_wf_good : (Instr.iadd 0 0 0x01).wf = true := by decide

/-! ## Hypotheses: start-up, sideband, governors, plant -/

theorem witness_StepRunsFrontCommand : { ready with pending := [.lrefLoss] }.pending = Instr.lrefLoss :: [] := rfl

theorem witness_EmptyQueueStepKeepsArchitecturalState :
    State.reset.pending = [] ∧ clockRuns State.reset = false ∧ State.reset.boot.dev = .off ∧ monRuns State.reset = false ∧
    -- the clock runs, before the governors and between two ticks; and at the boundary of a tick
    (clockRuns (inDev .strap) = true ∧ (inDev .strap).gov.started = false) ∧
    (∀ n ∈ [0, 990], let s := { ready with time := n }
      clockRuns s = true ∧ s.gov.started = true ∧ s.time < (s.gov.tickNo + 1) * 1000) ∧
    (let s := { ready with time := 1000 }
     s.gov.started = true ∧ (s.gov.tickNo + 1) * 1000 ≤ s.time) ∧
    (∃ s : State, clockRuns s = true ∧ s.boot.fatal.isSome = true) :=
  ⟨by decide, by decide, by decide, by decide, by decide, by decide, by decide,
   { ready with boot := { ready.boot with fatal := some .junction } }, by decide⟩

/-- Power good with PERST_N held. -/
def heldInReset : State := { ready with boot := { ready.boot with perst := true, dev := .off } }

theorem witness_PowerAndPinRowsTakeEffect :
    (State.reset.boot.pwrgood = false ∧ State.reset.boot.perst = true ∧ State.reset.sb.op = none ∧ State.reset.boot.fatal = none) ∧
    (∃ s : State, s.boot.pwrgood = false ∧ s.boot.perst = false) ∧
    (ready.boot.perst = false ∧ ready.boot.pwrgood = true ∧ ready.boot.fatal = none) ∧
    (heldInReset.boot.perst = true ∧ heldInReset.boot.pwrgood = true ∧ heldInReset.boot.fatal = none) ∧
    (∃ s : State, s.boot.fatal ≠ none) ∧ (∃ s : State, (s.port 0).st = .up ∧ (s.port 1).st ≠ .up) :=
  ⟨by decide, ⟨{ State.reset with boot := { State.reset.boot with perst := false } }, by decide⟩, by decide, by decide,
   ⟨{ ready with boot := { ready.boot with fatal := some .junction } }, by decide⟩,
   ready.setPort 0 { st := .up }, by decide⟩

/-- CHARTER_LOAD with the flash's table read and the header `h` at the start of copy B, `n` ns after the load began. -/
def reading (h : List Byte) (n : Nat := 0) : State :=
  { inDev .charterLoad with
    time := n, flash := ((List.range h.length).filter (fun i => h.getD i 0xFF ≠ 0xFF)).map (fun i => (slotBase .b + i, h.getD i 0xFF))
    boot := { (inDev .charterLoad).boot with sfdpDone := true } }
/-- A header of R31: magic, version 1, 256 bytes, length 0x400, one record, sequence 7, part type 0x4832. -/
def header (magic len : Nat) : List Byte :=
  leBytes 4 magic ++ leBytes 2 1 ++ leBytes 2 0x100 ++ leBytes 4 len ++ leBytes 4 1 ++ leBytes 4 7 ++ leBytes 4 0x4832 ++
    List.replicate 232 0
/-- What is read of the header of copy B. -/
def headB (s : State) : List Byte := (List.range 256).map (fun i => flashByte s.flash (slotBase .b + i))
/-- ... with both copies read. -/
def copiesRead (a b : CopySt) : State :=
  { inDev .charterLoad with boot := { (inDev .charterLoad).boot with sfdpDone := true, copyA := a, copyB := b } }

theorem witness_StartUpRowsAdvanceSequence :
    ((inDev .strap).at_ .strap ∧ (inDev .strap).boot.perst = false) ∧
    ((inDev .charterLoad).loading ∧ (inDev .charterLoad).boot.sfdpDone = false ∧ (inDev .charterLoad).boot.copyA = {} ∧
      (inDev .charterLoad).boot.copyB = {}) ∧
    -- a header that fails step 1, one that fails step 2, one that passes; the last instant of the 500 ms
    (∀ h ∈ [header 0x52484349 0x400, header 0x52484348 0x300, header 0x52484348 0x400], let s := reading h 500000000
      s.loading ∧ s.boot.sfdpDone = true ∧ (s.boot.copy .b).seen = false) ∧
    (headerStep (headB (reading (header 0x52484349 0x400))) = 1 ∧ headerStep (headB (reading (header 0x52484348 0x300))) = 2 ∧
      headerStep (headB (reading (header 0x52484348 0x400))) = 0) ∧
    (let s := copiesRead { seen := true } { seen := true, finished := true, failStep := 1 }
     s.loading ∧ s.boot.copyA.seen = true ∧ s.boot.copyB.seen = true ∧ s.boot.copyA.sigDone = false ∧
      s.boot.copyA.finished = false ∧ s.boot.copyB.finished = true) ∧
    -- the load is overdue: copy A is read and not checked, copy B is not read, or has failed step 2
    (∀ b ∈ [({} : CopySt), { seen := true, finished := true, failStep := 2 }],
      let s := { copiesRead { seen := true, seq := 7 } b with time := 500000001 }
      s.at_ .charterLoad ∧ s.boot.loadAt + 500000000 < s.time ∧ s.boot.copyA.finished = false ∧ s.boot.copyA.failStep = 0 ∧
        s.boot.copyA.sigDone = false ∧ (s.boot.copyB.seen = false ∨ s.boot.copyB.finished = true)) ∧
    ((inDev .selftest).at_ .selftest ∧ (inDev .selftest).boot.sramClear = false) ∧
    (∃ s : State, s.at_ .selftest ∧ s.boot.sramClear = true) := by
  unfold State.loading State.at_
  exact ⟨by decide, by decide, by decide +kernel, by decide +kernel, by decide, by decide, by decide,
    { inDev .selftest with boot := { (inDev .selftest).boot with sramClear := true } }, by decide⟩

/-- Both copies have their verdict on steps 1 to 4: steps `fa` and `fb` failed (0 none), with the given sequence numbers and
digests. -/
def twoCopies (fa fb : Nat) (sa sb : W32) (da db : BitVec 384) : State :=
  copiesRead { seen := true, sigDone := true, finished := true, failStep := fa, seq := sa, digest := da }
    { seen := true, sigDone := true, finished := true, failStep := fb, seq := sb, digest := db }

theorem witness_CharterSelectionFollowsR39 :
    -- both copies valid: B newer, A newer, equal with other digests; the sequence numbers compare unsigned
    (∀ s ∈ [twoCopies 0 0 1 2 0 0, twoCopies 0 0 0x80000000 0x7FFFFFFF 0 0, twoCopies 0 0 1 1 0 1], s.loading ∧
      s.boot.copyA.sigDone = true ∧ s.boot.copyB.sigDone = true ∧ (walkCopy s.boot.copyA).valid = true ∧
      (walkCopy s.boot.copyB).valid = true) ∧
    (1 : W32) < 2 ∧ (0x7FFFFFFF : W32) < 0x80000000 ∧
    -- exactly one valid copy
    (let s := twoCopies 0 4 1 2 0 0
     s.loading ∧ s.boot.copyA.sigDone = true ∧ s.boot.copyB.sigDone = true ∧ (walkCopy s.boot.copyA).valid = true ∧
      (walkCopy s.boot.copyB).valid = false) ∧
    (let s := twoCopies 3 0 2 1 0 0
     s.loading ∧ s.boot.copyA.sigDone = true ∧ s.boot.copyB.sigDone = true ∧ (walkCopy s.boot.copyA).valid = false ∧
      (walkCopy s.boot.copyB).valid = true) ∧
    -- no valid copy
    (let s := twoCopies 1 4 0 2 0 0
     s.loading ∧ s.boot.copyA.sigDone = true ∧ s.boot.copyB.sigDone = true ∧ (walkCopy s.boot.copyA).valid = false ∧
      (walkCopy s.boot.copyB).valid = false) := by unfold State.loading State.at_; decide

theorem witness_PlantArmRowsTakeEffect :
    ((inDev .plantArm).at_ .plantArm ∧ (inDev .plantArm).boot.armTach = false ∧ (inDev .plantArm).boot.i3cDone = false ∧
      (inDev .plantArm).charter.isLimp = false) ∧
    -- READY, without a reservoir and with one
    (∀ lu ∈ [0, 1000], ∃ s : State, s.at_ .plantArm ∧ s.gov.started = true ∧ (0 < s.gov.beats ∨ s.gov.lost = true) ∧
      s.boot.i3cDone = true ∧ s.boot.armFail = false ∧ s.charter.isLimp = false ∧ s.charter.usableLu = lu) ∧
    (∃ c : ConvAnswer, c.vEmpty < c.vFull) ∧
    (∃ s : State, s.at_ .plantArm ∧ s.gov.started = true ∧ (0 < s.gov.beats ∨ s.gov.lost = true) ∧ s.boot.i3cDone = true ∧
      s.boot.armFail = true ∧ s.charter.isLimp = false) ∧
    (∃ s : State, s.at_ .plantArm ∧ s.gov.started = true ∧ (0 < s.gov.beats ∨ s.gov.lost = true) ∧ s.boot.charter = limpCharter) ∧
    (∃ s : State, s.boot.link = true ∧ s.boot.dev ≠ .ready ∧ s.boot.dev ≠ .limp) := by
  unfold State.at_
  exact ⟨by decide,
    fun lu h => ⟨{ inDev .plantArm with gov := { State.reset.gov with started := true, beats := 1 },
                                        boot := { (inDev .plantArm).boot with i3cDone := true, charter := { usableLu := lu } } },
      by decide +revert⟩,
    ⟨⟨2, 1⟩, by decide⟩,
    ⟨{ inDev .plantArm with gov := { State.reset.gov with started := true, lost := true },
                            boot := { (inDev .plantArm).boot with i3cDone := true, armFail := true } }, by decide⟩,
    ⟨{ inDev .plantArm with gov := { State.reset.gov with started := true, lost := true },
                            boot := { (inDev .plantArm).boot with charter := limpCharter } }, ⟨rfl, rfl⟩, rfl, .inr rfl, rfl⟩,
    { inDev .strap with boot := { (inDev .strap).boot with link := true } }, by decide⟩

/-- READY with slot A loaded, and the other copy valid or not. -/
def loadedA (other : Bool) : State :=
  { ready with boot := { ready.boot with selected := some .a, copyB := { finished := other } } }

theorem witness_SidebandCommandsTakeEffect :
    (ready.bridge true ∧ ready.sb.busy = false ∧ sbAnswers ready = true) ∧
    -- the last and the first byte of the loaded slot, its upper half, bytes that wrap into it, and one beside it
    (∀ x ∈ [(0x3FFFFF, 1), (0, 32), (0x3FFFFE0, 33)], (loadedA true).inLoadedSlot x.1 x.2) ∧
    (¬ (loadedA true).inLoadedSlot 0x400000 1 ∧ ¬ (loadedA true).inLoadedSlot 0x3FFFFE0 32) ∧
    (let s := { loadedA true with sb := { ready.sb with busy := true, addr := 0x400000 } }
     s.bridge true ∧ s.sb.busy = true ∧ ¬ s.inLoadedSlot s.sb.addr.toNat 1) ∧
    ((loadedA true).boot.selected = some .a ∧ (loadedA true).boot.copyB.valid = true ∧ (loadedA false).boot.copyB.valid = false ∧
      ready.boot.selected = none) ∧
    (0x17 : Byte) ∉ ([0x10, 0x11, 0x12, 0x13, 0x14, 0x15, 0x16, 0x20, 0x21] : List Byte) ∧
    ((inDev .charterLoad).at_ .charterLoad ∧ (inDev .strap).boot.dev = .strap) := by
  have h (n : Nat) (a : Nat) (hn : ¬ (a < 0x400000 ∧ 0 < a + n ∨ a < 0x4400000 ∧ 0x4000000 < a + n)) :
      ¬ (loadedA true).inLoadedSlot a n := by
    rintro ⟨_, k, hk, h⟩
    cases Option.some.inj hk
    exact hn (by simpa [slotBase] using h)
  refine ⟨by unfold State.bridge; decide, ?_, ⟨h _ _ (by decide), h _ _ (by decide)⟩, ⟨by unfold State.bridge; decide, rfl, ?_⟩,
    by decide, by decide, by unfold State.at_; decide⟩
  · simp only [List.forall_mem_cons]
    exact ⟨⟨rfl, .a, rfl, by decide⟩, ⟨rfl, .a, rfl, by decide⟩, ⟨rfl, .a, rfl, by decide⟩, by simp⟩
  · rintro ⟨_, k, hk, h⟩
    cases Option.some.inj hk
    exact absurd h (by decide)

theorem witness_FlashOperationEndsAsStated :
    (∃ s : State, s.sb.op = some (.inl (0x3FFFFFF, [0x55, 0xAA]))) ∧ (∃ s : State, s.sb.op = some (.inr (0x401000, 0x1000))) ∧
    (∃ s : State, s.boot.resetReq = true ∧ s.boot.fatal = none) ∧ ready.boot.resetReq = false :=
  ⟨⟨{ ready with sb := { ready.sb with op := some (.inl (0x3FFFFFF, [0x55, 0xAA])) } }, rfl⟩,
   ⟨{ ready with sb := { ready.sb with op := some (.inr (0x401000, 0x1000)) } }, rfl⟩,
   ⟨{ ready with boot := { ready.boot with resetReq := true } }, by decide⟩, rfl⟩

theorem witness_GovernorTickAdvancesLedgersAndCharges :
    let i : TickIn := ⟨1, 1, List.replicate 32 ⟨0, 0, [(0, 1)], [], [], []⟩, 1⟩
    i.est.length = 32 ∧ (charged ready).gov.started = true ∧ (charged ready).boot.refclk = true ∧
    (charged ready).boot.pwrgood = true ∧ 1 ≤ (charged ready).charter.partCount ∧ (charged ready).boot.fatal = none ∧
    (settle (charged ready)).plt.active.contains .feedAdc = false ∧
    (∃ s : State, s.gov.started = true ∧ s.boot.refclk = true ∧ s.boot.pwrgood = true ∧ s.boot.fatal ≠ none) ∧
    -- the second sample in a row above the cap
    (∃ s : State, s.gov.started = true ∧ s.boot.refclk = true ∧ s.boot.pwrgood = true ∧ 1 ≤ (settle s).gov.a.overCnt ∧
      (settle s).plt.active.contains .feedAdc = false ∧ (capW (settle s) : Int) * oneW < feedPower 0x1FFF 0x1FFF) :=
  ⟨by decide, by decide, by decide, by decide, by decide, by decide, by decide +kernel,
   ⟨{ ready with boot := { ready.boot with fatal := some .junction } }, by decide⟩,
   { charged ready with gov := { ready.gov with a := { ready.gov.a with overCnt := 1 } } }, by decide +kernel⟩

theorem witness_EpochAndLedgerEventsTakeEffect :
    ((inDev .plantArm).at_ .plantArm ∧ (inDev .plantArm).gov.started = false ∧ (inDev .plantArm).time % 1000000 = 0) ∧
    (∃ s : State, s.gov.endDue = true) ∧ (∃ s : State, s.gov.rollTick = true ∧ s.charter.partCount = 8) ∧
    (∃ s : State, s.gov.wrapDue = true) ∧
    -- no regulator is named, or one, with an estimate in the window or without
    (∀ n ∈ [0, 5], ∃ s : State, s.gov.started = true ∧ 1000 ≤ s.gov.winTick ∧ s.gov.winEst = n ∧
      (List.range 8).filter (fun n => s.charter.regAddr.getD n 0 != 0) = [0]) ∧
    (∃ s : State, s.gov.started = true ∧ 1000 ≤ s.gov.winTick ∧
      (List.range 8).filter (fun n => s.charter.regAddr.getD n 0 != 0) = []) ∧
    ((List.replicate 8 (none : Option Nat)).length = 8 ∧ ready.gov.snapReq = false) ∧
    (∃ s : State, s.gov.snapReq = true ∧ s.gov.started = true ∧ s.gov.snapAt < s.gov.tickNo * 1000) := by
  unfold State.at_
  exact ⟨by decide, ⟨{ ready with gov := { ready.gov with endDue := true } }, rfl⟩,
    ⟨{ ready with gov := { ready.gov with rollTick := true }, boot := { ready.boot with charter := { partCount := 8 } } }, by decide⟩,
    ⟨{ ready with gov := { ready.gov with wrapDue := true } }, rfl⟩,
    fun n _ => ⟨{ charged ready with gov := { ready.gov with winTick := 1000, winEst := n } }, rfl, Nat.le_refl _, rfl, rfl⟩,
    ⟨{ ready with gov := { ready.gov with winTick := 1000 } }, by decide⟩, by decide,
    { ready with gov := { ready.gov with snapReq := true, tickNo := 1 } }, by decide⟩

/-- Differences on channels 0 to 3 and in a state field, of channels that are all compared: places, values of A, of B. -/
def diffs : List DivAt × List Nat × List Nat :=
  ([.channel 0, .channel 1, .channel 2, .channel 3, .field 63], [5, 5, 1500, 1, 0], [0, 6, 1475, 2, 1])
/-- Channels 0 to 15 are compared. -/
def comparingAll : State := { ready with boot := { ready.boot with charter := { channelMask := 0xFFFF } } }

theorem witness_ComparatorEventsTakeEffect :
    -- differences of every kind, and of one channel alone
    (∀ d ∈ [diffs, ([.channel 0], [0], [7]), ([.channel 3], [0], [1]), ([.channel 15], [0], [1])],
      Instr.wf (.comparatorDivergence d.1 d.2.1 d.2.2) = true ∧ comparing comparingAll = true ∧
      (∃ x ∈ d.1, divOn comparingAll x = true) ∧
      comparingAll.gov.lastResyncEnd = none) ∧
    -- the last instant of the 10 ms after a resynchronisation, and the one after it
    (∀ n ∈ [10000000, 10000010], ∃ s : State, comparing s = true ∧ divOn s (.channel 1) = true ∧ s.gov.lastResyncEnd = some 0 ∧
      s.time = n) ∧
    (∀ ds ∈ [[.channel 30], [.channel 30, .channel 31], [.channel 31]], Instr.wf (.latentDivergence ds) = true ∧
      comparing ready = true ∧ (∀ d ∈ ds, divOn ready d = false) ∧ ready.gov.injA = none ∧ ready.gov.injB = none) ∧
    (∃ s : State, s.gov.resync = .waiting ∧ s.time % 500000 = 0) ∧
    (∃ s : State, s.gov.resync = .copying ∧ s.gov.resyncAt ≤ s.time ∧ s.time % 1000 = 0) ∧
    (∃ s : State, s.gov.resync = .restarting ∧ s.gov.resyncAt ≤ s.time) ∧
    (∃ s : State, s.gov.started = true ∧ s.gov.lost = false ∧ s.gov.resync = .none ∧ s.time % 1000000 = 250000) ∧
    (∃ s : State, s.gov.injA = some 250000 ∧ s.time = 252000) :=
  ⟨by decide,
   fun n _ => ⟨{ comparingAll with gov := { ready.gov with lastResyncEnd := some 0 }, time := n }, rfl, (by decide : divOn comparingAll (.channel 1) = true), rfl, rfl⟩,
   by decide,
   ⟨{ ready with gov := { ready.gov with resync := .waiting } }, by decide⟩,
   ⟨{ ready with gov := { ready.gov with resync := .copying } }, by decide⟩,
   ⟨{ ready with gov := { ready.gov with resync := .restarting } }, by decide⟩,
   ⟨{ ready with time := 250000 }, by decide⟩,
   ⟨{ ready with gov := { ready.gov with injA := some 250000 }, time := 252000 }, by decide⟩⟩

theorem witness_VotedAndParityFieldsAreRepaired :
    ((1 : Nat) = 1 ∧ (1 : Nat) = 1 ∧ (2 : Nat) ≠ 1) ∧ trvShadow (charged ready) .feedCap = some 1500 ∧
    (∃ s : State, slotQueue s (63 : Fin 64) = some (0, 2)) ∧
    -- a hit whose shadow entries are both lost, and one whose entries are good; of a register of the write-copy list
    (∀ h ∈ [(⟨0x00020030, 0, false, false, false⟩ : ParityHit), ⟨0x00020030, 0, true, false, false⟩, ⟨0x00800004, 0, false, false, false⟩],
      h.addr % 4 = 0 ∧ (charterMask h.addr ≠ 0 ∨ isP h.addr = true) ∧ (∀ x ∈ ready.ras.parity, x.addr ≠ h.addr) ∧
      ∃ s : State, s.ras.parity.find? (fun x => x.addr == h.addr) = some h ∧ ∃ x ∈ s.ras.parity, x.addr = h.addr) ∧
    (shadowGone ⟨0x00020030, 0, false, false, false⟩ = true ∧ shadowGone ⟨0x00020030, 0, true, false, false⟩ = false ∧
      copyGone ⟨0x00800004, 0, false, false, false⟩ = true ∧ copyGone ⟨0x00020030, 0, true, false, false⟩ = false) := by
  refine ⟨by decide, by decide, ⟨ready.setQueue 0 2 { slot := some 63 }, by decide⟩, ?_, by decide⟩
  simp only [List.forall_mem_cons]
  have h (x : ParityHit) : ∃ s : State, s.ras.parity.find? (fun y => y.addr == x.addr) = some x ∧ ∃ y ∈ s.ras.parity, y.addr = x.addr :=
    ⟨{ ready with ras := { ready.ras with parity := [x] } }, by simp, x, by simp⟩
  exact ⟨⟨by decide, by decide, by decide, h ⟨0x00020030, 0, false, false, false⟩⟩,
    ⟨by decide, by decide, by decide, h ⟨0x00020030, 0, true, false, false⟩⟩,
    ⟨by decide, by decide, by decide, h ⟨0x00800004, 0, false, false, false⟩⟩, by simp⟩

theorem witness_ClampAndReservoirRowsTakeEffect :
    (∃ s : State, plantRuns s = true ∧ s.gov.a.clamp = true ∧ s.gov.a.excess = 0 ∧ 200 ≤ s.gov.a.relCnt) ∧
    (∃ s : State, plantRuns s = true ∧ s.gov.a.clamp = false ∧ s.gov.a.k < 16 ∧ s.plt.kStepAt + 10000 ≤ s.time) ∧
    (plantRuns (charged ready) = true ∧ (charged ready).charter.usableLu ≠ 0 ∧ (charged ready).plt.dueAt = none) ∧
    (∃ s : State, plantRuns s = true ∧ s.charter.usableLu ≠ 0 ∧ s.plt.dueAt = none ∧ s.plt.lastRec + 600000000000 ≤ s.time) ∧
    (∃ s : State, plantRuns s = true ∧ s.charter.usableLu ≠ 0 ∧ s.plt.dueAt = none ∧ s.plt.convOk = true ∧
      31840 * s.plt.vFull.toNat ≤ 100000 * s.plt.resV) ∧
    (∃ s : State, s.plt.dueAt = some 0 ∧ 0 + 60000000000 ≤ s.time) ∧
    -- a reconciliation that is due, without a loss of the reservoir's ADC and with one
    (∀ l ∈ [[], [Loss.resAdc]], ∃ s : State, plantRuns s = true ∧ s.charter.usableLu ≠ 0 ∧ s.plt.dueAt.isSome ∧
      s.plt.convOk = true ∧ 10000 ≤ s.plt.quiet ∧ s.plt.active = l) :=
  ⟨⟨{ ready with gov := { ready.gov with a := { ready.gov.a with clamp := true, relCnt := 200 } } }, by decide⟩,
   ⟨{ ready with gov := { ready.gov with a := { ready.gov.a with k := 15 } }, time := 10000 }, by decide⟩, by decide,
   ⟨{ charged ready with time := 600000000000 }, by decide⟩,
   ⟨{ charged ready with plt := { ready.plt with convOk := true, vFull := 100, resV := 32 } }, by decide⟩,
   ⟨{ ready with plt := { ready.plt with dueAt := some 0 }, time := 60000000000 }, by decide⟩,
   fun l _ => ⟨{ charged ready with plt := { ready.plt with dueAt := some 0, convOk := true, quiet := 10000, active := l } },
     rfl, (by decide : (charged ready).charter.usableLu ≠ 0), rfl, rfl, Nat.le_refl _, rfl⟩⟩

theorem witness_CoolantVoltageAndSensorRowsTakeEffect :
    (∃ s : State, plantRuns s = true ∧ s.charter.isLimp = false ∧ roleTemps s 2 ≠ [] ∧ s.plt.lim4.vote ≤ 100) ∧
    (plantRuns (charged ready) = true ∧ (charged ready).charter.regAddr.getD 0 0 ≠ 0 ∧ (charged ready).charter.valveMode = 0) ∧
    -- the third frame in a row that is not acknowledged
    (∃ s : State, plantRuns s = true ∧ s.charter.regAddr.getD 0 0 ≠ 0 ∧ 3 ≤ s.gov.a.nak.get 0 0 + 1) ∧
    -- a sensor that answered enumeration and fails for the third time, and one that did not answer
    (∃ s : State, (List.replicate 8 (none : Option Int)).length = 8 ∧ plantRuns s = true ∧
      (s.plt.sensors.get {} 7).enumerated = true ∧ 2 ≤ (s.plt.sensors.get {} 7).fails ∧ (s.plt.sensors.get {} 0).enumerated = false) ∧
    (∃ s : State, s.plt.inletOver = false ∧ s.plt.overSince = some 0 ∧ 0 + 10000000000 ≤ s.time) ∧
    (∃ s : State, s.plt.inletOver = true ∧ s.plt.underSince = some 0 ∧ 0 + 10000000000 ≤ s.time) :=
  ⟨⟨{ charged ready with plt := { ready.plt with
       sensors := ready.plt.sensors.put {} 1 { enumerated := true, valid := true, temp := 560 } } }, by decide⟩, by decide,
   ⟨{ charged ready with gov := { ready.gov with a := { ready.gov.a with nak := ({} : Tbl Nat).put 0 0 2 } } }, by decide⟩,
   ⟨{ ready with plt := { ready.plt with sensors := ready.plt.sensors.put {} 7 { enumerated := true, fails := 2 } } }, by decide⟩,
   ⟨{ ready with plt := { ready.plt with overSince := some 0 }, time := 10000000000 }, by decide⟩,
   ⟨{ ready with plt := { ready.plt with inletOver := true, underSince := some 0 }, time := 10000000000 }, by decide⟩⟩

theorem witness_DroopAndJunctionRowsTakeEffect :
    (ready.plt.droop.get false 31 = false ∧ plantRuns ready = true ∧ (List.replicate 32 (some (1760 : Int))).length = 32) ∧
    (∃ s : State, plantRuns s = true ∧ jClass s 31 = 2 ∧ s.plt.jStep.get 0 31 + 100000 ≤ s.time) ∧
    (∃ s : State, plantRuns s = true ∧ jClass s 31 = 0 ∧ s.plt.jStep.get 0 31 + 1000000 ≤ s.time) :=
  ⟨by decide,
   ⟨{ charged ready with plt := { ready.plt with junction := ready.plt.junction.put (some 0) 31 (some 1759) }, time := 100000 },
    by decide⟩,
   ⟨{ charged ready with plt := { ready.plt with junction := ready.plt.junction.put (some 0) 31 (some 100) }, time := 1000000 },
    by decide⟩⟩

theorem witness_PlantLossesAreRaisedAndEnded :
    (∃ s : State, plantRuns s = true ∧ lossSeen s .flow = true ∧ lossOn s .flow = false ∧ lossSeen s .feedAdc = true ∧
      lossOn s .feedAdc = false) ∧
    (plantRuns (charged ready) = true ∧ (charged ready).charter.flowPpl ≠ 0) ∧
    (∃ s : State, lossOn s .flow = true ∧ lossOver s .flow = true) :=
  ⟨⟨{ charged ready with plt := { ready.plt with badGates := 3, feedOver := 3 } }, by decide⟩, by decide,
   ⟨{ charged ready with plt := { ready.plt with active := [.flow], goodGates := 10 } }, by decide⟩⟩

/-- A pair whose second part is a left value. -/
theorem inl_of {α β γ : Type} (p : α × (β ⊕ γ)) (h : p.2.isLeft = true) : ∃ u k, p = (u, .inl k) := by
  obtain ⟨u, k | k⟩ := p
  · exact ⟨u, k, rfl⟩
  · cases h

theorem inr_of {α β γ : Type} (p : α × (β ⊕ γ)) (h : p.2.isRight = true) : ∃ u k, p = (u, .inr k) := by
  obtain ⟨u, k | k⟩ := p
  · cases h
  · exact ⟨u, k, rfl⟩

/-- The registers and tables by which function 0's addresses from 0 on are the commons, with every right. -/
def rootRegs : List (Nat × W32) :=
  [(mmuA 0 0, 1), (mmuA 0 1, 0x40), (allotA 0 0 0, 0x40001), (allotA 0 0 1, 128)]
def tables : List Host.Cell :=
  [(0x4000000000, 1), (0x4000000002, 1), (0x4000000004, 0x40), (0x4000000008, 1), (0x400000000A, 0xA), (0x400000000C, 0x40),
   (0x4000010000, 1), (0x4000010002, 2), (0x4000010004, 0x40), (0x4000020000, 0xF), (0x4000020004, 0x40)]
/-- The same memory once more, from address 2^43 on, by other tables. -/
def tablesHigh : List Host.Cell :=
  [(0x40000A0000, 1), (0x40000A0002, 0xB), (0x40000A0004, 0x40), (0x40000B0000, 0xF), (0x40000B0004, 0x40)]
/-- READY with function 0 mapped, context 1 of it resident in slot 0 with one granule of window, and the bytes `code` at its
address 0x30000. -/
def mapped (code : List Byte) : State :=
  { charged ready with
    regs := rootRegs
    mem := tables ++ ((List.range code.length).filter (fun i => code.getD i 0 ≠ 0)).map (fun i => (0x4000030000 + i, code.getD i 0))
        ++ tablesHigh
    hq := { ready.hq with ctxs := ready.hq.ctxs.put {} 1 { live := true, winSize := 1, nounTable := 0x40000, log := 0x50000, save := 0x60000 } }
    syn := { ready.syn with slots := ready.syn.slots.put {} 0 { st := .resident, ctx := 1 } } }
/-- An engine of core 0 in that state. -/
def eng (e : CE) (y : ClEng) (code : List Byte := []) : State := (mapped code).setEng 0 e y
/-- A pair without a fault. -/
theorem none_of {α β : Type} (p : α × Option β) (h : p.2.isNone = true) : ∃ u, p = (u, none) := by
  obtain ⟨u, _ | k⟩ := p
  · exact ⟨u, rfl⟩
  · cases h

/-- An engine that has issued the slot `i` with word `w`, and slot 7 after it where `more`. -/
def acting (e : CE) (i : Nat) (w : W64) (more : Bool := true) : State :=
  eng e { st := .issuing, ctx := 1, issuing := (i, w) :: (if more then [(7, 9)] else []), clause := some { addr := 0x30000 }, pc := 0x30000 }
/-- Function 0 is a tenant of partition 0, which it holds, and function 1 another one. -/
def tenanted (s : State) : State :=
  { s with
    boot := { s.boot with charter := { s.boot.charter with
      tenants := (s.boot.charter.tenants.put {} 0 { enable := true, weight := 1 }).put {} 1 { enable := true, weight := 1 } } }
    sch := { s.sch with parts := s.sch.parts.put {} 0 { holder := some 0 } } }

theorem pair_of {α β : Type} (p : α × β) (b : β) (h : p.2 = b) : p = (p.1, b) := Prod.ext rfl h

theorem snd_of' {α β : Type} (p : α × Option β) (h : p.2.isSome = true) : ∃ u b, p = (u, some b) := by
  obtain ⟨u, _ | b⟩ := p
  · cases h
  · exact ⟨u, b, rfl⟩
/-! ## Hypotheses: clause streams -/

theorem witness_ClauseScalarRowsLandResults : ∀ op ∈ [1, 2, 3, 4, 5, 6, 7, 8, 9, 10, 13, 14],
    (acting .tx 7 (BitVec.ofNat 64 op)).heads 0 .tx .scalar op 7 (BitVec.ofNat 64 op) := by unfold State.heads; decide

theorem witness_ClauseLocalStoreRowsTakeEffect :
    (acting .mx 7 12).heads 0 .mx .scalar 12 7 12 ∧
    -- the last 8 bytes of the window
    (acting .mx 7 (0xFFF8 * 2 ^ 32 + 11)).heads 0 .mx .scalar 11 7 (0xFFF8 * 2 ^ 32 + 11) ∧
    (∀ l ∈ ((acting .mx 7 11).eng 0 .mx).inflight, l.isLs = false) ∧
    lsAddr (acting .mx 7 11) 0 1 0xFFF8 8 = some 0x410000FFF8 ∧ poisoned (acting .mx 7 11) 0x410000FFF8 8 = false := by
  unfold State.heads; decide

theorem witness_ClauseAguRowsLandGenerators : ∀ op ∈ [1, 2, 3, 4, 5, 6, 7],
    (acting .tx 3 (BitVec.ofNat 64 op)).heads 0 .tx .agu op 3 (BitVec.ofNat 64 op) := by unfold State.heads; decide

theorem witness_ClauseControlRowsBranchAndExecutionsEnd :
    (∀ op ∈ [1, 2, 3, 4, 5], (acting .mx 0 (BitVec.ofNat 64 op) false).closes 0 .mx { addr := 0x30000 } ∧
      (acting .mx 0 (BitVec.ofNat 64 op) false).heads 0 .mx .ctrl op 0 (BitVec.ofNat 64 op)) ∧
    ((acting .mx 7 9 false).heads 0 .mx .scalar 9 7 9 ∧ ((acting .mx 7 9 false).eng 0 .mx).issuing.length = 1 ∧
      ((acting .mx 7 9 false).eng 0 .mx).clause = some { addr := 0x30000 }) := by
  unfold State.closes State.heads; decide

/-- An engine between executions with one result in flight. -/
def landing (w : Write) : State := eng .mx { st := .issuing, ctx := 1, inflight := [⟨0, 0, 7, w⟩] }

theorem witness_ResultLandReachesItsResource :
    ∀ w ∈ [Write.scal 31 5, .scal 0 5, .gen 7 1 {}, .lc 3 1, .buf 3 0 8 [], .held 0 8 [], .shift {} {}, .zero 1, .mma 0,
        .ls 0xFFF8 [1]],
      ((landing w).eng 0 .mx).inflight = [⟨0, 0, 7, w⟩] ∧ ((landing w).eng 0 .mx).issuing = [] ∧
      0 ≤ ((landing w).eng 0 .mx).next ∧ (landing w).poison = [] ∧ lsAddr (landing w) 0 1 0xFFF8 1 = some 0x410000FFF8 := by
  decide

theorem witness_ResultLand_of_a_drain : ∃ s : State, (s.eng 0 .mx).inflight = [⟨0, 0, 6, .drain 0 0⟩] ∧
    ∃ d, (s.eng 0 .mx).drains.find? (fun x => x.id == 0) = some d :=
  ⟨eng .mx { st := .issuing, inflight := [⟨0, 0, 6, .drain 0 0⟩], drains := [{ id := 0 }] }, rfl, _, rfl⟩

theorem witness_ResultLand_of_an_MMA : ∃ s : State, (s.eng 0 .mx).inflight = [⟨0, 0, 5, .mma 0⟩] ∧
    ∃ m, (s.eng 0 .mx).mmas.find? (fun x => x.id == 0) = some m :=
  ⟨eng .mx { st := .issuing, inflight := [⟨0, 0, 5, .mma 0⟩], mmas := [{ id := 0, k := 1, rows := 1 }] }, rfl, _, rfl⟩

/-- A clause whose SYNC slot holds `w` and whose wait is to be evaluated. -/
def waitingOn (w : W64) (a : Option (Obj × W32) := none) : State :=
  eng .tx { st := .issuing, ctx := 1, clause := some { addr := 0x30000, hdr := 2, slots := [(1, w)] }, arrival := a }

theorem witness_ClauseWaitIsSatisfiedOrRegistered :
    (∀ v ∈ [0, 1], (waitingOn (BitVec.ofNat 64 (v * 2 ^ 32 + 2))).waitsOn 0 .tx
      { addr := 0x30000, hdr := 2, slots := [(1, BitVec.ofNat 64 (v * 2 ^ 32 + 2))] } 2 (BitVec.ofNat 64 (v * 2 ^ 32 + 2))) ∧
    (∀ op ∈ [4, 6], (waitingOn (BitVec.ofNat 64 op)).waitsOn 0 .tx { addr := 0x30000, hdr := 2, slots := [(1, BitVec.ofNat 64 op)] } op
      (BitVec.ofNat 64 op) ∧ arrivalDue ((waitingOn (BitVec.ofNat 64 op)).eng 0 .tx) = false) ∧
    ((waitingOn 6 (some (.group 1 0, 0))).waitsOn 0 .tx { addr := 0x30000, hdr := 2, slots := [(1, 6)] } 6 6 ∧
      ¬ (0 : W32) < genOf (waitingOn 6 (some (.group 1 0, 0))) (.group 1 0)) ∧
    (∃ s : State, s.waitsOn 0 .tx { addr := 0x30000, hdr := 2, slots := [(1, 4)] } 4 4 ∧ (s.wire 0).valid = true ∧
      (s.wire 0).ctx.toNat = 1 ∧ (s.eng 0 .tx).arrival = some (.wire 0, 0) ∧ (0 : W32) < genOf s (.wire 0)) := by
  unfold State.waitsOn
  exact ⟨by decide, by decide, by decide, (waitingOn 4 (some (.wire 0, 0))).setWire 0 { valid := true, ctx := 1, gen := 1 }, by decide⟩

theorem witness_ClauseReleasesArePerformedInOrder :
    (∀ op ∈ [1, 3, 5], (acting .tx 1 (BitVec.ofNat 64 op)).heads 0 .tx .sync op 1 (BitVec.ofNat 64 op) ∧
      (acting .tx 1 (BitVec.ofNat 64 op)).settled 0 .tx) ∧
    (∃ s : State, s.heads 0 .mx .sync 1 1 1 ∧ (s.eng 0 .mx).releases = [] ∧
      ∃ l ∈ (s.eng 0 .mx).inflight, l.issued ≤ (s.eng 0 .mx).now) := by
  unfold State.heads State.settled
  exact ⟨by decide, eng .mx { st := .issuing, issuing := [(1, 1)], inflight := [⟨9, 0, 7, .scal 1 1⟩] }, by decide⟩

theorem witness_ClauseFetchDeliversLegalClause :
    let s := eng .mx { st := .issuing, ctx := 1, pc := 0x30000 } (leBytes 8 0x08000000)
    let t := eng .mx { st := .issuing, ctx := 1, pc := 0x30004 }
    ((s.eng 0 .mx).live = true ∧ (s.eng 0 .mx).clause = none ∧ (s.eng 0 .mx).issuing = [] ∧ (s.eng 0 .mx).aborting = false ∧
      ∃ u k, fetchClause s 0 .mx = (u, .inl k)) ∧ ∃ u x, fetchClause t 0 .mx = (u, .inr x) :=
  ⟨⟨by decide, by decide, by decide, by decide, inl_of _ (by decide +kernel)⟩, inr_of _ (by decide)⟩

/-- A clause of one MOVI that is to issue. -/
def toIssue : Clause := { addr := 0x30000, hdr := 0x08000080, slots := [(7, 9)] }

/-- The engine that is to issue `k`, the checks of hazard-watch on, with the writes `hz` tracked. -/
def issues (k : Clause) (hz : List HzW := []) : State :=
  let s := eng .mx { st := .issuing, ctx := 1, pc := 0x30000, clause := some k, waitOk := true, hz := hz }
  { s with regs := rootRegs ++ [(coreA 0 0x0C, 1)]
           boot := { s.boot with charter := { s.boot.charter with dbgHazard := true } } }
/-- A clause of one slot: LDS past the window, or ADD of scalar 1. -/
def faulting : Clause := { toIssue with slots := [(7, 0x10000 * 2 ^ 32 + 11)] }
def adding : Clause := { toIssue with slots := [(7, 0x2001)] }
/-- A write of scalar 1 that lands after the first execution. -/
def late : List HzW := [⟨1, 0, 1, 9⟩]

theorem witness_ClauseIssueFollowsSchedule :
    (∀ x ∈ [(toIssue, []), (faulting, []), (adding, late)], let s := issues x.1 x.2
      (s.eng 0 .mx).clause = some x.1 ∧ (s.eng 0 .mx).live = true ∧ s.clocked = true ∧ (s.eng 0 .mx).st = .issuing ∧
        (s.eng 0 .mx).waitOk = true ∧ (s.eng 0 .mx).issuing = [] ∧ (s.eng 0 .mx).done = 0 ∧ (s.eng 0 .mx).gbHeld = false ∧
        (s.eng 0 .mx).aborting = false ∧ (s.eng 0 .mx).stopPending = false ∧ hwOn s 0 .mx = true ∧
        (s.eng 0 .mx).unchecked = false) ∧
    -- nothing stops it; a slot that faults; a hazard: scalar 1 is still to be written when ADD reads it
    (preflight 0 .mx toIssue (issues toIssue) = none ∧ actingSlots toIssue true = [(7, 9)]) ∧
    (∃ x, preflight 0 .mx faulting (issues faulting) = some (.fault x)) ∧
    (∃ a b c d, preflight 0 .mx adding (issues adding late) = some (.hazard a b c d)) ∧
    -- a later execution
    (∃ s : State, (s.eng 0 .mx).clause = some toIssue ∧ (s.eng 0 .mx).live = true ∧ s.clocked = true ∧
      (s.eng 0 .mx).st = .issuing ∧ (s.eng 0 .mx).waitOk = true ∧ (s.eng 0 .mx).issuing = [] ∧ (s.eng 0 .mx).done = 1) := by
  have h (o : Option Stop) (h : (match o with | some (.fault _) => true | _ => false) = true) : ∃ x, o = some (.fault x) := by
    rcases o with _ | (_ | x)
    · cases h
    · cases h
    · exact ⟨x, rfl⟩
  have g (o : Option Stop) (h : (match o with | some (.hazard _ _ _ _) => true | _ => false) = true) :
      ∃ a b c d, o = some (.hazard a b c d) := by
    rcases o with _ | (⟨a, b, c, d⟩ | x)
    · cases h
    · exact ⟨a, b, c, d, rfl⟩
    · cases h
  exact ⟨by decide +kernel, by decide +kernel, h _ (by decide +kernel), g _ (by decide +kernel),
    eng .mx { st := .issuing, clause := some toIssue, waitOk := true, done := 1 }, by decide⟩

/-- A gleaning window of context 1 with one request. -/
def glw : GlWin := { ctx := 1, reqs := [{ cmd := ⟨0, 2, 5⟩, aNoun := 1, oNoun := 2, m := 1, sig := true }] }

theorem witness_StreamStopsAndEnds :
    (∀ e ∈ [CE.mx, .tx], let s := eng e { st := .issuing, ending := true }
      s.clocked = true ∧ (s.eng 0 e).finished = true ∧ (s.eng 0 e).faultCause = none ∧ (s.eng 0 e).aborting = false ∧
        s.settled 0 e) ∧
    (∃ (k : Clause) (s : State), s.clocked = true ∧ (s.eng 0 .mx).clause = some k ∧ (s.eng 0 .mx).live = true ∧
      (s.eng 0 .mx).stopPending = true ∧ k.stop = true ∧ (s.eng 0 .mx).between = true ∧ (s.eng 0 .mx).aborting = false ∧
      (s.core 0).glPass = none) ∧
    -- a pass that was asked to stop, before its first K tile
    (∃ (w v : GlWin) (u s : State), s.clocked = true ∧ (s.core 0).glPass = some w ∧ w.stop = true ∧ w.stopped = false ∧
      w.summed = false ∧ glRun 0 (w.stepsFor w.begun) s w = (u, .inl v)) ∧
    (∃ s : State, s.clocked = true ∧ (s.eng 0 .mx).live = true ∧ (s.eng 0 .mx).stopPending = true ∧
      (s.eng 0 .mx).stopReqAt + 16384 ≤ (s.core 0).cycles) ∧
    ((eng .tx { st := .parked }).eng 0 .tx).st = .parked := by
  unfold State.settled
  have hw : GlWin.stepsFor { glw with stop := true } (GlWin.begun { glw with stop := true }) = 0 := by decide +kernel
  refine ⟨by decide,
    ⟨{ hdr := 0x04000000 }, eng .mx { st := .issuing, clause := some { hdr := 0x04000000 }, stopPending := true }, by decide⟩,
    ⟨{ glw with stop := true }, { glw with stop := true }, (mapped []).setCore 0 { glPass := some { glw with stop := true } },
      (mapped []).setCore 0 { glPass := some { glw with stop := true } }, by decide, by decide, rfl, rfl, by decide +kernel, ?_⟩,
    ⟨(mapped []).setCore 0 { cycles := 16384, mx := { st := .issuing, stopPending := true } }, by decide⟩,
    by decide⟩
  rw [hw, glRun]

/-! ## Hypotheses: matrix engine, transfers, slices, preemption, gleaning -/

/-- An MX that acts on a load slot. -/
def mx4 (op : Nat) : State := acting .mx 4 (BitVec.ofNat 64 op)

theorem witness_MxLoadsAndDrainsPutRowsInFlight :
    (∀ op ∈ [1, 2, 3], (mx4 op).heads 0 .mx .load op 4 (BitVec.ofNat 64 op) ∧
      ∃ u lines, ldLines ((mx4 op).popSlot 0 .mx) (.ls 0 1) (((mx4 op).eng 0 .mx).noun 0) 0 1 = (u, .inl lines)) ∧
    (∀ op ∈ [1, 2], (acting .mx 6 (BitVec.ofNat 64 op)).heads 0 .mx .store op 6 (BitVec.ofNat 64 op)) := by
  refine ⟨?_, by unfold State.heads; decide⟩
  intro op h
  simp only [List.mem_cons, List.mem_nil_iff, or_false] at h
  rcases h with rfl | rfl | rfl <;>
    exact ⟨by unfold State.heads; decide, inl_of _ (by decide +kernel)⟩

/-- An MX that acts on op slot word `w`, with operand buffers 0 and 2 loaded in formats `fa` and `fb`. -/
def operands (w : W64) (fa fb : Nat) : State :=
  let s := acting .mx 5 w
  s.setCore 0 { s.core 0 with bufs := ((s.core 0).bufs.put {} 0 { fmt := some fa }).put {} 2 { fmt := some fb } }

theorem witness_MxOperationsPutResultsInFlight :
    (∀ op ∈ [1, 2], (operands (BitVec.ofNat 64 op) 8 8).heads 0 .mx .op op 5 (BitVec.ofNat 64 op)) ∧
    mayMeet (((operands 1 8 8).core 0).bufs.get {} 0).fmt (((operands 1 8 8).core 0).bufs.get {} 2).fmt = true ∧
    mayMeet (((operands 1 8 0).core 0).bufs.get {} 0).fmt (((operands 1 8 0).core 0).bufs.get {} 2).fmt = false ∧
    (∀ op ∈ [3, 4], (operands (BitVec.ofNat 64 op) 8 8).heads 0 .mx .op op 5 (BitVec.ofNat 64 op)) ∧
    (∃ r : MmaRun, r.fmtA = some 8 ∧ r.fmtB = some 8 ∧ r.k = 1 ∧ r.rows = 1) := by
  unfold State.heads
  exact ⟨by decide, by decide, by decide, by decide, { fmtA := some 8, fmtB := some 8, k := 1, rows := 1 }, by decide⟩

theorem witness_IncompatibleMmaLeavesItsBank : ∀ fs ∈ [(8, 0), (10, 10)],
    (operands 1 fs.1 fs.2).heads 0 .mx .op 1 5 1 ∧
    (((operands 1 fs.1 fs.2).core 0).bufs.get {} 0).fmt = some fs.1 ∧
    (((operands 1 fs.1 fs.2).core 0).bufs.get {} 2).fmt = some fs.2 := by unfold State.heads; decide

/-- A TX that acts on transfer slot word `w`; generators 0 stand past their index noun, generators 1 at an address that is
not mapped. -/
def tx4 (w : W64) : State :=
  eng .tx { st := .issuing, ctx := 1, issuing := [(4, w)], clause := some { addr := 0x30000 }
            ag := (({} : Tbl Agu).put {} 0 { index := true, pos := 5 }).put {} 1 { addr := 0xF00000000000 } }
/-- ... with the transfer `x` outstanding. -/
def after4 (w : W64) (x : Xfer) : State :=
  let s := tx4 w
  s.setCore 0 { s.core 0 with xfers := [x] }

theorem witness_TxTransfersActAndComplete :
    (∀ op ∈ [1, 2, 3, 4, 5, 6, 7], (tx4 (BitVec.ofNat 64 op)).heads 0 .tx .xfer op 4 (BitVec.ofNat 64 op) ∧
      ((tx4 (BitVec.ofNat 64 op)).eng 0 .tx).clause = some { addr := 0x30000 }) ∧
    -- a transfer that acts at once; one behind a transfer that has yet to act; one whose access fails
    ((∃ u, gatherBody 0 ((tx4 4).xop 0 4) ((tx4 4).popSlot 0 .tx) = (u, none)) ∧
      ((tx4 4).popSlot 0 .tx).actsNow 0 ((tx4 4).xop 0 4) ∧
      ¬ ((after4 4 { job := some {} }).popSlot 0 .tx).actsNow 0 ((tx4 4).xop 0 4)) ∧
    (∃ u e, copyBody ((tx4 0x901).xop 0 0x901) ((tx4 0x901).popSlot 0 .tx) = (u, some e)) ∧
    -- a bad index of GATHER and of SCATTER
    ((tx4 4).eng 0 .tx).fn = 0 ∧ ((tx4 5).popSlot 0 .tx).actsNow 0 ((tx4 5).xop 0 5) ∧
    (∃ u, readIndex ((tx4 4).popSlot 0 .tx) ((tx4 4).xop 0 4).p ((tx4 4).xop 0 4).sg.idx ((tx4 4).xop 0 4).sg.pos.toNat
      = (u, .inl 0xFFFFFFFF)) ∧ badIndex 0xFFFFFFFF (((tx4 4).xop 0 4).src.e 1) = true ∧
    (∃ u, readIndex ((tx4 5).popSlot 0 .tx) ((tx4 5).xop 0 5).p ((tx4 5).xop 0 5).dg.idx ((tx4 5).xop 0 5).dg.pos.toNat
      = (u, .inl 0xFFFFFFFF)) ∧ badIndex 0xFFFFFFFF (((tx4 5).xop 0 5).dst.e 1) = true ∧
    -- transfers that complete: one that has had its effect, one that has yet to have it, and fails
    (∃ s : State, s.clocked = true ∧ ((s.core 0).xfers.find? (fun y => y.id == 3)) = some { id := 3, sig := true } ∧
      ({ id := 3, sig := true } : Xfer).isGet = false ∧ ({ id := 3, sig := true } : Xfer).flitsLeft = 0 ∧
      ({ id := 3, sig := true } : Xfer).job = none) ∧
    (let x : Xfer := { id := 3, ctx := 1, job := some { op := 1, sg := { addr := 0xF00000000000 } } }
     let s := after4 1 x
     s.clocked = true ∧ (s.core 0).xfers.find? (fun y => y.id == 3) = some x ∧ x.isGet = false ∧ x.flitsLeft = 0 ∧
      (∀ y ∈ (s.core 0).xfers, y.cmd = x.cmd → y.id ≠ 3 → y.job = none) ∧ (s.eng 0 .tx).busy = true ∧
      (s.eng 0 .tx).cmd = x.cmd ∧
      ∃ u e, jobBody 0 0 x.cmd { op := 1, sg := { addr := 0xF00000000000 } }
        (XJob.xop { op := 1, sg := { addr := 0xF00000000000 } } 0 0 1) s = (u, some e)) := by
  unfold State.actsNow
  refine ⟨by unfold State.heads; decide, ⟨none_of _ (by decide +kernel), by decide +kernel, by decide +kernel⟩,
    snd_of' _ (by decide +kernel), by decide, by decide +kernel, ⟨_, rfl⟩, by decide, ⟨_, rfl⟩, by decide,
    ⟨(mapped []).setCore 0 { xfers := [{ id := 3, sig := true }] }, by decide⟩, by decide, by decide, by decide, by decide, ?_,
    by decide, by decide, snd_of' _ (by decide +kernel)⟩
  intro y hy _ hid
  have hx : y = { id := 3, ctx := 1, job := some { op := 1, sg := { addr := 0xF00000000000 } } } := List.mem_singleton.mp hy
  exact absurd (congrArg Xfer.id hx) hid

/-- Function 0 holds the slice of partition 0, and function `f` has a command to consume. -/
def waiting (f : Nat) : State :=
  let s := tenanted (mapped [])
  { s with hq := { s.hq with queues := s.hq.queues.put {} (64 * f) { st := .active, tail := 1 } } }

theorem witness_SliceEndsAndHandoverCompletes :
    -- the tenant holds a slice and is no longer active: nobody waits, or function 1 does
    (∀ x ∈ [(tenanted (mapped []), none), (waiting 1, some 1)], (x.1.partS 0).holder = some 0 ∧ sliceOver x.1 0 = true ∧
      gateClosed x.1 0 = false ∧ takeoverDue x.1 0 = none ∧ bestTenant x.1 0 = x.2) ∧
    -- the slice goes on
    (((waiting 0).partS 0).holder = some 0 ∧ sliceOver (waiting 0) 0 = false ∧ gateClosed (waiting 0) 0 = false ∧
      takeoverDue (waiting 0) 0 = none) ∧
    -- a takeover that was put off; the grant of a slice that nobody holds
    (let s := (waiting 0).setPartS 0 { holder := some 1, takeDue := true }
     gateClosed s 0 = false ∧ takeoverDue s 0 = some 0) ∧
    (let s := (waiting 1).setPartS 0 {}
     gateClosed s 0 = false ∧ takeoverDue s 0 = none ∧ (s.partS 0).holder = none ∧ bestTenant s 0 = some 1) ∧
    -- the partition has just exhausted its budget
    gateClosed { waiting 0 with gov := { ready.gov with parts := ({} : Tbl PartAcct).put {} 0 { spent := 100 * 65536 } } } 0 = true ∧
    (∃ s : State, (s.partS 0).outgoing = some 0 ∧ (s.partS 0).last = some 1 ∧ ∀ c ∈ coresOf s 0, (s.core c).stopping = false) :=
  ⟨by decide +kernel, by decide +kernel, by decide +kernel, by decide +kernel, by decide +kernel,
   ⟨(waiting 1).setPartS 0 { holder := some 1, outgoing := some 0, last := some 1 }, by decide +kernel⟩⟩

/-- A saved stream of context 1 on the TX, `n` bytes of it still in the buffer. -/
def savedTx (n : Nat) : StreamSave := { e := .tx, eng := { ctx := 1 }, bytes := n, stamp := 3 }
/-- Core 0 holds it; the save area of context 1 stands at `a`; the second 2 MiB are mapped as well. -/
def holding (n : Nat) (a : Nat := 0x60000) : State :=
  let s := (tenanted (mapped [])).setCore 0 { streams := [savedTx n] }
  { s with mem := tables ++ [(0x4000020008, 0xF), (0x400002000A, 0x20), (0x400002000C, 0x40)] ++ tablesHigh
           hq := { s.hq with ctxs := s.hq.ctxs.put {} 1 { live := true, save := a, saveSize := 200000 } } }

theorem witness_PreemptionCopiesAndRestores_copies :
    (∃ s : State, (s.eng 0 .mx).stopped = true ∧ (s.eng 0 .mx).aborting = false ∧
      preRoom (s.core 0) (streamBytes .mx (s.eng 0 .mx)) = true ∧ (s.core 0).glPass = none) ∧
    (∃ (w : GlWin) (s : State), (s.core 0).glPass = some w ∧ w.stopped = true ∧ preRoom (s.core 0) (passBytes w) = true) ∧
    (∃ s : State, (s.te 0).grid = some {} ∧ (s.te 0).stopPending = true ∧ (s.te 0).reqs = [] ∧ gridCut s 0 = false ∧
      preRoom (s.core 0) (teBytes (s.te 0)) = true ∧ rising (s.te 0).pun.entries = true ∧ (s.pun 0 3).resident = true) ∧
    -- the write-out of a copy to a save area, and to one that is not mapped
    (oldestCopy ((holding 592).core 0) = some (3, 592, 1) ∧
      ∃ u, saveAll ((holding 592).setCore 0 (((holding 592).core 0).wroteOut 3)) 1 (copyPieces (holding 592) 0 3) = (u, none)) ∧
    (oldestCopy ((holding 592 0xF00000000000).core 0) = some (3, 592, 1) ∧
      ∃ u e, saveAll ((holding 592 0xF00000000000).setCore 0 (((holding 592 0xF00000000000).core 0).wroteOut 3)) 1
        (copyPieces (holding 592 0xF00000000000) 0 3) = (u, some e)) :=
  ⟨⟨eng .mx { st := .issuing, stopped := true, accLive := 3 }, by decide⟩,
   ⟨{ glw with stopped := true }, (mapped []).setCore 0 { glPass := some { glw with stopped := true } }, by decide +kernel⟩,
   ⟨(mapped []).setCore 0 { te := { grid := some {}, stopPending := true, pun := ({} : Tbl Punnet).put {} 3 { resident := true } } },
     by decide +kernel⟩,
   ⟨by decide +kernel, none_of _ (by decide +kernel)⟩, by decide +kernel, snd_of' _ (by decide +kernel)⟩

theorem witness_PreemptionCopiesAndRestores_restores :
    -- a stream from the buffer, and from the save area
    (∀ n ∈ [592, 0], restoreFor (holding n) 0 = some 0 ∧
      ((holding n).core 0).streams.find? (fun v => v.e == .tx && v.eng.fn == 0) = some (savedTx n) ∧
      ((holding n).eng 0 .tx).st = .idle ∧ resident (holding n) (savedTx n).eng.ctx = true ∧
      ∃ u b, streamBack (holding n) 0 (savedTx n) = (u, .inl b)) ∧
    (∃ (w : GlWin) (s : State), restoreFor s 0 = some 0 ∧ (s.core 0).glSaved.find? (fun w => w.fn == 0) = some w ∧
      (s.eng 0 .mx).st = .idle ∧ (s.core 0).glPass = none ∧ resident s w.ctx = true ∧ ∃ u b, passBack s 0 w = (u, .inl b)) ∧
    (∃ (v : TeSave) (s : State), restoreFor s 0 = some 0 ∧ (s.te 0).saved.find? (fun v => v.fn == 0) = some v ∧
      resident s v.ctx = true ∧ s.syn.dumpBusy = false ∧
      ∀ n ∈ bunchCores 0, teStopping s n v.ctx = false ∧
        ∀ w ∈ (s.te n).saved, w.ctx = v.ctx → (s.te n).grid = none ∧ (s.te n).reqs = [] ∧ w.bytes ≠ 0) := by
  let w : GlWin := { glw with bytes := 1, stamp := 3 }
  let v : TeSave := { ctx := 1, grid := some {}, bytes := 1, stamp := 3 }
  refine ⟨?_, ⟨w, (tenanted (mapped [])).setCore 0 { glSaved := [w] }, by decide +kernel, by decide +kernel, by decide +kernel,
      by decide +kernel, by decide +kernel, inl_of _ (by decide +kernel)⟩,
    ⟨v, (tenanted (mapped [])).setCore 0 { te := { saved := [v] } }, by decide +kernel⟩⟩
  simp only [List.forall_mem_cons]
  exact ⟨⟨by decide +kernel, by decide +kernel, by decide +kernel, by decide +kernel, inl_of _ (by decide +kernel)⟩,
    ⟨by decide +kernel, by decide +kernel, by decide +kernel, by decide +kernel, inl_of _ (by decide +kernel)⟩, by simp⟩

theorem witness_GleaningRowsTakeEffect :
    (((mapped []).setCore 0 { glean := [glw] }).core 0).glean.find? (fun w => w.due (mapped []).time) = some glw ∧
    -- a pass that may start, though its nouns are not valid; a window that its requests have left
    (let s := (tenanted (mapped [])).setCore 0 { glQueue := [glw] }
     nextPass s 0 = some glw ∧ glw.reqs ≠ [] ∧ glw ∉ (s.core 0).glean ∧ engFree s 0 .mx glw.fn = true ∧
      let b := beginPass s 0 glw
      ∃ u e, resolveAll b 0 glw.ctx (b.core 0).nounStamp glw.handles {} = (u, .inr e)) ∧
    (∃ s : State, nextPass s 0 = some { glw with reqs := [] }) ∧
    (∃ (w v : GlWin) (u s : State), (s.core 0).glPass = some w ∧ w.stopped = false ∧ s.clocked = true ∧
      w.reqs = glw.reqs ∧ glRun 0 w.steps s w = (u, .inl v)) := by
  let s := (mapped []).setCore 0 { glPass := some glw }
  refine ⟨by decide, ⟨by decide +kernel, by decide, by decide +kernel, by decide +kernel, inr_of _ (by decide +kernel)⟩,
    ⟨(mapped []).setCore 0 { glQueue := [{ glw with reqs := [] }] }, by decide +kernel⟩, glw, ?_⟩
  obtain ⟨u, v, h⟩ := inl_of (glRun 0 glw.steps s glw) (by decide +kernel)
  exact ⟨v, u, s, by decide +kernel, by decide +kernel, by decide +kernel, by decide +kernel, h⟩

/-! ## Hypotheses: threads -/

theorem snd_of {α β : Type} (p : α × β) (b : β) (h : p.2 = b) : ∃ u, p = (u, b) := ⟨p.1, Prod.ext rfl h⟩

/-- A grid of context 1 with its trap stack at 2^43 + 0x70000. -/
def oneGrid : Grid := { ctx := 1, trapBase := 0x80000070000, trapSize := 4096, threads := 32, blocks := 2 }
/-- Punnet 0 of core 0 at its instruction `w`, with the registers `r` beside the pc, all lanes and the trap pointer. -/
def thr (w : W64) (r : PunRegs := {}) (te : Te := {}) (x : Punnet := {}) : State :=
  (mapped (leBytes 8 w.toNat)).setCore 0 { te := { te with
    grid := some oneGrid
    pun := te.pun.put {} 0 { x with
      resident := true, ctx := 1, init := 0xFFFFFFFF
      regs := { r with pc := 0x30000, active := 0xFFFFFFFF, u := r.u.put 0 63 0x80000071000 } } } }
/-- The fetch of punnet 0's instruction, and the state after it. -/
def fetchOf (s : State) : State × (List Byte ⊕ XF) :=
  readVa s 0 (s.pun 0 0).fn (some (s.pun 0 0).ctx) (s.pun 0 0).regs.pc 8 .fetch
def after (s : State) : State := (fetchOf s).1
def canIssue (s : State) (w : W64) : Bool :=
  teLegal w && punReady s 0 0 && !(s.pun 0 0).stepDue && (s.pun 0 0).regs.pc % 8 == 0 && scoreOk (after s) 0 0 w
    && badLanes (s.pun 0 0).regs w (execLanes (s.pun 0 0).regs w) == 0
    && (match (fetchOf s).2 with | .inl b => BitVec.ofNat 64 (leNat b) == w | .inr _ => false)

theorem fetched_of (s : State) (w : W64) (ops : List Nat) (h : canIssue s w = true ∧ tOp w ∈ ops) :
    s.fetched 0 0 ops w (after s) := by
  obtain ⟨h, ho⟩ := h
  simp only [canIssue, Bool.and_eq_true, Bool.not_eq_true', beq_iff_eq] at h
  obtain ⟨⟨⟨⟨⟨⟨h1, h2⟩, h3⟩, h4⟩, h5⟩, h7⟩, h6⟩ := h
  refine ⟨ho, h1, h2, h3, h4, h5, h7, ?_⟩
  cases hr : (fetchOf s).2 with
  | inr e => rw [hr] at h6; cases h6
  | inl b =>
    rw [hr] at h6
    exact ⟨b, Prod.ext rfl hr, by simpa using h6⟩

theorem issues_of (s : State) (w : W64) (ops : List Nat) (h : (canIssue s w = true ∧ tOp w ∈ ops) ∧ stepOn (after s) 0 0 = false) :
    s.issues 0 0 ops w (after s) := ⟨fetched_of s w ops h.1, h.2⟩

theorem issues_all (ws : List W64) (h : ws.all (fun w => canIssue (thr w) w && !stepOn (after (thr w)) 0 0) = true) :
    ∀ w ∈ ws, ∃ u, (thr w).issues 0 0 [tOp w] w u := by
  intro w hw
  have h1 := List.all_eq_true.mp h w hw
  simp only [Bool.and_eq_true, Bool.not_eq_true'] at h1
  exact ⟨_, issues_of _ w _ ⟨⟨h1.1, by simp⟩, h1.2⟩⟩
/-- One request `r` of punnet 0 is left. -/
def asking (r : TeReq) : State := thr 0x54 {} { reqs := [r] }

/-- Port 0 as given. -/
def ported (p : Port) (s : State := mapped []) : State := s.setPort 0 p
def up : State := ported { st := .up }

/-- Each operation over vector registers, then with a uniform destination and uniform sources. -/
def intWords : List W64 :=
  [0x01, 0x02, 0x03, 0x04, 0x05, 0x06, 0x07, 0x08, 0x09, 0x0A, 0x0B, 0x0C, 0x0D, 0x0E, 0x0F, 0x11, 0x91,
   0x20100002001, 0x20100002002, 0x20100002003, 0x20100002004, 0x4020100002005, 0x20100002006, 0x20100002007, 0x20100002008,
   0x20100002009, 0x2010000200A, 0x2010000200B, 0x2010000200C, 0x10000200D, 0x10000200E, 0x10000200F, 0x100002011, 0x2091]

theorem witness_ThreadIntegerRowsLandResults :
    (∀ w ∈ intWords, ∃ u, (thr w).issues 0 0 [tOp w] w u) ∧ ((intWords.take 17).all tDu = false) ∧ (intWords.drop 17).all tDu = true :=
  ⟨issues_all _ (by decide +kernel), by decide, by decide⟩

theorem witness_ThreadFloatAndLaneRowsLandResults :
    ∀ w ∈ ([0x20, 0x21, 0x22, 0x23, 0x24, 0x25, 0x27, 0x28, 0x29, 0x2A, 0x2B, 0x2C, 0x2D, 0x2E, 0x30, 0x10, 0x3A, 0xA0] : List W64),
      ∃ u, (thr w).issues 0 0 [tOp w] w u := issues_all _ (by decide +kernel)

theorem witness_ThreadPredicateAndUniformRowsLandResults :
    -- ICMP, FCMP, PCOMB, LPOLL, CJ.READ and RDSR of a vector destination
    (∀ w ∈ ([0x12, 0x26, 0x38, 0x39, 0x63, 0x3C] : List W64), ∃ u, (thr w).issues 0 0 [tOp w] w u) ∧
    ([0x12, 0x26, 0x38, 0x39] : List W64).all (fun w => !(tOp w == 0x39) || fld (tMod w) 0 2 != 2) = true ∧ tDu 0x3C = false ∧
    -- LPOLL ballot, MOVHI, V2U, RDSR of 1 to 5 with a uniform destination
    (∀ w ∈ ([0x10000000002039, 0x2013, 0x203B, 0x10000203C, 0x50000203C] : List W64),
      (∃ u, (thr w).issues 0 0 [tOp w] w u) ∧ tDu w = true) := by
  refine ⟨issues_all _ (by decide +kernel), by decide, by decide, fun w hw => ⟨issues_all _ (by decide +kernel) w hw, ?_⟩⟩
  exact List.all_eq_true.mp (by decide : ([0x10000000002039, 0x2013, 0x203B, 0x10000203C, 0x50000203C] : List W64).all tDu = true) w hw

theorem witness_ThreadControlRowsMoveThePunnet :
    -- a branch that all lanes take, that none takes, and that some take
    (∃ u, (thr 0x50).issues 0 0 [0x50] 0x50 u) ∧
    execLanes ((thr 0x50).pun 0 0).regs 0x50 = ((thr 0x50).pun 0 0).regs.active ∧
    (∃ u, (thr 0x1050).issues 0 0 [0x50] 0x1050 u) ∧
    execLanes ((thr 0x1050).pun 0 0).regs 0x1050 = 0 ∧ ((thr 0x1050).pun 0 0).regs.active ≠ 0 ∧
    (∃ s u : State, s.issues 0 0 [0x50] 0x1150 u ∧ execLanes (s.pun 0 0).regs 0x1150 = 5 ∧ (s.pun 0 0).regs.active ≠ 5 ∧
      (s.pun 0 0).regs.stack.length < 32) ∧
    -- CALL, BRX, EXIT, NOP
    (∀ w ∈ ([0x51, 0x4052, 0x53, 0x54] : List W64), ∃ u, (thr w).issues 0 0 [tOp w] w u) ∧
    ((((thr 0x4052).pun 0 0).regs.ug (tAi 0x4052) + (tImm 0x4052).signExtend 64).toNat % 8 = 0) ∧
    loadsDone (after (thr 0x53)) 0 0 = true ∧
    (∃ s u : State, s.issues 0 0 [0x53] 0x53 u ∧ loadsDone u 0 0 = false) := by
  let s := thr 0x1150 { p := ({} : Tbl W32).put 0 1 5 }
  let v := thr 0x53 {} { reqs := [{ slot := 0 }] }
  exact ⟨issues_all [0x50] (by decide +kernel) _ (by simp), by decide, issues_all [0x1050] (by decide +kernel) _ (by simp), by decide,
    by decide, ⟨s, _, issues_of s 0x1150 [0x50] (by decide +kernel), by decide, by decide, by decide⟩, issues_all _ (by decide +kernel),
    by decide, by decide +kernel, v, _, issues_of v 0x53 [0x53] (by decide +kernel), by decide +kernel⟩

/-- The same where a debugger steps punnet 0, in park mode. -/
def stepping (w : W64) : State :=
  let s := thr w
  let t := { s with boot := { s.boot with charter := { s.charter with dbgStep := true } }, regs := rootRegs ++ [(coreA 0 0x224, 4)] }
  t.setTe 0 { t.te 0 with grid := some { oneGrid with trapMode := true } }

/-- A walk whose table entries are what memory holds, wherever they come from: the state after it, the leaf, its page size. -/
def plainWalk (s : State) (tl f va : Nat) : Nat → Nat → Nat → Option (State × Nat × Nat)
  | 0, _, _ => none
  | n + 1, tab, level =>
    let pa := tab + 8 * vaIndex va level
    let held := (tlbOf s tl).find? (fun x => x.size == 0 && x.fn == f && x.va == pa)
    match (readPa s pa 8).2 with
    | none => none
    | some b =>
      let e := leNat b
      if tableCheck s f tab = none ∧ (readPa s pa 8).1 = s ∧ held.all (fun x => x.entry.toNat == e) = true ∧ bit e 0 = true ∧
          eMalformed e level = false then
        if bit e 1 then some (s, e, if level = 1 then 2 ^ 21 else 65536)
        else plainWalk (tlbAdd s tl ⟨f, pa, 0, BitVec.ofNat 64 e⟩) tl f va n (eAddr e) (level - 1)
      else none

theorem walk_of_plain (tl f va : Nat) : ∀ (n : Nat) (s : State) (tab level : Nat) (t : State) (e z : Nat),
    plainWalk s tl f va n tab level = some (t, e, z) → walk s tl f va n tab level = (t, .inl (e, z)) := by
  intro n
  induction n with
  | zero => intro s tab level t e z h; cases h
  | succ n ih =>
    intro s tab level t e z h
    simp only [plainWalk] at h
    rcases hr : readPa s (tab + 8 * vaIndex va level) 8 with ⟨s1, _ | b⟩ <;> rw [hr] at h
    · cases h
    · simp only at h
      split at h
      · obtain ⟨h1, h2, h3, h4, h5⟩ := ‹_ ∧ _›
        subst h2
        have he : readEntry s1 tl f (tab + 8 * vaIndex va level) = (s1, some (leNat b)) := by
          unfold readEntry
          dsimp only
          split
          · rename_i x hx
            have hy : x.entry.toNat = leNat b := by
              rw [hx] at h3
              simpa using h3
            rw [hr, hy]
            split <;> rfl
          · rw [hr]
            rfl
        simp only [walk, h1, he, h4, h5, Bool.not_true, Bool.false_eq_true, if_false]
        split at h
        · simp only [Option.some.injEq, Prod.mk.injEq] at h
          obtain ⟨rfl, rfl, rfl⟩ := h
          simp_all
        · rename_i hb
          simp only [hb, if_false, Bool.false_eq_true]
          exact ih _ _ _ _ _ _ h
      · cases h

/-- The page of size `z` that a leaf names admits an access outside the apertures. -/
def admits (s : State) (acc : Acc) (e z : Nat) : Bool :=
  (pageCheck s 0 (eAddr e)).isNone && !(acc == .write && !bit e 2)
    && !(acc == .fetch && !(bit e 3 && (isHbm (eAddr e) || isCommons (eAddr e)))) && !isLocal (eAddr e) && z != 0

theorem admits_spec (s : State) (acc : Acc) (e z : Nat) (h : admits s acc e z = true) :
    pageCheck s 0 (eAddr e) = none ∧ (acc == .write && !bit e 2) = false ∧
      (acc == .fetch && !(bit e 3 && (isHbm (eAddr e) || isCommons (eAddr e)))) = false ∧ isLocal (eAddr e) = false := by
  simp only [admits, Bool.and_eq_true, Bool.not_eq_true', Option.isNone_iff_eq_none] at h
  exact ⟨h.1.1.1.1, h.1.1.1.2, h.1.1.2, h.1.2⟩

/-- The walk of a translation on core 0 for function 0. -/
def walked (s : State) (va : Nat) : Option (State × Nat × Nat) :=
  plainWalk (monEvent s 21 0 1) 0 0 va 4 (fld (rd s (mmuA 0 0)).toNat 12 20 * 4096 + rdF s (mmuA 0 1) 0 20 * 2 ^ 32) 3
/-- The state after it. -/
def filledBy (s : State) (va : Nat) : Option (State × Nat × Nat) → State
  | some (t, e, z) => tlbAdd t 0 ⟨0, va - va % z, z, BitVec.ofNat 64 e⟩
  | none => s
def filled (s : State) (va : Nat) : State := filledBy s va (walked s va)
/-- A walk leads to `pa`; an access translates to it, by the entry that the TLB holds and by a new walk. -/
def leadsTo (va : Nat) (acc : Acc) (pa : Nat) : Option (State × Nat × Nat) → Bool
  | some (t, e, z) => admits t acc e z && eAddr e + va % z == pa
  | none => false
def translates (s : State) (va : Nat) (acc : Acc) (pa : Nat) : Bool :=
  let held := (tlbOf s 0).find? (fun e => e.size != 0 && e.fn == 0 && e.va ≤ va && va < e.va + e.size)
  va < 2 ^ 52 && bit (rd s (mmuA 0 0)).toNat 0
    && held.all (fun y => admits s acc y.entry.toNat y.size && eAddr y.entry.toNat + va % y.size == pa)
    && leadsTo va acc pa (walked s va)

theorem translate_new (s : State) (x : Option Nat) (va n : Nat) (acc : Acc) (t : State) (e z : Nat) (h1 : va < 2 ^ 52)
    (h2 : bit (rd s (mmuA 0 0)).toNat 0 = true)
    (hk : walk (monEvent s 21 0 1) 0 0 va 4
      (fld (rd s (mmuA 0 0)).toNat 12 20 * 4096 + rdF s (mmuA 0 1) 0 20 * 2 ^ 32) 3 = (t, .inl (e, z)))
    (hw : admits t acc e z = true) (o : Option TlbEntry) (ho : o = none ∨ Config.freeBit s.freeIdx va = false)
    (hx : List.find? (fun e => e.size != 0 && e.fn == 0 && decide (e.va ≤ va) && decide (va < e.va + e.size)) (tlbOf s 0) = o) :
    ∃ b c, translate s 0 0 x va n acc = (tlbAdd t 0 ⟨0, va - va % z, z, BitVec.ofNat 64 e⟩, .ok (eAddr e + va % z) b c) := by
  obtain ⟨w1, w2, w3, w4⟩ := admits_spec _ _ _ _ hw
  have h0 : (0 : Nat) < 32 := by decide
  have hm : (if (0 : Nat) < 32 then monEvent s 21 0 1 else s) = monEvent s 21 0 1 := if_pos h0
  rw [← hm] at hk
  unfold Machine.translate
  rw [if_neg (Nat.not_le.mpr h1), h2]
  generalize hy : List.find? _ (tlbOf s 0) = o'
  have ho' : o' = o := hy.symm.trans hx
  simp only [Bool.not_true, Bool.false_eq_true, if_false]
  generalize walk _ 0 0 va 4 _ 3 = r at hk ⊢
  subst hk ho'
  cases o' with
  | none =>
    simp only [w1, w2, w3, w4]
    exact ⟨_, _, rfl⟩
  | some y =>
    have hb : Config.freeBit s.freeIdx va = false := ho.resolve_left nofun
    simp only [hb, Bool.false_eq_true, if_false, w1, w2, w3, w4]
    exact ⟨_, _, rfl⟩

theorem translate_held (s : State) (x : Option Nat) (va n : Nat) (acc : Acc) (y : TlbEntry) (h1 : va < 2 ^ 52)
    (h2 : bit (rd s (mmuA 0 0)).toNat 0 = true) (hb : Config.freeBit s.freeIdx va = true)
    (hw : admits s acc y.entry.toNat y.size = true)
    (hx : List.find? (fun e => e.size != 0 && e.fn == 0 && decide (e.va ≤ va) && decide (va < e.va + e.size)) (tlbOf s 0) = some y) :
    ∃ b c, translate s 0 0 x va n acc = (s, .ok (eAddr y.entry.toNat + va % y.size) b c) := by
  obtain ⟨w1, w2, w3, w4⟩ := admits_spec _ _ _ _ hw
  unfold Machine.translate
  rw [if_neg (Nat.not_le.mpr h1), h2, hx]
  simp only [Bool.not_true, Bool.false_eq_true, if_false, if_true, hb, w1, w2, w3, w4]
  exact ⟨_, _, rfl⟩

/-- Whichever of the two serves it, the address is the same. -/
theorem translate_of (s : State) (x : Option Nat) (va n : Nat) (acc : Acc) (pa : Nat) (h : translates s va acc pa = true) :
    (∃ b c, translate s 0 0 x va n acc = (s, .ok pa b c)) ∨ ∃ b c, translate s 0 0 x va n acc = (filled s va, .ok pa b c) := by
  simp only [translates, Bool.and_eq_true, decide_eq_true_eq] at h
  obtain ⟨⟨⟨h1, h2⟩, h3⟩, h4⟩ := h
  have hf : filled s va = filledBy s va (walked s va) := rfl
  generalize hw : walked s va = r at h4 hf
  rcases r with _ | ⟨t, e, z⟩
  · cases h4
  have hk := walk_of_plain _ _ _ _ _ _ _ _ _ _ hw
  obtain ⟨h5, h6⟩ := (Bool.and_eq_true _ _ ▸ h4 : admits t acc e z = true ∧ (eAddr e + va % z == pa) = true)
  have hp : eAddr e + va % z = pa := beq_iff_eq.mp h6
  replace hf : filled s va = tlbAdd t 0 ⟨0, va - va % z, z, BitVec.ofNat 64 e⟩ := hf
  cases hb : Config.freeBit s.freeIdx va
  · exact .inr (hf ▸ hp ▸ translate_new s x va n acc t e z h1 h2 hk h5 _ (.inr hb) rfl)
  · cases hx : List.find? (fun e => e.size != 0 && e.fn == 0 && decide (e.va ≤ va) && decide (va < e.va + e.size)) (tlbOf s 0) with
    | none => exact .inr (hf ▸ hp ▸ translate_new s x va n acc t e z h1 h2 hk h5 none (.inl rfl) hx)
    | some y =>
      rw [hx] at h3
      have h7 : admits s acc y.entry.toNat y.size = true ∧ eAddr y.entry.toNat + va % y.size = pa := by simpa using h3
      exact .inl (h7.2 ▸ translate_held s x va n acc y h1 h2 hb h7.1 hx)

theorem pushed_of (s : State) (g : Grid) (u : Nat) (frame : List Byte) (h1 : (pushOk s 0 g u).2 = true) (hf : g.fn = 0)
    (pa : Nat)
    (ht : translates (pushOk s 0 g u).1 (u - 640) .write pa = true) (hp : pieces (u - 640) frame.length = [(u - 640, frame.length)]) :
    (pushFrame s 0 g u frame).2 = true := by
  have h : ∃ t b c, translate (pushOk s 0 g u).1 0 0 (some g.ctx) (u - 640) frame.length .write = (t, .ok pa b c) := by
    rcases translate_of _ (some g.ctx) (u - 640) frame.length .write pa ht with h | h
    · exact ⟨_, h⟩
    · exact ⟨_, h⟩
  obtain ⟨t, b, c, h⟩ := h
  unfold pushFrame writeVa
  generalize pushOk s 0 g u = r at h1 h
  obtain ⟨s1, b⟩ := r
  subst h1
  simp [hf, hp, h]

/-- The trap pointer of this punnet does not admit a frame: it is below base + 640. -/
def low (w : W64) : State :=
  let s := thr w
  s.setPun 0 0 { s.pun 0 0 with regs := (s.pun 0 0).regs.uset 63 0x80000070200 }

/-- The frame that this thread's trap pushes, in the state after the fetch. -/
def frameAt (s : State) (w : W64) : List Byte :=
  trapFrame (after s) 0 0 ((after s).pun 0 0) (s.pun 0 0).regs { cause := if tOp w = 0x56 then 6 else 5, mask := execLanes (s.pun 0 0).regs w }
    false (parkMode (after s) oneGrid)
def pushAt (s : State) (w : W64) : State × Bool := pushFrame (after s) 0 oneGrid ((s.pun 0 0).regs.ug 63).toNat (frameAt s w)

theorem witness_ThreadTrapsSaveAndStop :
    (∀ w ∈ ([0x55, 0x56] : List W64), oneGrid.stopped = false ∧ oneGrid.fn < 128 ∧
      -- TRAP and BRK with a frame that is pushed
      ((thr w).fetched 0 0 [tOp w] w (after (thr w)) ∧ punIdle (thr w) 0 0 = true ∧
        ((after (thr w)).te 0).grid = some oneGrid ∧ execLanes ((thr w).pun 0 0).regs w ≠ 0 ∧
        ∃ z, pushAt (thr w) w = (z, true)) ∧
      -- ... and with one that is not
      ((low w).fetched 0 0 [tOp w] w (after (low w)) ∧ punIdle (low w) 0 0 = true ∧
        ((after (low w)).te 0).grid = some oneGrid ∧ execLanes ((low w).pun 0 0).regs w ≠ 0 ∧
        ((low w).pun 0 0).regs.ug 63 = 0x80000070200 ∧ 0x80000070200 < oneGrid.trapBase + 640 ∧
        ∃ z, pushAt (low w) w = (z, false))) ∧
    -- an opcode that is not assigned
    (teFmt (tOp 0x1F) = none ∧ punReady (thr 0x1F) 0 0 = true ∧ ((thr 0x1F).pun 0 0).stepDue = false ∧
      (∃ bs, fetchOf (thr 0x1F) = (after (thr 0x1F), .inl bs) ∧ BitVec.ofNat 64 (leNat bs) = 0x1F) ∧
      punIdle (thr 0x1F) 0 0 = true ∧ ((after (thr 0x1F)).te 0).grid = some oneGrid) ∧
    -- single step
    ((stepping 0x54).fetched 0 0 [0x54] 0x54 (after (stepping 0x54)) ∧ stepOn (after (stepping 0x54)) 0 0 = true ∧
      (after (stepping 0x54)).hasLanes 0 0 ∧ punIdle (after (stepping 0x54)) 0 0 = true) := by
  unfold State.hasLanes
  refine ⟨?_, ⟨by decide, by decide, by decide, ⟨leBytes 8 0x1F, Prod.ext (by rw [after]) ?_, by decide +kernel⟩, by decide +kernel, by decide +kernel⟩,
    fetched_of _ _ _ (by decide +kernel), by decide +kernel, by decide +kernel, by decide +kernel⟩
  · simp only [List.forall_mem_cons]
    refine ⟨?_, ?_, by simp⟩
    all_goals
      refine ⟨rfl, by decide, ⟨fetched_of _ _ _ (by decide +kernel), by decide +kernel, by decide +kernel, by decide, ?_⟩,
        fetched_of _ _ _ (by decide +kernel), by decide +kernel, by decide +kernel, by decide, by decide +kernel, by decide,
        snd_of _ _ (by decide +kernel)⟩
      exact snd_of _ _ (pushed_of _ _ _ _ (by decide +kernel) rfl 0x4000070D80 (by decide +kernel) (by decide +kernel))
  · have h : (match (fetchOf (thr 0x1F)).2 with | .inl b => b == leBytes 8 0x1F | .inr _ => false) = true := by decide +kernel
    cases hr : (fetchOf (thr 0x1F)).2 with
    | inr e => rw [hr] at h; cases h
    | inl b => rw [hr] at h; rw [beq_iff_eq.mp h]

/-- Punnet 0 at `w`, in a block of the slots `slots`, with its arrival noted. -/
def syncing (w : W64) (slots : List Nat := [0]) (a : Option (Obj × W32) := none) (v : Wire := {}) : State :=
  let s := thr w {} { blocks := [{ ctx := 1, slots := slots, gen := 4 }] } { arrival := a }
  s.setWire 0 v

/-- What every clause asks, for the thread at `w`. -/
def syncs (s : State) (w : W64) : Prop :=
  s.issues 0 0 [tOp w] w (after s) ∧ execLanes (s.pun 0 0).regs w ≠ 0 ∧ (after s).hasLanes 0 0

theorem syncs_of (s : State) (w : W64) (h : (canIssue s w = true ∧ stepOn (after s) 0 0 = false) ∧
    execLanes (s.pun 0 0).regs w ≠ 0 ∧ ((after s).pun 0 0).init &&& ~~~((after s).pun 0 0).exited ≠ 0) : syncs s w :=
  ⟨issues_of s w _ ⟨⟨h.1.1, by simp⟩, h.1.2⟩, h.2⟩

theorem witness_ThreadSynchronisationRowsAct_barrier :
    -- another punnet of the block has not arrived, and none is left
    (∀ l ∈ [[0, 1], [0]], let u := after (syncing 0x60 l)
      syncs (syncing 0x60 l) 0x60 ∧ loadsDone u 0 0 = true ∧
      ∃ k, (u.te 0).blockOf 0 = some k ∧ 0 ∉ k.arrived ∧ (∀ q ∈ k.slots ++ k.arrived, (u.pun 0 q).nextArr = false) ∧
        (u.pun 0 0).ended = false ∧ 0 ∈ k.slots ∧
        (if l = [0] then ∀ q ∈ k.slots, q = 0 ∨ (u.pun 0 q).ended = true ∨ q ∈ k.arrived
          else ∃ q ∈ k.slots, q ≠ 0 ∧ (u.pun 0 q).ended = false ∧ q ∉ k.arrived)) := by
  simp only [List.forall_mem_cons]
  refine ⟨⟨syncs_of _ _ (by decide +kernel), by decide +kernel, { ctx := 1, slots := [0, 1], gen := 4 }, by decide +kernel⟩,
    ⟨syncs_of _ _ (by decide +kernel), by decide +kernel, { ctx := 1, slots := [0], gen := 4 }, by decide +kernel⟩, by simp⟩

theorem witness_ThreadSynchronisationRowsAct_conjunctions :
    (syncs (syncing 0x61) 0x61 ∧ releaseReady (after (syncing 0x61)) 0 0 = true) ∧
    -- CJ.WAIT for 0 and for 1
    (∀ w ∈ ([0x62, 0x10000000062] : List W64), syncs (syncing w) w ∧ waitReady (after (syncing w)) 0 0 = true) ∧
    (let u := after (syncing 0x62)
     sValue ((syncing 0x62).pun 0 0).regs 0x62 ≤ (u.conj 1 0).value ∧ (u.conj 1 0).shortPending = false) ∧
    ¬ sValue ((syncing 0x10000000062).pun 0 0).regs 0x10000000062 ≤ ((after (syncing 0x10000000062)).conj 1 0).value := by
  refine ⟨⟨syncs_of _ _ (by decide +kernel), by decide +kernel⟩, ?_, by decide +kernel, by decide +kernel⟩
  simp only [List.forall_mem_cons]
  exact ⟨⟨syncs_of _ _ (by decide +kernel), by decide +kernel⟩, ⟨syncs_of _ _ (by decide +kernel), by decide +kernel⟩, by simp⟩

/-- Wire 0 of context 1, whose member core 0 is, at generation `g`. -/
def wire1 (g : W32) : Wire := { ctx := 1, valid := true, mask := 3, gen := g }

theorem witness_ThreadSynchronisationRowsAct_arrivals :
    -- BW.ARRIVE at the context's wire, and at one that is not valid
    (let s := syncing 0x64 [0] none (wire1 0)
     syncs s 0x64 ∧ arriveReady (after s) 0 0 = true ∧ ((after s).wire 0).valid = true ∧
      ((after s).wire 0).ctx.toNat = ((after s).pun 0 0).ctx ∧ ((after s).wire 0).mask.toNat.testBit 0 = true) ∧
    (let s := syncing 0x64
     syncs s 0x64 ∧ arriveReady (after s) 0 0 = true ∧ ((after s).wire 0).valid = false) ∧
    -- GB.ARRIVE with a mask of core 0, with every tracker busy, and with the mask 0
    (let s := { syncing 0x10000000066 with syn := { (syncing 0x10000000066).syn with
       trackers := ⟨(List.range 64).map (fun t => (t, { busy := true, ctx := 9 }))⟩ } }
     syncs s 0x10000000066 ∧ arriveReady (after s) 0 0 = true ∧
      ∃ v, gbArriveOp (after s) 0 1 0 (sValue (s.pun 0 0).regs 0x10000000066) = (v, .held)) ∧
    (let s := syncing 0x10000000066
     syncs s 0x10000000066 ∧ arriveReady (after s) 0 0 = true ∧
      ∃ v, gbArriveOp (after s) 0 1 0 (sValue (s.pun 0 0).regs 0x10000000066) = (v, .arrived 0)) ∧
    (let s := syncing 0x66
     syncs s 0x66 ∧ arriveReady (after s) 0 0 = true ∧
      ∃ v, gbArriveOp (after s) 0 1 0 (sValue (s.pun 0 0).regs 0x66) = (v, .mismatch)) := by
  exact ⟨⟨syncs_of _ _ (by decide +kernel), by decide +kernel⟩, ⟨syncs_of _ _ (by decide +kernel), by decide +kernel⟩,
    ⟨syncs_of _ _ (by decide +kernel), by decide +kernel, snd_of _ _ (by decide +kernel)⟩,
    ⟨syncs_of _ _ (by decide +kernel), by decide +kernel, snd_of _ _ (by decide +kernel)⟩,
    ⟨syncs_of _ _ (by decide +kernel), by decide +kernel, snd_of _ _ (by decide +kernel)⟩⟩

theorem witness_ThreadSynchronisationRowsAct_waits :
    -- BW.WAIT after an arrival that is complete, after one that is not, without one; GB.WAIT likewise
    (∀ g ∈ ([1, 0] : List W32), let s := syncing 0x65 [0] (some (.wire 0, 0)) (wire1 g)
      syncs s 0x65 ∧ waitReady (after s) 0 0 = true ∧ ((after s).pun 0 0).arrival = some (.wire 0, 0) ∧
        ((after s).wire 0).valid = true ∧ ((after s).wire 0).ctx.toNat = ((after s).pun 0 0).ctx ∧ genOf (after s) (.wire 0) = g) ∧
    (let s := syncing 0x65 [0] none (wire1 0)
     syncs s 0x65 ∧ waitReady (after s) 0 0 = true ∧ ((after s).pun 0 0).arrival = none) ∧
    (let s := syncing 0x67 [0] (some (.group 1 0, 0))
     syncs s 0x67 ∧ waitReady (after s) 0 0 = true ∧ ((after s).pun 0 0).arrival = some (.group 1 0, 0)) ∧
    (syncs (syncing 0x67) 0x67 ∧ waitReady (after (syncing 0x67)) 0 0 = true ∧ ((after (syncing 0x67)).pun 0 0).arrival = none) := by
  simp only [List.forall_mem_cons]
  exact ⟨⟨⟨syncs_of _ _ (by decide +kernel), by decide +kernel⟩, ⟨syncs_of _ _ (by decide +kernel), by decide +kernel⟩, by simp⟩,
    ⟨syncs_of _ _ (by decide +kernel), by decide +kernel⟩, ⟨syncs_of _ _ (by decide +kernel), by decide +kernel⟩,
    syncs_of _ _ (by decide +kernel), by decide +kernel⟩

/-- The memory operation of an LD, an ST or an ATOM, as its row forms it. -/
def memOp (s : State) (w : W64) : MemOp :=
  let x := (s.pun 0 0).regs
  let lanes := if tDu w then (lanesOf (execLanes x w)).take 1 else lanesOf (execLanes x w)
  let n := Machine.sizeOf (tSize w)
  let an := Machine.sizeOf (fld (tMod w) 0 2)
  if tOp w = 0x40 then {
    space := tSpace w, acc := .read, kind := .load
    accs := lanes.map (fun l => { lane := l, va := addrOf x (tSpace w) (tA w) (tOff w) l, size := n })
    dst := some (if tDu w then .uni (tD w) else .vec (tD w)), regs := regsFor n, sext := tX w, acquire := isAcquire (tOrder w), scope := tScope w }
  else if tOp w = 0x41 then {
    space := tSpace w, acc := .write, kind := .store
    accs := lanes.map (fun l => { lane := l, va := addrOf x (tSpace w) (tA w) (tOff w) l, size := n,
                                  data := vecVal x (tD w) (regsFor n) l % 2 ^ (8 * n) })
    release := isRelease (tOrder w), scope := tScope w }
  else {
    space := fld (tMod w) 2 1, acc := .write, kind := .atom
    accs := lanes.map (fun l => { lane := l, va := addrOf x (fld (tMod w) 2 1) (tA w) 0 l, size := an,
                                  data := atomVal x an (tB w) l, cmp := atomVal x an (tC w) l })
    dst := if tX w then none else some (if tDu w then .uni (tD w) else .vec (tD w)), regs := regsFor an, atomOp := fld (tMod w) 9 4
    acquire := isAcquire (fld (tMod w) 6 3), release := isRelease (fld (tMod w) 6 3), scope := fld (tMod w) 3 3 }

/-- Its translations after the fetch. -/
def memTrs (s : State) (w : W64) : State × List (Nat × Tr) :=
  let u := after s
  let m := memOp s w
  lineTrs u 0 (u.pun 0 0).fn (u.pun 0 0).ctx m.space m.acc (if m.kind = .atom then some m.atomOp else none) (linesOf m.accs)

/-- With no transfer on the core, its entries are those of the TE's requests. -/
theorem entries_of (s : State) (h : (s.core 0).xfers = []) : entriesUsed s 0 = teEntries s 0 := by
  simp [entriesUsed, txEntries, h, Nat.mod_one]

theorem memGoes_of (s : State) (w : W64) (h : acquireOpen (after s) 0 0 = false ∧
    ((memOp s w).kind ≠ .load → loadsDone (after s) 0 0 = true) ∧ accTrap (memTrs s w).2 (memOp s w).accs = none ∧
    ((after s).core 0).xfers = [] ∧ teEntries (after s) 0 + (linesOf (memOp s w).accs).length ≤ 2048) :
    (after s).memGoes 0 0 (memOp s w) (memTrs s w).1 (memTrs s w).2 :=
  ⟨h.1, h.2.1, Prod.ext rfl rfl, h.2.2.1, entries_of _ h.2.2.2.1 ▸ h.2.2.2.2⟩

/-- The thread at `w` with lane 0 only, u1 = 2^43 + 128, the L1 on and a line of it held. -/
def cached (w : W64) : State :=
  let s := thr w { u := ({} : Tbl W64).put 0 1 0x80000000080 } { l1 := [{ va := 0x80000000080, bytes := List.replicate 128 7 }] }
  { s with regs := rootRegs ++ [(coreA 0 0x600, 1)] }

/-- The same with the line not held, and with a store of the punnet outstanding or a load. -/
def missing (w : W64) (l : List TeReq := []) : State :=
  let s := thr w { u := ({} : Tbl W64).put 0 1 0x80000000080 } { reqs := l }
  { s with regs := rootRegs ++ [(coreA 0 0x600, 1)] }

/-- What LD, ST and ATOM ask. -/
def goes (s : State) (w : W64) : Prop :=
  s.issues 0 0 [tOp w] w (after s) ∧ execLanes (s.pun 0 0).regs w ≠ 0 ∧ (after s).memGoes 0 0 (memOp s w) (memTrs s w).1 (memTrs s w).2

theorem goes_of (s : State) (w : W64) (h : ((canIssue s w = true ∧ tOp w ∈ [tOp w]) ∧ stepOn (after s) 0 0 = false) ∧
    execLanes (s.pun 0 0).regs w ≠ 0 ∧ acquireOpen (after s) 0 0 = false ∧
    ((memOp s w).kind ≠ .load → loadsDone (after s) 0 0 = true) ∧ accTrap (memTrs s w).2 (memOp s w).accs = none ∧
    ((after s).core 0).xfers = [] ∧ teEntries (after s) 0 + (linesOf (memOp s w).accs).length ≤ 2048) : goes s w :=
  ⟨issues_of _ _ _ h.1, h.2.1, memGoes_of _ _ h.2.2⟩

theorem witness_ThreadMemoryRowsIssueRequests :
    -- LD, ST and ATOM of the local store
    (∀ w ∈ ([0x1400000040, 0x1400000041, 0x0230000000000042] : List W64), goes (thr w) w ∧ (memOp (thr w) w).space = 1) ∧
    -- LD, ST and ATOM of a page, with the L1 on
    (∀ w ∈ ([0x501000040, 0x501000041, 0x0210000101000042] : List W64),
      goes (missing w) w ∧ (memOp (missing w) w).space = 0 ∧ l1On (after (missing w)) 0 = true ∧
      ∀ a ∈ (memOp (missing w) w).accs, ((after (missing w)).te 0).bankBusy (lineOf a.va) = false ∧
        ((after (missing w)).te 0).l1Find a.va = none) ∧
    -- LD of a line that the L1 holds
    (let s := cached 0x501000040
     goes s 0x501000040 ∧ linesOf (memOp s 0x501000040).accs = [0x80000000080] ∧
      (memTrs s 0x501000040).2 = [(0x80000000080, .ok 0x4000000080 false false)] ∧ l1On (memTrs s 0x501000040).1 0 = true ∧
      l1Serves 0x501000040 0x4000000080 false = true ∧ (((memTrs s 0x501000040).1).te 0).bankBusy 0x80000000080 = false ∧
      (((memTrs s 0x501000040).1).te 0).l1Find 0x80000000080 = some { va := 0x80000000080, bytes := List.replicate 128 7 }) ∧
    -- a misaligned LD
    (let s := thr 0x1001400000040
     s.issues 0 0 [0x40] 0x1001400000040 (after s) ∧ execLanes (s.pun 0 0).regs 0x1001400000040 ≠ 0 ∧
      acquireOpen (after s) 0 0 = false ∧ (accTrap (memTrs s 0x1001400000040).2 (memOp s 0x1001400000040).accs).isSome = true ∧
      punIdle s 0 0 = true ∧ ((memTrs s 0x1001400000040).1.te 0).grid = some oneGrid) ∧
    -- FENCE: acquire, release, both, sequentially consistent at bunch and chip scope; the first and the last wait
    (∀ w ∈ ([0x43, 0x40000000000043, 0x90000000000043, 0xD0000000000043, 0xE0000000000043] : List W64),
      (missing w).issues 0 0 [0x43] w (after (missing w)) ∧ execLanes ((missing w).pun 0 0).regs w ≠ 0 ∧
      loadsDone (after (missing w)) 0 0 = true ∧ releaseReady (after (missing w)) 0 0 = true) ∧
    (let s := missing 0x43 [{ slot := 0 }]
     s.issues 0 0 [0x43] 0x43 (after s) ∧ fld (tMod 0x43) 3 2 ≠ 1 ∧ loadsDone (after s) 0 0 = false) ∧
    (let s := missing 0xE0000000000043 [{ slot := 0, kind := .store }]
     s.issues 0 0 [0x43] 0xE0000000000043 (after s) ∧ fld (tMod 0xE0000000000043) 3 2 = 3 ∧
      4 ≤ fld (tMod 0xE0000000000043) 0 3 ∧ releaseReady (after s) 0 0 = false) := by
  simp only [List.forall_mem_cons]
  refine ⟨⟨⟨goes_of _ _ (by decide +kernel), by decide +kernel⟩, ⟨goes_of _ _ (by decide +kernel), by decide +kernel⟩,
      ⟨goes_of _ _ (by decide +kernel), by decide +kernel⟩, by simp⟩,
    ⟨⟨goes_of _ _ (by decide +kernel), by decide +kernel⟩, ⟨goes_of _ _ (by decide +kernel), by decide +kernel⟩,
      ⟨goes_of _ _ (by decide +kernel), by decide +kernel⟩, by simp⟩,
    ⟨goes_of _ _ (by decide +kernel), by decide +kernel⟩, ⟨issues_of _ _ _ (by decide +kernel), by decide +kernel⟩,
    ⟨?_, ?_, ?_, ?_, ?_, by simp⟩, ⟨issues_of _ _ _ (by decide +kernel), by decide +kernel⟩,
    ⟨issues_of _ _ _ (by decide +kernel), by decide +kernel⟩⟩
  all_goals exact ⟨issues_of _ _ _ (by decide +kernel), by decide +kernel⟩

/-- A request of lane 0 for 4 bytes of the commons. -/
def req (k : ReqKind) (fill : Bool := false) : TeReq :=
  { id := 6, ctx := 1, kind := k, fill := fill, keep := fill, line := 0x80000000080, accs := [{ va := 0x80000000084, pa := 0x4000000084, size := 4, data := 9 }] }

theorem witness_ThreadRequestsCompleteAtHome :
    (∀ r ∈ [req .load, req .store, req .atom, req .load true],
      findReq (asking r) 0 6 = some r ∧ reqReady (asking r) r = true ∧
      (∀ q ∈ ((asking r).te 0).reqs, q.bad = 0 ∧ (q.id = 6 → q = r)) ∧ ((asking r).pun 0 r.slot).stepDue = false ∧
      groupOfIns (asking r) 0 r.slot r.ins = [r]) ∧
    poisoned (readPa (reqSample (asking (req .load)) 0 (req .load)) 0x4000000084 4).1 0x4000000084 4 = false ∧
    (∀ e ∈ storeBytes (req .store).accs, (asking (req .store)).poison.contains (granule e.1) = false ∧ isHbm e.1 = false) ∧
    (isSram 0x4000000084 = true ∧ isSram 0x4000000087 = true ∧ poisoned (asking (req .atom)) 0x4000000084 4 = false) ∧
    (let s := asking (req .load true)
     (req .load true).keep = true ∧ (req .load true).acqWide = false ∧ (req .load true).line % 128 = 0 ∧
      l1On s 0 = true ∧ (s.te 0).l1Find 0x80000000080 = none ∧ (req .load true).home = 0x4000000080 ∧
      poisoned (readPa (reqSample s 0 (req .load true)) 0x4000000080 128).1 0x4000000080 128 = false ∧
      ∀ y ∈ (req .load true).accs, 0x4000000080 ≤ y.pa ∧ y.pa + y.size ≤ 0x4000000080 + 128) ∧
    -- a line that the L1 has by then
    (let r := req .load true
     let s := thr 0x54 {} { reqs := [r], l1 := [{ va := 0x80000000080, bytes := List.replicate 128 7 }] }
     findReq s 0 6 = some r ∧ reqReady s r = true ∧ (∀ q ∈ (s.te 0).reqs, q.bad = 0 ∧ (q.id = 6 → q = r)) ∧
      (s.pun 0 r.slot).stepDue = false ∧ groupOfIns s 0 r.slot r.ins = [r] ∧ l1On s 0 = true ∧
      (s.te 0).l1Find r.line = some { va := 0x80000000080, bytes := List.replicate 128 7 }) := by
  simp only [List.forall_mem_cons]
  exact ⟨by decide +kernel, by decide +kernel, by decide +kernel, by decide +kernel, by decide +kernel, by decide +kernel⟩

/-- A TE command of queue 2 that is to start on cores 0 and 1, with blocks of 65 threads. -/
def teCmd : Cmd :=
  { op := 2, ctx := 1, seq := 5, mask := 3, toStart := [0, 1], words := [0x30000, 0x4100000003, 0, 0x60000] }

theorem witness_ThreadWorkLaunchesAndEnds :
    -- a command that starts on cores 0 and 1; core 1 has a block
    (∃ s : State,
      nextStart s 0 2 2 (fun c => mayStart s 0 && resident s c.ctx && !(teCores s 0 2 c).isEmpty) = some teCmd ∧
      1 ∈ teCmd.toStart.filter (fun n => teFree s n 0 && firstFor s 0 2 teCmd n) ∧
      (gridOf 0 2 teCmd 1).ci < (gridOf 0 2 teCmd 1).blocks) ∧
    (∃ s : State, (s.te 0).grid = some (gridOf 0 2 teCmd 0) ∧ (gridOf 0 2 teCmd 0).nextBlock = some 0 ∧ gridCut s 0 = false ∧
      (s.te 0).stopPending = false ∧ (gridOf 0 2 teCmd 0).punnets ≤ (freeSlots (s.te 0)).length ∧
      (gridOf 0 2 teCmd 0).region 0 = none ∧ (s.te 0).lastCtx ≠ some (gridOf 0 2 teCmd 0).ctx) ∧
    -- a core without a block
    ({ ci := 3, blocks := 2 : Grid }.blocks ≤ 3) ∧
    -- a block whose punnets have ended, with a global store on its way, and one of a grid that is cut
    (∃ (k : Block) (s : State), (s.te 0).blocks.find? (fun k => k.b == 0) = some k ∧ gridCut s 0 = false ∧
      (∀ p ∈ k.slots, (s.pun 0 p).ended = true) ∧ (s.te 0).reqs ≠ [] ∧ (∀ r ∈ (s.te 0).reqs, r.slot ∈ k.slots → r.lsWrite = false) ∧
      (s.te 0).grid = some oneGrid) ∧
    (∃ (k : Block) (g : Grid) (s : State), (s.te 0).blocks.find? (fun k => k.b == 0) = some k ∧ gridCut s 0 = true ∧
      (∀ p ∈ k.slots, punIdle s 0 p = true) ∧ (s.te 0).grid = some g ∧ (∀ j ∈ (s.te 0).blocks, j.b = k.b) ∧ (s.te 0).reqs = []) := by
  refine ⟨⟨let s := tenanted (mapped []); s.setQueue 0 2 { st := .active, cmds := [teCmd] }, by decide +kernel⟩,
    ⟨(mapped []).setCore 0 { te := { grid := some (gridOf 0 2 teCmd 0) } }, by decide +kernel⟩, by decide,
    ⟨{ ctx := 1, slots := [0] }, thr 0x53 {} { blocks := [{ ctx := 1, slots := [0] }], reqs := [{ slot := 0, kind := .store }] }
      |>.setPun 0 0 { ended := true }, by decide +kernel⟩,
    ⟨{ ctx := 1, slots := [0] }, { oneGrid with stopped := true },
      (let s := thr 0x53 {} { blocks := [{ ctx := 1, slots := [0] }] }
       s.setTe 0 { s.te 0 with grid := some { oneGrid with stopped := true } }), by decide +kernel⟩⟩

/-- Punnet 0 parked by a trap. -/
def parked (d : Bool) (u : Bool := false) : State :=
  thr 0x54 {} {} { parked := true, trap := { cause := 6, parked := true, double := d, u63Written := u } }

theorem witness_ParkedPunnetAndL1RowsTakeEffect :
    (((thr 0x54).pun 0 (selSlot (thr 0x54) 0)).parked = false) ∧
    (∃ b v, let s := parked false
      (s.pun 0 (selSlot s 0)).parked = true ∧ preemptPending s 0 = false ∧ (s.pun 0 0).trap.double = false ∧
      readVa s 0 (s.pun 0 0).fn (some (s.pun 0 0).ctx) ((s.pun 0 0).regs.ug 63).toNat 640 .read = (v, .inl b)) ∧
    (∀ u ∈ [true, false], let s := parked true u
      (s.pun 0 (selSlot s 0)).parked = true ∧ preemptPending s 0 = false ∧ (s.pun 0 0).trap.double = true ∧
      (s.pun 0 0).trap.u63Written = u ∧ (s.te 0).grid = some oneGrid ∧ oneGrid.stopped = false) ∧
    (∀ b ∈ [true, false], ∃ s : State, (s.te 0).grid = some oneGrid ∧ (s.te 0).maint.busy = b) ∧
    (∀ op ∈ [1, 2, 3], ∃ s : State, (s.te 0).maint.busy = true ∧ (s.te 0).maint.op = op ∧
      ∀ r ∈ (s.te 0).reqs, r.id ∉ (s.te 0).maint.stores) := by
  refine ⟨by decide +kernel, ?_, by decide +kernel,
    fun b _ => ⟨thr 0x54 {} { maint := { busy := b } }, rfl, rfl⟩,
    fun op _ => ⟨thr 0x54 {} { maint := { busy := true, op := op } }, rfl, rfl, by intro r h; cases h⟩⟩
  obtain ⟨v, b, h⟩ := inl_of (readVa (parked false) 0 ((parked false).pun 0 0).fn (some ((parked false).pun 0 0).ctx)
    (((parked false).pun 0 0).regs.ug 63).toNat 640 .read) (by decide +kernel)
  exact ⟨b, v, by decide +kernel, by decide +kernel, by decide +kernel, h⟩

/-! ## Hypotheses: memory management and integrity, sketch slots, synchronisation unit -/

theorem witness_MmuRowsTakeEffect :
    fnResident (mapped []) 0 = true ∧ fnResident ready 0 = false ∧
    (∃ s : State, (s.hq.inv.get none 0).isSome = true ∧ oldLeft s 0 = false) ∧
    (0x01000001 : W32).getLsbD 24 = true ∧ (1 : W32).getLsbD 24 = false ∧ ready.hq.inv.get none 0 = none :=
  ⟨by decide, by decide, ⟨{ ready with hq := { ready.hq with inv := ({} : Tbl (Option (Nat × Nat))).put none 0 (some (0, 0)) } },
    by decide +kernel⟩, by decide, by decide, by decide⟩

/-- A request of lane 0 for host memory. -/
def hostReq : TeReq := { id := 6, ctx := 1, accs := [{ pa := 0x8000000000000, size := 4 }] }
/-- Function 0 is a tenant; its addresses from 0x200000 on are host memory, where context 1 has its noun table and save area. -/
def hosted (code : List Host.Cell := []) : State :=
  let s := tenanted (mapped [])
  { s with mem := tables ++ [(0x4000020008, 0xF), (0x400002000E, 0x08), (0x4000020010, 0xF), (0x4000020016, 0x08)] ++ code ++ tablesHigh
           hq := { s.hq with ctxs := s.hq.ctxs.put {} 1 {
             live := true, nounTable := 0x200000, save := 0x200000, saveSize := 9216, saved := true } } }

theorem witness_MemoryIntegrityAndSketchRowsTakeEffect_errors :
    (populated ready 0x4000000084 = true ∧ isHost 0x4000000084 = false ∧
      ∀ b ∈ [true, false], ∃ s : State, populated s 0x4000000084 = true ∧ s.poison.contains (granule 0x4000000084) = b) ∧
    -- an accumulator element, a vector-register element
    ((ready.core 0).glPass = none ∧ 65535 ∉ ((ready.core 0).banks.get {} 1).bad ∧ 8191 ∉ (ready.pun 0 63).regs.bad) ∧
    -- failed host reads: a load's, a transfer's, a queue's
    (findReq (asking hostReq) 0 6 = some hostReq ∧ isHost hostReq.home = true ∧ reqReady (asking hostReq) hostReq = true ∧
      ((asking hostReq).te 0).reqs = [hostReq] ∧ ((asking hostReq).te 0).grid = some oneGrid ∧ (∃ a ∈ hostReq.accs, a.lane < 32) ∧
      (hostReadFail (asking hostReq) (.te 0 6)).isSome = true) ∧
    (∃ s : State, ((s.core 0).xfers.find? (fun x => x.id == 3 && x.host)) = some { id := 3, host := true } ∧
      (∀ y ∈ (s.core 0).xfers, y.cmd = {} → y.job.isSome = true → y.id = 3) ∧ (s.eng 0 .tx).busy = true ∧ (s.eng 0 .tx).cmd = {}) ∧
    (∃ s : State, mayConsume s 0 2 1 = true) := by
  refine ⟨⟨by decide, by decide, ?_⟩, ⟨rfl, by decide, by decide⟩, by decide +kernel,
    ⟨(mapped []).setCore 0 { xfers := [{ id := 3, host := true }], tx := { st := .issuing } }, by decide⟩,
    ⟨let s := ready.setQueue 0 2 { st := .active, slot := some 0, tail := 1 }
     { s with regs := [(qA 0 2 4, 0x404)] }, by decide⟩⟩
  simp only [List.forall_mem_cons]
  exact ⟨⟨{ ready with poison := [granule 0x4000000084] }, by decide⟩, ⟨ready, by decide⟩, by simp⟩

theorem readVa_of (s t : State) (x : Option Nat) (va n pa : Nat) (acc : Acc) (bs : List Byte)
    (h : ∃ b c, translate s 0 0 x va n acc = (t, .ok pa b c)) (hp : pieces va n = [(va, n)]) (hr : readPa t pa n = (t, some bs)) :
    readVa s 0 0 x va n acc = (t, .inl bs) := by
  obtain ⟨b, c, h⟩ := h
  simp [readVa, xlat, readPieces, hp, h, hr]

/-- A TX that is to fetch a clause with one AGU slot, which names noun 1. -/
def naming : State :=
  (hosted [(0x4000030000, 4), (0x4000030008, 2), (0x400003000A, 1)]).setEng 0 .tx { st := .issuing, ctx := 1, pc := 0x30000 }
def named : Clause := { addr := 0x30000, hdr := 4, slots := [(2, 0x10002)] }
def hdrBytes : List Byte := [4, 0, 0, 0, 0, 0, 0, 0]
def slotBytes : List Byte := [2, 0, 1, 0, 0, 0, 0, 0]

theorem naming_fetches : ∃ u, fetchSlots naming 0 .tx = (u, .inl named) ∧ hostNoun u 0 1 (named.handles .tx) = some 0x200080 := by
  -- the states after the header has been read, and after the slot has
  have host (u : State) (h : translates u 0x200080 .read 0x8000000000080 = true) (hc : (u.ctx 1).fn = 0)
      (hn : (u.ctx 1).nounTable = 0x200000) : hostNoun u 0 1 (named.handles .tx) = some 0x200080 := by
    have h1 : ∃ t b c, translate u 0 0 (some 1) 0x200080 128 .read = (t, .ok 0x8000000000080 b c) := by
      rcases translate_of u (some 1) 0x200080 128 .read _ h with h | h <;> exact ⟨_, h⟩
    obtain ⟨t, b, c, h1⟩ := h1
    have hl : named.handles .tx = [1] := by decide
    have hp : pieces 0x200080 128 = [(0x200080, 128)] := by decide
    simp [hostNoun, hostAt, hl, hc, hn, hp, h1, show isHost 0x8000000000080 = true from by decide]
  have one : ∀ u : State, readVa naming 0 0 (some 1) 0x30000 8 .fetch = (u, .inl hdrBytes) →
      (∀ v : State, v = u ∨ v = filled u 0x30008 → translates v 0x200080 .read 0x8000000000080 = true ∧ (v.ctx 1).fn = 0 ∧
        (v.ctx 1).nounTable = 0x200000 ∧ readPa v 0x4000030008 8 = (v, some slotBytes)) →
      translates u 0x30008 .fetch 0x4000030008 = true →
      ∃ v, fetchSlots naming 0 .tx = (v, .inl named) ∧ hostNoun v 0 1 (named.handles .tx) = some 0x200080 := by
    intro u hr hv ht
    have h2 : ∃ v, (v = u ∨ v = filled u 0x30008) ∧ readVa u 0 0 (some 1) 0x30008 8 .fetch = (v, .inl slotBytes) := by
      rcases translate_of u (some 1) 0x30008 8 .fetch _ ht with h | h
      · exact ⟨_, .inl rfl, readVa_of _ _ _ _ _ _ _ _ h (by decide) (hv _ (.inl rfl)).2.2.2⟩
      · exact ⟨_, .inr rfl, readVa_of _ _ _ _ _ _ _ _ h (by decide) (hv _ (.inr rfl)).2.2.2⟩
    obtain ⟨v, hv1, h2⟩ := h2
    obtain ⟨w1, w2, w3, -⟩ := hv v hv1
    refine ⟨v, ?_, host v w1 w2 w3⟩
    have e1 : (naming.eng 0 .tx).pc = 0x30000 ∧ (naming.eng 0 .tx).fn = 0 ∧ (naming.eng 0 .tx).ctx = 1 := by decide
    obtain ⟨e1, e2, e3⟩ := e1
    have e4 : (List.range 8).filter (fun i => bit (leNat hdrBytes) i) = [2] := by decide
    unfold fetchSlots
    simp only [e1, e2, e3, hr]
    simp [e4, h2]
    exact (if_pos (by decide)).trans rfl
  rcases translate_of naming (some 1) 0x30000 8 .fetch 0x4000030000 (by decide +kernel) with h | h
  · exact one naming (readVa_of _ _ _ _ _ _ _ _ h (by decide) (by decide +kernel))
      (fun v hv => hv.elim (fun e => by rw [e]; decide +kernel) (fun e => by rw [e]; decide +kernel)) (by decide +kernel)
  · exact one (filled naming 0x30000) (readVa_of _ _ _ _ _ _ _ _ h (by decide) (by decide +kernel))
      (fun v hv => hv.elim (fun e => by rw [e]; decide +kernel) (fun e => by rw [e]; decide +kernel)) (by decide +kernel)

theorem witness_MemoryIntegrityAndSketchRowsTakeEffect_host :
    -- a noun's descriptor, for a clause and for a gleaning pass
    (mayFetch naming (naming.eng 0 .tx) = true ∧
      ∃ u, fetchSlots naming 0 .tx = (u, .inl named) ∧ hostNoun u 0 1 (named.handles .tx) = some 0x200080) ∧
    (let s := hosted.setCore 0 { glQueue := [glw] }
     nextPass s 0 = some glw ∧ glw.reqs ≠ [] ∧ engFree s 0 .mx glw.fn = true ∧ hostNoun s 0 glw.ctx glw.handles = some 0x200000) ∧
    -- a saved stream; a context's saved records
    (let s := hosted.setCore 0 { streams := [savedTx 0] }
     restoreFor s 0 = some 0 ∧ ∃ l, savedPlace s 0 .tx 0 = some (1, l) ∧
      (hostAt s 32 0 1 (l.map (fun p => ((s.ctx 1).save + p.1, p.2)))).isSome = true) ∧
    (let s := { hosted with syn := {} }
     (s.ctx 1).saved = true ∧ s.syn.dumpBusy = false ∧ hostAt s 32 0 1 [((s.ctx 1).save, (s.ctx 1).saveSize)] = some 0x200000 ∧
      ∃ u, beginRestore s 1 = (u, some 0)) :=
  ⟨⟨by decide, naming_fetches⟩, by decide +kernel, ⟨by decide +kernel, _, rfl, by decide +kernel⟩, by decide, by decide,
    by decide +kernel, snd_of _ _ (by decide +kernel)⟩

theorem witness_MemoryIntegrityAndSketchRowsTakeEffect_sketch :
    embOwner ready 5 ≠ some 1 ∧
    (∀ b ∈ [true, false], ∃ s : State, (s.sk 5).busy = b) ∧
    (∃ u, canWrite (mapped []) 32 0 none 0 32768 = (u, true)) ∧
    (∃ u, canWrite ready 32 0 none 0 32768 = (u, false)) :=
  ⟨by decide, fun b _ => ⟨ready.setSk 5 { busy := b }, by cases b <;> decide⟩, snd_of _ _ (by decide +kernel), snd_of _ _ (by decide +kernel)⟩

/-- A signal to conjunction 3 of context 1. -/
def sig : Signal := { ctx := 1, conj := 3, n := 1 }
/-- One signal is on its way. -/
def sent (s : State) : State := { s with syn := { s.syn with transit := [sig] } }

/-- The same with the slot of context 1 in the state `st`, `n` signals held there. -/
def sentTo (st : SlotSt) (n : Nat) : State :=
  let s := sent (mapped [])
  s.setSlot 0 { st := st, ctx := 1, inbound := List.replicate n sig }

theorem witness_SynchronisationUnitRowsTakeEffect_signals :
    (let s := sent (mapped [])
     s.syn.transit[0]? = some sig ∧ s.syn.dumpBusy = false ∧ inOrder s.syn.transit 0 sig = true ∧ (s.ctx 1).live = true ∧
      resident s 1 = true) ∧
    ((sent ready).syn.transit[0]? = some sig ∧ (sent ready).syn.dumpBusy = false ∧ inOrder (sent ready).syn.transit 0 sig = true ∧
      ((sent ready).ctx 1).live = false ∧ inboundFull (sent ready) 1 = false) ∧
    -- a slot that is being restored or saved, with room for one more signal and without
    (∀ x ∈ [(SlotSt.restoring, 63), (.saving, 64)], let s := sentTo x.1 x.2
      s.syn.transit[0]? = some sig ∧ s.syn.dumpBusy = false ∧ inOrder s.syn.transit 0 sig = true ∧ (s.ctx 1).live = true ∧
      heldIn s 1 = some 0 ∧ (s.slot 0).inbound.length = x.2 ∧ sig.short = false) ∧
    (let s := sent { mapped [] with syn := {} }
     s.syn.transit[0]? = some sig ∧ s.syn.dumpBusy = false ∧ inOrder s.syn.transit 0 sig = true ∧ (s.ctx 1).live = true ∧
      slotOf s 1 = none ∧ sig.short = false ∧
      ∃ u l, xlat { s with syn := { s.syn with transit := s.syn.transit.eraseIdx 0 } } 32 (s.ctx 1).fn (some 1) ((s.ctx 1).log + 8 * 3) 8
        .write = (u, .inl l) ∧ ∃ v bs, readPieces u l = (v, some bs)) := by
  refine ⟨by decide, by decide, by decide, by decide, by decide, by decide, by decide, by decide, by decide, ?_⟩
  exact ⟨_, [(0x4000050018, 8)], pair_of _ _ (by decide +kernel), snd_of' _ (by decide +kernel)⟩

theorem witness_SynchronisationUnitRowsTakeEffect_rest :
    -- a wire with an arrival; one whose members are the context's partition's
    (∃ s : State, (s.wire 3).raised ≠ 0) ∧
    (ready.wire 3).raised = 0 ∧ ready.syn.waiters = [] ∧ ((0x55 : W32).getLsbD 12 = false) ∧
    ((mapped []).syn.slots.get {} (fld (3 * 64 : W32).toNat 0 6)).st = .resident ∧
    -- a dump while one runs, into too small an area, and one that starts
    (∃ s : State, s.syn.dumpBusy = true) ∧
    (ready.syn.dumpBusy = false ∧ (rd ready 0x00400808).toNat < (dumpImage ready (dumpSlots ready true 0)).length) ∧
    (let s := { mapped [] with syn := {}, regs := rootRegs ++ [(0x00400808, 4096)] }
     s.syn.dumpBusy = false ∧ (dumpImage s (dumpSlots s true 0)).length ≤ (rd s 0x00400808).toNat ∧
      ∃ u, canWrite (wr s 0x0040080C (BitVec.ofNat 32 (((rd s 0x0040080C).toNat &&& 0xC &&& (0xC - (0x11 &&& 0xC))) +
        (0x11 &&& 0x3F10)))) 32 0 none 0 (dumpImage s (dumpSlots s true 0)).length = (u, true)) ∧
    (∃ (h : HeldArr) (s : State), s.syn.dumpBusy = false ∧ s.syn.heldArr.find? (fun h => h.part == 0) = some h ∧
      ∃ u, gbArriveOp s h.core h.ctx h.group h.mask = (u, .arrived 0)) := by
  refine ⟨⟨ready.setWire 3 { raised := 1 }, by decide⟩, by decide, by decide, by decide, by decide,
    ⟨{ ready with syn := { ready.syn with dumpBusy := true } }, rfl⟩, ⟨by decide, by decide +kernel⟩,
    ⟨by decide, by decide +kernel, snd_of _ _ (by decide +kernel)⟩, ?_⟩
  let h : HeldArr := ⟨1, 2, 1, 0, 2, 0, 0⟩
  exact ⟨h, { mapped [] with syn := { (mapped []).syn with heldArr := [h] } }, by decide, by decide, snd_of _ _ (by decide +kernel)⟩

/-! ## Hypotheses: contexts, queues, commands -/

/-- Context 1 as given, in no slot. -/
def leftOut (k : Ctx) : State :=
  let s := mapped []
  { s with syn := {}, hq := { s.hq with ctxs := ({} : Tbl Ctx).put {} 1 k } }
/-- Context 1 in slot 0, with its save area at `a`, where its partition has no core. -/
def saving (st : SlotSt) (a : Nat := 0x60000) : State :=
  let s := mapped []
  { s with
    boot := { s.boot with charter := { s.boot.charter with bunchPart := List.replicate 8 1 } }
    hq := { s.hq with ctxs := ({} : Tbl Ctx).put {} 1 { live := true, log := 0x50000, save := a, saveSize := 9216 } }
    syn := { s.syn with slots := ({} : Tbl CtxSlot).put {} 0 { st := st, ctx := 1, inbound := [sig] } } }

theorem witness_ContextResidencyRowsTakeEffect :
    -- a restore that begins, its slot
    (let s := leftOut { live := true, winSize := 1 }
     s.syn.dumpBusy = false ∧ ∃ v, beginRestore s 1 = (v, some 0) ∧ (v.ctx 1).saveLost = false ∧ ∃ u, loadContext v 1 = (u, none)) ∧
    (let s := leftOut { live := true }
     slotOf s 1 = none ∧ (s.ctx 1).live = true ∧ windowFree s 1 = true ∧ freeCtxSlot s = some 0) ∧
    (let s := leftOut { live := true }
     let t := { s with syn := { s.syn with slots := ⟨(List.range 48).map (fun k => (k, { st := .resident, ctx := 9 }))⟩ } }
     slotOf t 1 = none ∧ (t.ctx 1).live = true ∧ windowFree t 1 = true ∧ freeCtxSlot t = none) ∧
    ((ready.ctx 1).winSaved = false ∧ (ready.ctx 1).saved = false) ∧
    -- the merge of a log entry
    (let s := mapped []
     ∃ u l, xlat s 32 (s.ctx 1).fn (some 1) ((s.ctx 1).log + 8 * 511) 8 .write = (u, .inl l) ∧ ∃ v bs, readPieces u l = (v, some bs)) ∧
    -- saved state that is lost, and that cannot be read
    (let s := leftOut { live := true, saveLost := true }
     ∃ v, beginRestore s 1 = (v, some 0) ∧ (v.ctx 1).saveLost = true) ∧
    (let s := leftOut { live := true, saved := true, save := 0xF00000000000, saveSize := 9216 }
     ∃ v, beginRestore s 1 = (v, some 0) ∧ ∃ u e, loadContext v 1 = (u, some e)) ∧
    -- saves, the context idle: to its area, and to one that is not mapped
    (∀ st ∈ [SlotSt.resident, .saving], let s := saving st
      (s.slot 0).st = st ∧ (s.slot 0).ctx = 1 ∧ ctxRuns s 1 = false ∧ s.syn.dumpBusy = false ∧ ∃ u, saveContext s 1 = (u, none)) ∧
    (let s := saving .resident 0xF00000000000
     (s.slot 0).st = .resident ∧ (s.slot 0).ctx = 1 ∧ ctxRuns s 1 = false ∧ s.syn.dumpBusy = false ∧
      ∃ u e, saveContext s 1 = (u, some e)) := by
  simp only [List.forall_mem_cons]
  refine ⟨⟨by decide, _, pair_of _ _ (by decide +kernel), by decide +kernel, none_of _ (by decide +kernel)⟩, by decide +kernel,
    by decide +kernel, by decide, ⟨_, [(0x4000050FF8, 8)], pair_of _ _ (by decide +kernel), snd_of' _ (by decide +kernel)⟩,
    ⟨_, pair_of _ _ (by decide +kernel), by decide +kernel⟩, ⟨_, pair_of _ _ (by decide +kernel), snd_of' _ (by decide +kernel)⟩,
    ⟨⟨by decide, by decide, by decide +kernel, by decide, none_of _ (by decide +kernel)⟩,
      ⟨by decide, by decide, by decide +kernel, by decide, none_of _ (by decide +kernel)⟩, by simp⟩,
    by decide, by decide, by decide +kernel, by decide, snd_of' _ (by decide +kernel)⟩

/-- Queue 2 of function 0 with the contents `x`, rings of 16 entries and function 0 a tenant that holds its partition. -/
def queued (x : Queue) : State :=
  let s := tenanted (mapped [])
  { s.setQueue 0 2 x with regs := rootRegs ++ [(qA 0 2 4, 0x404)] }

theorem witness_QueueRowsTakeEffect :
    ((1 : W32).getLsbD 0 = true ∧ ((queued {}).queue 0 2).st = .disabled ∧ enableCheck (queued {}) 0 2 = 0 ∧
      enableCheck ready 0 2 ≠ 0) ∧
    (∀ l ∈ [[], [{ seq := 5 }]], ((queued { st := .active, cmds := l }).queue 0 2).st = .active ∧
      ((queued { st := .active, cmds := l }).queue 0 2).cmds = l) ∧
    ((0 : W32).getLsbD 0 = false ∧ sqSize (queued {}) 0 2 = 16 ∧ cqSize (queued {}) 0 2 = 16 ∧
      ((queued { st := .active }).queue 0 2).st ≠ .disabled) ∧
    -- a doorbell of a queue that has lost its slot, at the last tail and at one past it
    (((queued { st := .active, evicted := true }).queue 0 2).evicted = true ∧ (15 : W32).toNat < 16 ∧ 16 ≤ (16 : W32).toNat) ∧
    -- a commit, and one that a CHIP_RESET request holds
    (∃ s : State, s.boot.resetReq = true) ∧
    ((queued { cmds := [{ seq := 5, ready := true }] }).boot.resetReq = false ∧
      ((queued { cmds := [{ seq := 5, ready := true }] }).queue 0 2).cmds.find? (fun c => c.ready && c.seq == 5)
        = some { seq := 5, ready := true }) ∧
    (({ ctx := 4095 } : Cmd).ctx < 4096 ∧ 63 < 64) ∧
    (∀ a ∈ [AbSt.none, .pending], ((queued { abSt := a }).queue 0 2).abSt = a) ∧
    -- sequence numbers that have been, and that are to come
    (seqBefore 4 ((queued { nextSeq := 5 }).queue 0 2).nextSeq = true ∧ seqBefore 5 ((queued { nextSeq := 5 }).queue 0 2).nextSeq = false) := by
  refine ⟨by decide +kernel, by decide +kernel, by decide +kernel, by decide +kernel,
    ⟨{ ready with boot := { ready.boot with resetReq := true } }, rfl⟩, by decide +kernel, by decide, by decide +kernel, by decide +kernel⟩

/-- A command of queue 2 alone, that is to start on core 0. -/
def one (k : Cmd) : State := queued { st := .active, cmds := [k] }
/-- The queue has an entry to consume; an abort of command 0 waits where `ab`. -/
def oneEntry (ab : Bool := false) : State :=
  queued { st := .active, slot := some 0, tail := 1, abSt := if ab then .pending else .none }
/-- A GLEAN that waits `n`, and the state before it, the windows `l` open. -/
def gleaning (n : W64) : Cmd := { op := 3, ctx := 1, mask := 1, toStart := [0], words := [0x1003002001, n] }
def gathering (n : W64) (l : List GlWin) : State := (one (gleaning n)).setCore 0 { glean := l }
/-- A window of its key with room for one more row, due at time 9. -/
def roomy : GlWin := { ctx := 1, wNoun := 1, reqs := [{ cmd := ⟨0, 2, 4⟩, aNoun := 2, oNoun := 3, m := 255, deadline := 9 }] }

theorem witness_CommandRowsTakeEffect_consume :
    -- a NOP, one with a wrong sequence number, one with a bad header; a RUN of a context in no slot
    (∀ w ∈ ([0x04, 0x100000004, 0x05] : List W64), let ws := w :: List.replicate 7 0
      ws.length = 8 * (1 + cmdExt ws) ∧ mayConsume oneEntry 0 2 (ws.length / 8) = true ∧ (oneEntry.queue 0 2).abSt ≠ .pending) ∧
    ((parseCmd (0x04 :: List.replicate 7 0)).seq = (oneEntry.queue 0 2).nextSeq ∧ headerOk (0x05 :: List.replicate 7 0) = false ∧
      (parseCmd (0x05 :: List.replicate 7 0)).seq = (oneEntry.queue 0 2).nextSeq ∧
      (parseCmd (0x100000004 :: List.replicate 7 0)).seq ≠ (oneEntry.queue 0 2).nextSeq) ∧
    (let s := { oneEntry with syn := {} }
     s.syn.dumpBusy = false ∧ slotOf s 1 = none ∧ windowFree s 1 = true ∧ freeCtxSlot s = some 0) ∧
    -- the command that an abort waits for
    (let ws : List W64 := 0x04 :: List.replicate 7 0
     ws.length = 8 * (1 + cmdExt ws) ∧ mayConsume (oneEntry true) 0 2 (ws.length / 8) = true ∧ ((oneEntry true).queue 0 2).abSt = .pending ∧
      ((oneEntry true).queue 0 2).abSeq = (parseCmd ws).seq ∧ ∀ d ∈ ((oneEntry true).queue 0 2).cmds, d.seq ≠ (parseCmd ws).seq) := by
  refine ⟨?_, by decide, by decide +kernel, by decide +kernel⟩
  simp only [List.forall_mem_cons]
  exact ⟨by decide +kernel, by decide +kernel, by decide +kernel, by simp⟩

theorem witness_CommandRowsTakeEffect_starts :
    -- a stream on the MX, one on the TX
    (∀ x ∈ [(0, CE.mx), (1, .tx)], let k : Cmd := { op := 1, ctx := 1, eng := x.1, mask := 1, toStart := [0], words := [0x30000] }
     nextStart (one k) 0 2 1 (fun c => mayStart (one k) 0 && resident (one k) c.ctx && !(runCores (one k) 0 2 c).isEmpty) = some k ∧
      k.toStart.filter (fun n => engFree (one k) n x.2 0 && firstFor (one k) 0 2 k n) = [0]) ∧
    -- a GLEAN with no window of its key, with one that has room for its row, one that is due, one that has none
    (∀ x ∈ ([(0, []), (9, []), (9, [roomy]), (9, [{ roomy with reqs := [{ cmd := ⟨0, 2, 4⟩, m := 256, deadline := 9 }] }])] :
        List (W64 × List GlWin)), let k := gleaning x.1
      let s := gathering x.1 x.2
      nextStart s 0 2 3 (fun c => mayStart s 0 && resident s c.ctx && c.toStart.all (firstFor s 0 2 c)) = some k ∧ k.toStart = [0] ∧
      (s.core 0).glean.find? (fun w => w.keyed 0 k.ctx k.glW) = x.2.head? ∧ k.glM = 1 ∧ k.glWait = x.1.toNat) ∧
    (roomy.rows + 1 ≤ 256 ∧ roomy.due (gathering 9 [roomy]).time = false ∧ roomy.due 9 = true ∧
      256 < { roomy with reqs := [{ cmd := ⟨0, 2, 4⟩, m := 256, deadline := 9 }] : GlWin }.rows + 1) := by
  refine ⟨?_, ?_, by decide⟩ <;> simp only [List.forall_mem_cons]
  · exact ⟨by decide +kernel, by decide +kernel, by simp⟩
  · exact ⟨by decide +kernel, by decide +kernel, by decide +kernel, by decide +kernel, by simp⟩

theorem witness_CommandRowsTakeEffect_own :
    (∃ s : State, s.boot.resetReq = true) ∧
    (∀ op ∈ ([0x04, 0x10, 0x11, 0x12] : List Byte), let k : Cmd := { op := op, ctx := 1, order := 3 }
     nextOwn (one k) 0 2 op.toNat = some k ∧ ((one k).ctx 1).live = true ∧ ((one k).ctx 1).fn = 0 ∧
      ctxQuiet (one k) 0 1 3 = true ∧ k.status = 0) ∧
    (let k : Cmd := { op := 0x10 }
     freeCtx (one k) = some 0 ∧ noContext { one k with regs := [(0x00040200, 4)] } 0 = none ∧
       nextOwn { one k with regs := [(0x00040200, 4)] } 0 2 0x10 = some k ∧ freeCtx { one k with regs := [(0x00040200, 4)] } = some 0 ∧
       noContext { one k with regs := [(0x00040200, 1)] } 0 = some 0 ∧
       nextOwn { one k with regs := [(0x00040200, 1)] } 0 2 0x10 = some k) ∧
    (ready.hq.ptmOn = true ∧ ready.time < 2 ^ 64) := by
  refine ⟨⟨{ ready with boot := { ready.boot with resetReq := true } }, rfl⟩, ?_, by decide +kernel, by decide⟩
  simp only [List.forall_mem_cons]
  exact ⟨by decide +kernel, by decide +kernel, by decide +kernel, by decide +kernel, by simp⟩

/-- The lowest virtual function and the highest. -/
theorem witness_FunctionLevelResetsClearTheirFunctions : ((1 : Fin 128) : Fin 128).val ≠ 0 ∧ ((127 : Fin 128) : Fin 128).val ≠ 0 := by
  decide

/-! ## Hypotheses: links -/

/-- A retry buffer with no room. -/
def full : Port := { st := .up, retry := List.replicate 256 {} }
/-- A TX that acts on LINK.PUT or LINK.GET through port 0. -/
def linking (w : W64) (p : Port) : State := ported p (acting .tx 4 w)

theorem witness_LinkTransfersBecomeMessages :
    ∀ p ∈ [{}, full],
      (let s := linking 8 p
       s.heads 0 .tx .xfer 8 4 8 ∧ (s.eng 0 .tx).fn < 128 ∧
        ∃ u d, readSp (s.popSlot 0 .tx) (.va 0 0 1) 0 (Noun.packed {}) = (u, .inl d) ∧
          u.wayOut true 0 0 = (if p = full then some 0 else none) ∧ chipIsFailed u 0 = false ∧
          (u.port 0).retry.length = (if p = full then 256 else 0)) ∧
      (let s := linking 9 p
       s.heads 0 .tx .xfer 9 4 9 ∧
        ∃ u l, xlat (s.popSlot 0 .tx) 0 0 (some 1) 0 (Noun.packed {}) .write = (u, .inl l) ∧
          u.wayOut true 0 0 = (if p = full then some 0 else none) ∧ chipIsFailed u 0 = false ∧
          (u.port 0).retry.length = (if p = full then 256 else 0)) := by
  have split (x : State × (List Byte ⊕ XF)) (h : x.2.isLeft = true) : ∃ d, x = (x.1, .inl d) := by
    obtain ⟨u, d | e⟩ := x
    · exact ⟨d, rfl⟩
    · cases h
  have split2 (x : State × (List (Nat × Nat) ⊕ XF)) (h : x.2.isLeft = true) : ∃ d, x = (x.1, .inl d) := by
    obtain ⟨u, d | e⟩ := x
    · exact ⟨d, rfl⟩
    · cases h
  have put (p : Port) (h1 : (readSp ((linking 8 p).popSlot 0 .tx) (.va 0 0 1) 0 (Noun.packed {})).2.isLeft = true) := split _ h1
  have get (p : Port) (h1 : (xlat ((linking 9 p).popSlot 0 .tx) 0 0 (some 1) 0 (Noun.packed {}) .write).2.isLeft = true) :=
    split2 _ h1
  simp only [List.forall_mem_cons]
  unfold State.heads
  refine ⟨⟨⟨by decide, by decide, ?_⟩, by decide, ?_⟩, ⟨⟨by decide, by decide, ?_⟩, by decide, ?_⟩, by simp⟩
  · obtain ⟨d, h⟩ := put {} (by decide +kernel)
    exact ⟨_, d, h, by decide +kernel, by decide +kernel, by decide +kernel⟩
  · obtain ⟨d, h⟩ := get {} (by decide +kernel)
    exact ⟨_, d, h, by decide +kernel, by decide +kernel, by decide +kernel⟩
  · obtain ⟨d, h⟩ := put full (by decide +kernel)
    exact ⟨_, d, h, by decide +kernel, by decide +kernel, by decide +kernel⟩
  · obtain ⟨d, h⟩ := get full (by decide +kernel)
    exact ⟨_, d, h, by decide +kernel, by decide +kernel, by decide +kernel⟩

/-- The first 248 bytes of a flit with link header `h` and body `b`. -/
def flitHead (h : Nat) (b : List Byte) : List Byte := leBytes 8 h ++ b ++ List.replicate (240 - b.length) 0
/-- The flit with its CRC. -/
def flit (h : Nat) (b : List Byte) : List Byte := flitHead h b ++ leBytes 8 (crc64 (flitHead h b))

theorem flit_crc (h : Nat) (b : List Byte) (hb : b.length ≤ 240) : crcOk (flit h b) = true := by
  have hl : (flitHead h b).length = 248 := by
    unfold flitHead
    rw [List.length_append, List.length_append, leBytes_length, List.length_replicate]
    omega
  have h1 : (flit h b).drop 248 = leBytes 8 (crc64 (flitHead h b)) := by unfold flit; rw [← hl, List.drop_left]
  have h2 : (flit h b).take 248 = flitHead h b := by unfold flit; rw [← hl, List.take_left]
  have h3 : (leBytes 8 (crc64 (flitHead h b))).take 8 = leBytes 8 (crc64 (flitHead h b)) :=
    List.take_of_length_le (by simp)
  unfold crcOk
  rw [h1, h2, h3, leNat_leBytes 8 _ (lt_of_lt_of_eq (crc64_lt _) (by decide))]
  exact beq_self_eq_true _

/-- A message header for this chip: 64 bytes at address 0x30000 of function 0's context 1, with a signal to conjunction 3. -/
def msg (op : Nat) : List Byte := mkHdr op 0 5 1 1 0 true true 3 0 0x30000 64 7

theorem witness_LinkArrivalsTakeEffect_flits :
    (∀ k ∈ [1, 2],
      -- a FEC failure; out of sequence; a GET request
      wfFlit k (flit k []) = true ∧ (up.port 0).st = .up ∧ (crcOk (flit k []) && false) = false ∧
      wfFlit k (flit (0x700 + k) []) = true ∧ crcOk (flit (0x700 + k) []) = true ∧
      fld (fHdr (flit (0x700 + k) [])) 8 12 ≠ (up.port 0).expect ∧
      wfFlit k (flit (0xC0 + k) (msg 2)) = true ∧ crcOk (flit (0xC0 + k) (msg 2)) = true ∧
      fld (fHdr (flit (0xC0 + k) (msg 2))) 8 12 = (up.port 0).expect ∧ bit (fHdr (flit (0xC0 + k) (msg 2))) 6 = true ∧
      bit (fHdr (flit (0xC0 + k) (msg 2))) 7 = true ∧ mDirect (fBody (flit (0xC0 + k) (msg 2))) = true ∧
      mOp (fBody (flit (0xC0 + k) (msg 2))) = 2) ∧
    ((up.port 0).retry = [] ∧ (up.port 0).outq = [] ∧ (up.port 0).ctlq = [] ∧ ((up.port 0).rx.get {} 0).route = .drop) ∧
    (wfFlit 0 (flit 0x100000000 []) = true ∧ crcOk (flit 0x100000000 []) = true ∧ bit (fHdr (flit 0x100000000 [])) 33 = false) := by
  have hm : (msg 2).length ≤ 240 := by decide +kernel
  refine ⟨?_, by decide +kernel, by decide +kernel, flit_crc _ _ (by decide), by decide +kernel⟩
  simp only [List.forall_mem_cons]
  exact ⟨⟨by decide +kernel, rfl, Bool.and_false _, by decide +kernel, flit_crc _ _ (by decide), by decide +kernel, by decide +kernel,
      flit_crc _ _ hm, by decide +kernel⟩,
    ⟨by decide +kernel, rfl, Bool.and_false _, by decide +kernel, flit_crc _ _ (by decide), by decide +kernel, by decide +kernel,
      flit_crc _ _ hm, by decide +kernel⟩, by simp⟩

theorem witness_LinkArrivalsTakeEffect_put :
    let b := flit 0xC1 (msg 1)
    wfFlit 1 b = true ∧ up.accepts 0 b ∧ bit (fHdr b) 6 = true ∧ mDirect (fBody b) = true ∧ mOp (fBody b) = 1 ∧
      acceptMsg (up.tookFlit 0 b) ((fBody b).take 32) = true ∧
      ∃ v l, remoteRange (up.tookFlit 0 b) ((fBody b).take 32) .write = (v, some l) := by
  refine ⟨by decide +kernel, ⟨rfl, flit_crc _ _ (by decide +kernel), by decide +kernel⟩, by decide +kernel, by decide +kernel,
    by decide +kernel, by decide +kernel, snd_of' _ (by decide +kernel)⟩

/-- A whole message has arrived on VC 0 of port 0, which is up. -/
def arrived (op : Nat) (ok : Bool := true) (port : Port := { st := .up }) : State :=
  ported { port with whole := [{ hdr := msg op, ok := ok, pa := some [(0x4000030000, 64)] }] }

theorem quad_of {α β γ δ : Type} (p : α × β × γ × δ) (q : α → Bool) (h : q p.1 = false) :
    ∃ u a b c, p = (u, a, b, c) ∧ q u = false := ⟨p.1, p.2.1, p.2.2.1, p.2.2.2, rfl, h⟩

theorem witness_LinkArrivalsTakeEffect_messages :
    (∀ ok ∈ [true, false], ((arrived 1 ok).port 0).whole.find? (fun r => r.vc == 0 && mOp r.hdr == 1)
      = some { hdr := msg 1, ok := ok, pa := some [(0x4000030000, 64)] }) ∧
    (∃ s : State, s.syn.dumpBusy = true ∧ (s.port 0).whole = ((arrived 1).port 0).whole) ∧
    ((arrived 1).syn.transit = [] ∧ mSig (msg 1) = true ∧ ((arrived 1).ctx (mDstCtx (msg 1))).live = true ∧
      ((arrived 1).ctx (mDstCtx (msg 1))).fn = mFn (msg 1) ∧ (arrived 1).syn.dumpBusy = false ∧
      resident (arrived 1) (mDstCtx (msg 1)) = true) ∧
    (∀ p ∈ [{}, { st := .up, avail := [0, 0, 0, 0] }, full], ∃ u0, takeWhole (arrived 2 true p) 0 0 2
        = some (u0, { hdr := msg 2, ok := true, pa := some [(0x4000030000, 64)] }) ∧ mDirect (msg 2) = true ∧
      ∃ u st d bad, getAnswer (freeRecv u0 (some (0, 0))) (msg 2) = (u, st, d, bad) ∧ chipIsFailed u (mSrcChip (msg 2)) = false) ∧
    (portUp (arrived 2 true {}) 0 = false ∧ portUp (arrived 2 true full) 0 = true ∧
      ((arrived 2 true full).port 0).avail.getD (outVc (arrived 2 true full) 0 2) 0 ≠ 0) ∧
    (inDev .strap).boot.dev ≠ .ready ∧
    ((arrived 3).port 0).whole.find? (fun r => r.vc == 0 && mOp r.hdr == 3)
      = some { hdr := msg 3, ok := true, pa := some [(0x4000030000, 64)] } ∧
    getOf (arrived 3) (mTag (msg 3)) = none ∧
    (∃ s : State, (s.port 0).whole.find? (fun r => r.vc == 0 && mOp r.hdr == 3)
        = some { hdr := msg 3, ok := true, pa := some [(0x4000030000, 64)] } ∧
      getOf s (mTag (msg 3)) = some (0, { id := 2, isGet := true, tag := 7, sig := true }) ∧ s.syn.dumpBusy = true ∧
      (s.core 0).xfers.find? (fun x => x.id == 2 && x.isGet) = some { id := 2, isGet := true, tag := 7, sig := true } ∧
      0 + 1000000 ≤ s.time) := by
  refine ⟨by decide +kernel, ⟨{ arrived 1 with syn := { (arrived 1).syn with dumpBusy := true } }, rfl, rfl⟩, by decide +kernel, ?_,
    by decide +kernel, by decide, by decide +kernel, by decide +kernel,
    { (arrived 3).setCore 0 { xfers := [{ id := 2, isGet := true, tag := 7, sig := true }] } with
        time := 1000000, syn := { (arrived 3).syn with dumpBusy := true } }, by decide +kernel⟩
  simp only [List.forall_mem_cons]
  exact ⟨⟨_, rfl, by decide +kernel, quad_of _ (fun u => chipIsFailed u (mSrcChip (msg 2))) (by decide +kernel)⟩, ⟨_, rfl, by decide +kernel, quad_of _ (fun u => chipIsFailed u (mSrcChip (msg 2))) (by decide +kernel)⟩,
    ⟨_, rfl, by decide +kernel, quad_of _ (fun u => chipIsFailed u (mSrcChip (msg 2))) (by decide +kernel)⟩, by simp⟩

/-! ## Hypotheses: ports, logs, register writes, invariant -/

theorem next_of (o : Host.Outcome State Fault Refusal) (h : (match o with | .next _ => true | _ => false) = true) :
    ∃ t, o = .next t := by
  cases o with
  | next t => exact ⟨t, rfl⟩
  | fault _ => cases h
  | refused _ => cases h

/-- A CONTROL flit that arrives whole, with sequence number 0. -/
def wireOk : CtlWire := { hdr := 0, crcOk := true, fecOk := true }
/-- A torus of 2 x 1 x 1 chips with port 0 in direction +x. -/
def wired (p : Port) : State :=
  let s := ported p
  { s with time := 2000000000
           boot := { s.boot with charter := { s.charter with
             topo := some { dims := 1, sx := 2, sy := 1, sz := 1, ports := 1, dirs := [0] } } } }

theorem witness_PortRowsTakeEffect :
    (∀ n ∈ [62, 63], let s := wired { st := .up, retry := [{}], fails := n }
      (s.port 0).st = .up ∧ (s.port 0).retry ≠ [] ∧ (s.port 0).ackWait + 1000 ≤ s.time ∧ (s.port 0).outq = [] ∧ (s.port 0).ctlq = [] ∧
      (s.port 0).fails = n) ∧
    (let s := wired { st := .up }
     wfHeld [0, 0, 0, 128] = true ∧ (s.port 0).st = .up ∧ (s.port 0).seqAt + 1200 ≤ s.time ∧ (s.port 0).retry = [] ∧
      (s.port 0).outq = [] ∧ (s.port 0).ctlq = [] ∧ (s.port 0).avail.length = 4 ∧
      -- the partner that the topology names, and another
      partnerOf s 0 = some 1 ∧ s.charter.topo = some { dims := 1, sx := 2, sy := 1, sz := 1, ports := 1, dirs := [0] } ∧
      up.charter.topo = none ∧ chipIsFailed s 1 = false ∧ portEnabled s 0 = true ∧ (s.port 0).fenceAt = none ∧
      -- a CONTROL flit in sequence, one that is not
      fld wireOk.hdr.toNat 8 12 = (s.port 0).expect ∧ fld ({ wireOk with hdr := 0x700 } : CtlWire).hdr.toNat 8 12 ≠ (s.port 0).expect) ∧
    (wireOk.crcOk = true ∧ wireOk.fecOk = true ∧
      ∀ w ∈ ([{ wireOk with crcOk := false }, { wireOk with fecOk := false }] : List CtlWire), (w.crcOk && w.fecOk) = false) ∧
    (∃ s : State, chipIsFailed s 1 = true) ∧
    (let s := wired { st := .training }
     s.isUp = true ∧ s.boot.lref = true ∧ (s.port 0).st = .training ∧ (s.port 0).since + 1000000000 ≤ s.time ∧
      partnerOf s 0 = some 1) ∧
    portEnabled up 0 = false ∧
    (let s := wired { st := .up, fenceAt := some 0 }
     (s.port 0).fenceAt = some 0 ∧ 0 + 100000 ≤ s.time ∧ unfinished (s.port 0) = 0 ∧ (s.port 0).rx.entries = []) ∧
    (∀ k ∈ [2, 3], ((wired { cause := k }).port 0).st = .fenced ∧ ((wired { cause := k }).port 0).cause = k ∧
      (wired { cause := k }).isUp = true ∧ portEnabled (wired { cause := k }) 0 = true) ∧
    (∃ s : State, (tablesPresent s).testBit 1 = true) ∧ (tablesPresent up).testBit 1 = false ∧
    wfLanes (List.replicate 8 ⟨0, true, false, 0⟩) 10 2 = true := by
  refine ⟨by decide +kernel, by decide +kernel, by decide, ⟨{ up with regs := [(lnkC 0x100, 2)] }, by decide +kernel⟩, by decide +kernel,
    by decide +kernel, by decide +kernel, by decide +kernel,
    ⟨{ up with boot := { up.boot with charter := { up.charter with routes := ⟨[(1, {})]⟩ } } }, by decide +kernel⟩,
    by decide +kernel, by decide⟩

/-- One trace record waits in core 0's FIFO. -/
def tracing (x : Trc) : State :=
  let s := mapped []
  { s with trc := { x with fifo := x.fifo.put [] 0 [{}] }, regs := rootRegs ++ [(0x00700008, 0x30000)] }

/-- Core 0 has lost five records; its FIFO holds `n`. -/
def losing (n : Nat) : State :=
  { ready with trc := { ready.trc with fifo := ({} : Tbl (List TrcRec)).put [] 0 (List.replicate n {}), lost := ({} : Tbl Nat).put 0 0 5 } }

theorem witness_LogMonitorAndTraceRowsTakeEffect :
    (∃ s : State, ∃ r rest, (s.flt 0).recs = r :: rest) ∧ (ready.flt 0).recs = [] ∧
    (∃ (s : State) (e : RasEntry), s.ras.log.find? (fun e => e.num == (rd s 0x0080000C).toNat) = some e ∧
      1 ≤ (s.ras.next + 2 ^ 32 - (rd s 0x0080000C).toNat) % 2 ^ 32 ∧ (s.ras.next + 2 ^ 32 - (rd s 0x0080000C).toNat) % 2 ^ 32 ≤ 1024) ∧
    (∃ s : State, s.ras.irqDue = true ∧ rdB s 0x00800004 0 = true ∧ s.ras.irqAt = none) ∧
    (charged ready).charter.dbgMonitors = true ∧ ready.charter.dbgMonitors = false ∧ (charged ready).mon.frozen = false ∧
    (∀ k ∈ [1, 2, 3], ∃ s : State, s.charter.dbgMonitors = true ∧ s.mon.frozen = false ∧ rdB s 0x00604800 3 = true ∧
      rdF s 0x00604800 0 3 = k ∧ s.mon.fire = true ∧ rd64 s 0x00604804 0x00604808 % 2 ^ 48 ≤ s.gov.work % 2 ^ 48 ∧
      rd64 s 0x00604804 0x00604808 ≤ s.time) ∧
    (∃ s : State, s.charter.dbgMonitors = true ∧ s.mon.frozen = true) ∧
    ((1 : W32).getLsbD 0 = true ∧ (0 : W32).getLsbD 0 = false ∧ rdB (charged ready) 0x00700000 0 = false ∧
      (charged ready).charter.dbgTrace = true ∧ (charged ready).trc.stopped = false ∧
      (∀ c < 32, (charged ready).trc.fifo.get [] c = []) ∧ trcEmpty (charged ready) = true) ∧
    (let s := tracing {}
     s.trc.fifo.get [] 0 = [{}] ∧ (∀ k ≤ 32, k ≠ 0 → s.trc.fifo.get [] k = []) ∧ s.trc.full = false ∧ s.trc.wrapped = false ∧
      s.trc.lost.get 0 0 = 0 ∧ s.trc.syncDue.get false 0 = false ∧ s.trc.write + 1 < 2 ^ (trcLog2 s - 5) ∧ isCommons 0x4000030000 = true ∧
      ∃ u, translate { s with trc := { s.trc with fifo := s.trc.fifo.put [] 0 [] } } 32 0 none
        (rdF s 0x00700008 12 20 * 4096 + rdF s 0x0070000C 0 20 * 2 ^ 32 + 32 * s.trc.write) 32 .write
          = (u, .ok 0x4000030000 false false)) ∧
    -- a buffer that is full, and one that has wrapped
    (∀ x ∈ [(true, false), (false, true)], let s := tracing { full := x.1, wrapped := x.2 }
      s.trc.fifo.get [] 0 = [{}] ∧ (∀ k ≤ 32, k ≠ 0 → s.trc.fifo.get [] k = []) ∧ (s.trc.full = true ∨ s.trc.wrapped = true) ∧
      rdB s 0x00700000 1 = false ∧ s.trc.lost.get 0 0 = 0 ∧ s.trc.syncDue.get false 0 = false) ∧
    -- a core that has lost records, with room for two more and for one
    (∀ n ∈ [62, 63], ∃ s : State, s.trc.stopped = false ∧ s.trc.syncDue.get false 0 = false ∧ s.trc.lost.get 0 0 ≠ 0 ∧
      (s.trc.fifo.get [] 0).length = n) ∧
    (∃ s : State, s.trc.bit30.get false 0 ≠ (s.core 0).cycles.testBit 30 ∧ trcRuns s = true ∧ (s.trc.fifo.get [] 0).length < 64) := by
  refine ⟨⟨{ ready with ras := { ready.ras with flt := ({} : Tbl FltLog).put {} 0 { recs := [{}] } } }, _, _, rfl⟩, by decide,
    ⟨{ ready with ras := { ready.ras with log := [{}], next := 1 } }, {}, by decide⟩,
    ⟨{ ready with ras := { ready.ras with irqDue := true }, regs := [(0x00800004, 1)] }, by decide⟩, by decide, by decide, by decide, ?_,
    ⟨{ charged ready with mon := { ready.mon with frozen := true } }, by decide⟩, by decide +kernel,
    ⟨by decide, by decide, by decide, by decide, by decide, by decide, by decide +kernel, by decide, ⟨_, pair_of _ _ (by decide +kernel)⟩⟩,
    by decide, ?_,
    ⟨{ (charged ready).setCore 0 { cycles := 2 ^ 30 } with
      trc := { ready.trc with active := true }, regs := [(0x00700000, 1)] }, by decide +kernel⟩⟩
  · simp only [List.forall_mem_cons]
    exact ⟨⟨{ charged ready with regs := [(0x00604800, 9)], mon := { ready.mon with fire := true } }, by decide⟩,
      ⟨{ charged ready with regs := [(0x00604800, 10)], mon := { ready.mon with fire := true } }, by decide⟩,
      ⟨{ charged ready with regs := [(0x00604800, 11)], mon := { ready.mon with fire := true } }, by decide⟩, by simp⟩
  · simp only [List.forall_mem_cons]
    exact ⟨⟨losing 62, by decide⟩, ⟨losing 63, by decide⟩, by simp⟩

theorem witness_RegisterWritesReachTheirRegisters :
    -- a governor register, one of a core, one of HQ through the steward's page; an offset with no register
    (writeAddr ready 0 0x00020020 = some 0x00020020 ∧ writeAddr ready 0 (coreA 31 0x614) = some (coreA 31 0x614) ∧
      coreA 31 0x614 + 4 ≤ 0x4000000 ∧ writeAddr ready 1 0x1F900 = none ∧ 0x1F900 % 4 = 0) ∧
    -- a byte; an offset of a virtual function outside its page; past the end of BAR0
    (1 ≤ ([0] : List Byte).length ∧ 0x20200 + 1 < (0x20200 + 3) / 4 * 4 + 4) ∧ ((1 : Fn).val ≠ 0 ∧ 0x3FFFFFC % 4 = 0) ∧
    0x4000000 < 0x3FFFFFD + (leBytes 4 0).length ∧
    (∃ s : State, embOwner s 5 = some 1) :=
  ⟨by decide, by decide, by decide, by decide, { ready with regs := [(0x02000814, 0x81)] }, by decide⟩

theorem witness_FaultMailboxPopMovesOldestRecord : ∃ s : State, ∃ r rest, (s.flt 5).recs = r :: rest :=
  ⟨{ ready with ras := { ready.ras with flt := ({} : Tbl FltLog).put {} 5 { recs := [{}] } } }, _, _, rfl⟩

theorem witness_SequenceNumbersPrecedeModulo :
    (1 ≤ (((0 : W32).toNat : Int) - (0xFFFFFFFF : W32).toNat) % 2 ^ 32) ∧ seqBefore 0xFFFFFFFF 0 = true ∧
    seqBefore 0 0x80000000 = false ∧ (ready.queue 0 2).abSt ≠ .pending ∧ ∀ c ∈ (ready.queue 0 2).cmds, c.seq ≠ 7 := by decide

theorem witness_EveryStepKeepsPowerAndPinState :
    let s := { ready with boot := { ready.boot with link := true }, pending := [.lrefLoss] }
    PowerInv s ∧ (∃ t, step s = .next t) ∧ PowerInv State.reset ∧ ∃ t, step State.reset = .next t := by
  unfold PowerInv
  exact ⟨by decide, next_of _ (by decide +kernel), by decide, _, rfl⟩

/-! ## Small checks: results that the manual's worked examples and tables state -/

/-- 00 worked example, steps 1 and 2: core 18's TE is engine 0x4A, in bunch 5. -/
theorem test_engine_identifier : engId 18 .te = 0x4A ∧ bunchOf 18 = 5 ∧ bunchOf 27 = 5 := by decide
/-- 08 worked example, steps 1 to 7: the words are legal, each of its row's opcode. -/
theorem test_scaled_accumulate_words :
    [(0x8B, 0x000000020002008B), (0x01, 0x0000020802040001), (0x40, 0x00100234040A1940), (0x23, 0x000032100A0C0023),
     (0x41, 0x00100334040C0041), (0x61, 0x0000010000110061)].all (fun p : Nat × W64 => teLegal p.2 && tOp p.2 == p.1) = true := by
  decide
/-- 08 worked example, steps 2 to 5: operands of IADD, LD and FFMA. -/
theorem test_scaled_accumulate_fields :
    tD 0x0000020802040001 = 4 ∧ tA 0x0000020802040001 = 2 ∧ tB 0x0000020802040001 = 256 + 4 ∧
    tPg 0x00100234040A1940 = 1 ∧ tPn 0x00100234040A1940 = true ∧ tPe 0x00100234040A1940 = true ∧ tD 0x00100234040A1940 = 10 ∧
    tSize 0x00100234040A1940 = 2 ∧ tSpace 0x00100234040A1940 = 1 ∧ tScope 0x00100234040A1940 = 1 ∧ tOrder 0x00100234040A1940 = 2 ∧
    tOff 0x00100234040A1940 = 16 ∧ tC 0x000032100A0C0023 = 12 ∧ tConj 0x0000010000110061 = 17 := by decide
/-- 08, table of situations: all zeros; IADD du with a vector source; FADD du; LD of 8 bytes into v11; LD plain with scope chip;
ST acquire; ATOM FADD of 8 bytes; BAR.BLOCK pe; LPOLL MASK without du; RDSR 3 without du. -/
theorem test_illegal_words :
    [0, 0x2001, 0x2020, 0x6000B0040, 0x4400000040, 0x20400000041, 0x5443000000000042, 0x1060, 0x10000000000039, 0x30000003C].all
      (fun w : W64 => !teLegal w) = true := by decide
/-- 08: a vector IADD reads the low 32 bits of u8. -/
theorem test_vector_reads_low_half : b32 { u := ({} : Tbl W64).put 0 8 0x100000002 } 0x0000021000000001 0 = 2 := by decide
/-- 08: CVT of FP32 70,000.0 to FP16 gives an infinity, or 65,504 with sat. -/
theorem test_cvt_overflow :
    cvtLane 0x0080000000000030 0 0x4788B800 0 = 0x7C00 ∧ cvtLane 0x8080000000000030 0 0x4788B800 0 = 0x7BFF := by decide +kernel
/-- 07: threads = 200 is 7 punnets, and punnet 6 has lanes 0 to 7. -/
theorem test_punnets_of_200 : ({ threads := 200 } : Grid).punnets = 7 ∧ ({ threads := 200 } : Grid).lanes 6 = 0xFF := by decide
/-- 05 worked example, step 4: Y's header says delay 21 and slots 1 and 6. -/
theorem test_clause_header : ({ hdr := 0x150042 } : Clause).delay = 21 ∧ ({ hdr := 0x3C01F00 } : Clause).execs = 32 := by decide
/-- 12 worked example, step 3: the RUN's header. -/
theorem test_command_header :
    let c := parseCmd [0xFFFFFFFF02A10101, 0x0042000100000030]
    c.op = 1 ∧ c.event = true ∧ c.ctx = 0x2A1 ∧ c.seq = 0xFFFFFFFF ∧ maskCores c.mask.toNat = [4, 5] ∧ c.eng = 1 ∧ c.tag = 0x42 := by
  decide
/-- 12 worked example, step 5: the first 8 bytes of the RUN's completion record. -/
theorem test_completion_record :
    leNat (({ op := 1, event := true, ctx := 0x2A1, seq := 0xFFFFFFFF, tag := 0x42 } : Cmd).record 3 true |>.take 8)
      = 0x00420900FFFFFFFF := by decide
/-- 12 worked example, steps 7 and 8: 0xFFFFFFFF precedes 1, 5 does not. -/
theorem test_sequence_numbers : seqBefore 0xFFFFFFFF 1 = true ∧ seqBefore 5 1 = false := by decide
/-- 12 worked example, step 1: where queue 3 of function 5 has its registers. -/
theorem test_queue_registers : writeAddr ready 5 0x10180 = some (qA 5 3 0) ∧ qA 5 3 5 = qA 5 3 0 + 0x14 := by decide
/-- 16: a read of a hole is zero, and a virtual function's reads past its page are. -/
theorem test_register_holes : readReg ready 0 0x900000 = 0 ∧ readReg ready 1 0x100000 = 0 := by decide +kernel
/-- R391: power good drives the pump to 100 % and closes the bypass; PERST_N still holds the device. R44: released, it is in STRAP. -/
theorem test_power_good :
    (match step { State.reset with pending := [.pwrgoodRise ⟨0, false, 0⟩] } with
     | .next t => t.boot.dev == .off && t.boot.pumpPin == .high && t.boot.valvePin == .low && t.pending.isEmpty
     | _ => false) = true := by decide +kernel
theorem test_perst_release :
    (match exec (.perstDeassert ⟨0, false, 0⟩) { inDev .off with boot := { (inDev .off).boot with perst := true } } with
     | .next t => t.boot.dev == .strap
     | _ => false) = true := by decide +kernel
/-- R53: a sideband code that is not assigned is not acknowledged. -/
theorem test_sideband_unassigned :
    (match step { ready with pending := [.sidebandUnknownCommand 0x77] } with | .next t => !t.sb.ack | _ => false) = true := by
  decide +kernel

end Sys2Proof.Tests
end

namespace Sys2Proof.Machine

/-! # Register writes (R9, R10, R370 to R373)

A write of one aligned word is `writeReg` at its offset; `writeAddr` names the register that the offset reaches, and
`writeCanon` hands the word to the register's block. Each layer has its rules below; a row of O55 is a chain of them. -/

/-! ## One word on the bus -/

/-- The host's write of the word `v` at offset `off` of function `f`'s BAR0. -/
noncomputable def wordWrite (f : Fn) (off : Nat) (v : W32) : Instr := .registerWrite f off (leBytes 4 v.toNat)

/-- The BAR0 offset at which function `f` sees offset `p` of its page (R371, R372). -/
def fnOffset (f : Fn) (p : Nat) : Nat := if f.val = 0 then 0x40000 + p else p

theorem exec_registerWrite {f : Fn} {off : Nat} {b : List Byte} (hb : 1 ≤ b.length) (hend : off + b.length ≤ 0x4000000)
    (s : State) : exec (.registerWrite f off b) s = done s (regWrite s f off b) :=
  if_pos ⟨hb, hend⟩

theorem exec_registerWrite_pastEnd {f : Fn} {off : Nat} {b : List Byte} (h : 0x4000000 < off + b.length) (s : State) :
    exec (.registerWrite f off b) s = .fault (.illFormed "REGISTER_WRITE") :=
  if_neg fun hle => by omega

theorem doorbellAt_none {f off n : Nat} (h : n = 8 → off % 8 ≠ 0) : doorbellAt f off n = none :=
  if_neg fun hd => h hd.1 hd.2.1

theorem word32_leBytes_append (v : W32) (r : List Byte) : word32 (leBytes 4 v.toNat ++ r) = v := by
  have htake : (leBytes 4 v.toNat ++ r).take 4 = leBytes 4 v.toNat := List.take_left' (leBytes_length 4 _)
  simp only [word32, at_, List.drop_zero, htake, leNat_leBytes 4 _ v.isLt, BitVec.ofNat_toNat, BitVec.setWidth_eq]

theorem word32_leBytes (v : W32) : word32 (leBytes 4 v.toNat) = v := by
  simpa using word32_leBytes_append v []

/-- An aligned word inside BAR0 is one register write. -/
theorem exec_wordWrite {f : Fn} {off : Nat} (hal : off % 4 = 0) (hend : off + 4 ≤ 0x4000000) (v : W32) (s : State) :
    exec (wordWrite f off v) s = done s (writeReg s f off v) := by
  have hlen := leBytes_length 4 v.toNat
  have hfirst : (off + 3) / 4 * 4 = off := by omega
  rw [wordWrite, exec_registerWrite (by omega) (by omega), regWrite, hlen, doorbellAt_none (by omega)]
  simp [hfirst, upTo, word32_leBytes]

theorem done_self (s : State) : done s s = .next s.ticked := rfl

theorem regWrite_partial {f : Fn} {off : Nat} {b : List Byte} (h : off + b.length < (off + 3) / 4 * 4 + 4) (s : State) :
    regWrite s f off b = s := by
  have hnone : (off + b.length - (off + 3) / 4 * 4) / 4 = 0 := by omega
  rw [regWrite, doorbellAt_none (by omega)]
  simp [hnone, upTo]

/-- A write that covers no aligned word completely is ignored (R370). -/
theorem exec_registerWrite_partial {f : Fn} {off : Nat} {b : List Byte} (hb : 1 ≤ b.length)
    (hend : off + b.length ≤ 0x4000000) (h : off + b.length < (off + 3) / 4 * 4 + 4) (s : State) :
    exec (.registerWrite f off b) s = .next s.ticked := by
  rw [exec_registerWrite hb hend, regWrite_partial h, done_self]

/-! ## The register that an offset reaches -/

theorem exec_wordWrite_at {f : Fn} {off a : Nat} {v : W32} {s : State} (hal : off % 4 = 0) (hend : off + 4 ≤ 0x4000000)
    (ha : writeAddr s f off = some a) : exec (wordWrite f off v) s = done s (writeCanon s f a v) := by
  rw [exec_wordWrite hal hend, writeReg, ha]

theorem exec_wordWrite_nowhere {f : Fn} {off : Nat} {v : W32} {s : State} (hal : off % 4 = 0) (hend : off + 4 ≤ 0x4000000)
    (ha : writeAddr s f off = none) : exec (wordWrite f off v) s = .next s.ticked := by
  rw [exec_wordWrite hal hend, writeReg, ha, done_self]

theorem writeAddr_steward {off : Nat} (h : off < 0x41000 ∨ 0x100000 ≤ off) (hend : off < 0x4000000) (s : State) :
    writeAddr s 0 off = some off := by
  rw [writeAddr, if_pos rfl, if_neg (by omega), if_pos hend]

theorem writeAddr_fnOffset (f : Fn) {p : Nat} (h : 0x1000 ≤ p) (hend : p < 0xC0000) (s : State) :
    writeAddr s f (fnOffset f p) = pageAddr s f p := by
  unfold writeAddr fnOffset
  split
  · next hf => rw [if_pos (by omega), Nat.add_sub_cancel_left, hf]
  · next hf => rw [if_pos (by omega)]

theorem writeAddr_virtual_outside {f : Fn} {off : Nat} (hf : f.val ≠ 0) (h : 0x100000 ≤ off) (s : State) :
    writeAddr s f off = none := by
  rw [writeAddr, if_neg hf, if_neg (by omega)]

/-- The steward's write of a register of a block that no page shows at another place. -/
theorem exec_wordWrite_steward {a : Nat} (h : a < 0x41000 ∨ 0x100000 ≤ a) (hal : a % 4 = 0) (hend : a + 4 ≤ 0x4000000)
    (v : W32) (s : State) : exec (wordWrite 0 a v) s = done s (writeCanon s 0 a v) :=
  exec_wordWrite_at hal hend (writeAddr_steward h (by omega) s)

/-- The offsets of a page whose registers live in the page itself (R372). -/
def ownRegister (p : Nat) : Prop := 0x1000 ≤ p ∧ p < 0x1E000 ∨ 0x20000 ≤ p ∧ p < 0x30000

theorem pageAddr_own {p : Nat} (h : ownRegister p) (s : State) (f : Nat) : pageAddr s f p = some (fpA f p) := by
  unfold ownRegister at h
  rw [pageAddr, if_neg (by omega), if_neg (by omega), if_neg (by omega)]

theorem pageAddr_mmu {k : Nat} (h : k < 32) (s : State) (f : Nat) :
    pageAddr s f (0x1F000 + 4 * k) = some (0x200000 + 0x100 * f + 4 * k) := by
  rw [pageAddr, if_neg (by omega), if_pos (by omega)]
  exact congrArg some (by omega)

theorem pageAddr_sketch {k r f : Nat} {s : State} (hk : k < 64) (hr : r < 8) (hown : embOwner s k = some f) :
    pageAddr s f (0x1E000 + 0x20 * k + 4 * r) = some (0x02001000 + 0x20 * k + 4 * r) := by
  have hslot : (0x1E000 + 0x20 * k + 4 * r - 0x1E000) / 0x20 = k := by omega
  rw [pageAddr, if_pos (by omega), hslot, if_pos hown]
  exact congrArg some (by omega)

theorem writeCanon_fpA {p : Nat} (h : p < 0x100000) (s : State) (g f : Nat) (v : W32) :
    writeCanon s g (fpA f p) v = writePage s f p v := by
  have hf : (fpA f p - 0x40000000) / 0x100000 = f := by unfold fpA; omega
  have hp : (fpA f p - 0x40000000) % 0x100000 = p := by unfold fpA; omega
  rw [writeCanon, if_pos (by unfold fpA; omega), hf, hp]

/-- A write of a register that lives in function `f`'s page, at the offset at which `f` sees it. -/
theorem exec_wordWrite_page (f : Fn) {p : Nat} (h : ownRegister p) (hal : p % 4 = 0) (v : W32) (s : State) :
    exec (wordWrite f (fnOffset f p) v) s = done s (writePage s f p v) := by
  have hp : 0x1000 ≤ p ∧ p < 0x30000 := by unfold ownRegister at h; omega
  have hoff : fnOffset f p % 4 = 0 ∧ fnOffset f p + 4 ≤ 0x4000000 := by unfold fnOffset; split <;> omega
  rw [exec_wordWrite_at hoff.1 hoff.2 ((writeAddr_fnOffset f hp.1 (by omega) s).trans (pageAddr_own h s f)),
    writeCanon_fpA (by omega)]

/-! ## The blocks of the steward's BAR0 -/

theorem writeCanon_mem {a : Nat} (h : 0x2000000 ≤ a) (hlt : a < 0x40000000) (s : State) (g : Nat) (v : W32) :
    writeCanon s g a v = writeMem s g a v := by
  rw [writeCanon]
  repeat rw [if_neg (by omega)]
  rw [if_pos h]

theorem writeCanon_core {c o : Nat} (hc : c < 32) (ho : o < 0x40000) (s : State) (g : Nat) (v : W32) :
    writeCanon s g (coreA c o) v = writeCore s c o v := by
  have hn : (coreA c o - 0x1000000) / 0x40000 = c := by unfold coreA; omega
  have hr : coreA c o % 0x40000 = o := by unfold coreA; omega
  have hlo : 0x1000000 ≤ coreA c o := by unfold coreA; omega
  have hhi : coreA c o < 0x1800000 := by unfold coreA; omega
  rw [writeCanon]
  repeat rw [if_neg (by omega)]
  rw [if_pos hlo, hn, hr]

theorem writeCanon_ras {a : Nat} (h : 0x800000 ≤ a) (hlt : a < 0x1000000) (s : State) (g : Nat) (v : W32) :
    writeCanon s g a v = if a = 0x800010 then (if bit v.toNat 0 then rasLogOp s else s) else plainWrite s a v := by
  rw [writeCanon]
  repeat rw [if_neg (by omega)]
  rw [if_pos h]

theorem writeCanon_trc {a : Nat} (h : 0x700000 ≤ a) (hlt : a < 0x800000) (s : State) (g : Nat) (v : W32) :
    writeCanon s g a v = writeTrc s a v := by
  rw [writeCanon]
  repeat rw [if_neg (by omega)]
  rw [if_pos h]

theorem writeCanon_mon {a : Nat} (h : 0x600000 ≤ a) (hlt : a < 0x700000) (s : State) (g : Nat) (v : W32) :
    writeCanon s g a v = writeMon s a v := by
  rw [writeCanon]
  repeat rw [if_neg (by omega)]
  rw [if_pos h]

theorem writeCanon_lnk {a : Nat} (h : 0x500000 ≤ a) (hlt : a < 0x600000) (s : State) (g : Nat) (v : W32) :
    writeCanon s g a v = writeLnk s a v := by
  rw [writeCanon]
  repeat rw [if_neg (by omega)]
  rw [if_pos h]

theorem writeCanon_syn {a : Nat} (h : 0x400000 ≤ a) (hlt : a < 0x500000) (s : State) (g : Nat) (v : W32) :
    writeCanon s g a v = writeSyn s a v := by
  rw [writeCanon]
  repeat rw [if_neg (by omega)]
  rw [if_pos h]

theorem writeCanon_mmu {a : Nat} (h : 0x200000 ≤ a) (hlt : a < 0x300000) (s : State) (g : Nat) (v : W32) :
    writeCanon s g a v = writeMmu s a v := by
  rw [writeCanon]
  repeat rw [if_neg (by omega)]
  rw [if_pos h]

theorem writeCanon_low {a : Nat} (hlt : a < 0x200000) (s : State) (g : Nat) (v : W32) :
    writeCanon s g a v = if a = 0x20200 then (if bit v.toNat 0 then snapRequestOp s else s) else plainWrite s a v := by
  rw [writeCanon]
  repeat rw [if_neg (by omega)]

/-- Of the registers that a virtual function may see in its page, only the dump control of a sketch slot depends on who
writes it. -/
theorem writeMem_writer {a : Nat} (h : a % 0x20 ≠ 8) (s : State) (g g' : Nat) (v : W32) :
    writeMem s g a v = writeMem s g' a v := by
  unfold writeMem
  rw [if_neg h, if_neg h]

/-! ## Plain registers -/

/-- The offsets of a core window whose registers have no rule but R9's, as O55 lists them. -/
def corePlainOffsets : List Nat := [0x014, 0x054, 0x100, 0x104, 0x20C, 0x604, 0x608, 0x60C, 0x614]

/-- The registers whose write is R9's alone: CHR, PLT, the HQ globals, RAS and those of a core window. -/
def PlainRegister (a : Nat) : Prop :=
  a < 0x200000 ∧ a ≠ 0x20200 ∨ 0x800000 ≤ a ∧ a < 0x1000000 ∧ a ≠ 0x800010 ∨
    ∃ c < 32, ∃ o ∈ corePlainOffsets, a = coreA c o

theorem writeCore_plain {o : Nat} (h : o ∈ corePlainOffsets) (s : State) (c : Nat) (v : W32) :
    writeCore s c o v = plainWrite s (coreA c o) v := by
  simp only [corePlainOffsets, List.mem_cons, List.not_mem_nil, or_false] at h
  rcases h with rfl | rfl | rfl | rfl | rfl | rfl | rfl | rfl | rfl <;> rfl

theorem corePlainOffsets_lt {o : Nat} (h : o ∈ corePlainOffsets) : o < 0x40000 := by
  have hall : ∀ o ∈ corePlainOffsets, o < 0x40000 := by decide
  exact hall o h

theorem writeCanon_plain {a : Nat} (h : PlainRegister a) (s : State) (g : Nat) (v : W32) :
    writeCanon s g a v = plainWrite s a v := by
  rcases h with ⟨hlt, hne⟩ | ⟨hlo, hhi, hne⟩ | ⟨c, hc, o, ho, rfl⟩
  · rw [writeCanon_low hlt, if_neg hne]
  · rw [writeCanon_ras hlo hhi, if_neg hne]
  · rw [writeCanon_core hc (corePlainOffsets_lt ho), writeCore_plain ho]

theorem plainWrite_eq (s : State) (a : Nat) (v : W32) :
    plainWrite s a v = { s with regs := (plainWrite s a v).regs } := by
  unfold plainWrite
  split <;> rfl

theorem rd_plainWrite_other {a b : Nat} (h : b ≠ a) (s : State) (v : W32) : rd (plainWrite s a v) b = rd s b := by
  unfold plainWrite
  split
  · rfl
  · simp [h]

theorem getLsbD_writeWord (a : Nat) (old v : W32) {i : Nat} (h : i < 32) :
    (writeWord a old v).getLsbD i = ((if (rwMask a).testBit i then v.getLsbD i else old.getLsbD i)
      && !((w1cMask a).testBit i && v.getLsbD i)) := by
  simp only [writeWord, BitVec.getLsbD_and, BitVec.getLsbD_or, BitVec.getLsbD_not, BitVec.getLsbD_ofNat, h, decide_true,
    Bool.true_and]
  cases (rwMask a).testBit i <;> simp [Bool.and_comm]

theorem getLsbD_plainWrite (s : State) (a : Nat) (v : W32) {i : Nat} (h : i < 32) :
    (rd (plainWrite s a v) a).getLsbD i = ((if (rwMask a).testBit i then v.getLsbD i else (rd s a).getLsbD i)
      && !((w1cMask a).testBit i && v.getLsbD i)) := by
  unfold plainWrite
  split
  · next hz => simp [hz.1, hz.2]
  · simp [getLsbD_writeWord a _ v h]

/-- O55's first clause as its words say it, with the comparison taken before the `&&`: RW fields take the value, a 1
clears a W1C bit, and no other register changes (R9, R10). -/
theorem wordWrite_plainRegister {f : Fn} {off a : Nat} {v : W32} {s : State} (hal : off % 4 = 0) (hend : off + 4 ≤ 0x4000000)
    (ha : writeAddr s f off = some a) (hplain : PlainRegister a) :
    Runs (wordWrite f off v) s (fun t => t = { s.ticked with regs := t.regs } ∧ (∀ b, b ≠ a → rd t b = rd s b) ∧
      ∀ i < 32, (rd t a).getLsbD i = ((if (rwMask a).testBit i then v.getLsbD i else (rd s a).getLsbD i)
        && !((w1cMask a).testBit i && v.getLsbD i))) := by
  refine ⟨_, exec_wordWrite_at hal hend ha, ?_⟩
  rw [writeCanon_plain hplain]
  refine ⟨?_, fun b hb => rd_plainWrite_other hb s v, fun i hi => getLsbD_plainWrite s a v hi⟩
  rw [plainWrite_eq]
  rfl

/-! ## Registers at two addresses -/

theorem exec_mmu_twoAddresses {f : Fn} (hf : f.val ≠ 0) (k : Fin 32) (v : W32) (s : State) :
    exec (wordWrite f (0x1F000 + 4 * k) v) s = exec (wordWrite 0 (0x200000 + 0x100 * f + 4 * k) v) s := by
  have hpage : fnOffset f (0x1F000 + 4 * k) = 0x1F000 + 4 * k := if_neg hf
  have haddr := (writeAddr_fnOffset f (p := 0x1F000 + 4 * k) (by omega) (by omega) s).trans (pageAddr_mmu k.isLt s f)
  rw [hpage] at haddr
  rw [exec_wordWrite_at (by omega) (by omega) haddr, exec_wordWrite_steward (by omega) (by omega) (by omega),
    writeCanon_mmu (by omega) (by omega), writeCanon_mmu (by omega) (by omega)]

theorem exec_sketch_twoAddresses {f : Fn} {k : Fin 64} {r : Fin 8} {s : State} (hown : embOwner s k = some f.val)
    (hr : r.val ≠ 2) (v : W32) :
    exec (wordWrite f (fnOffset f (0x1E000 + 0x20 * k + 4 * r)) v) s
      = exec (wordWrite 0 (0x02001000 + 0x20 * k + 4 * r) v) s := by
  have haddr := (writeAddr_fnOffset f (p := 0x1E000 + 0x20 * k + 4 * r) (by omega) (by omega) s).trans
    (pageAddr_sketch k.isLt r.isLt hown)
  have hoff : fnOffset f (0x1E000 + 0x20 * k + 4 * r) % 4 = 0 ∧
      fnOffset f (0x1E000 + 0x20 * k + 4 * r) + 4 ≤ 0x4000000 := by unfold fnOffset; split <;> omega
  rw [exec_wordWrite_at hoff.1 hoff.2 haddr, exec_wordWrite_steward (by omega) (by omega) (by omega),
    writeCanon_mem (by omega) (by omega), writeCanon_mem (by omega) (by omega), writeMem_writer (by omega)]

/-! ## Registers of a page whose write is a row of its own (R280 to R282, R299, R349) -/

theorem exec_write_doorbellTail (f : Fn) (q : Qid) (v : W32) (s : State) :
    exec (wordWrite f (fnOffset f (0x1000 + 8 * q)) v) s = exec (.doorbell f q (some v) none) s := by
  have hq : (0x1000 + 8 * q.val - 0x1000) / 8 = q := by omega
  rw [exec_wordWrite_page f (.inl (by omega)) (by omega), writePage, if_pos (by omega), if_pos (by omega), hq]
  rfl

theorem exec_write_doorbellHead (f : Fn) (q : Qid) (v : W32) (s : State) :
    exec (wordWrite f (fnOffset f (0x1004 + 8 * q)) v) s = exec (.doorbell f q none (some v)) s := by
  have hq : (0x1004 + 8 * q.val - 0x1000) / 8 = q := by omega
  rw [exec_wordWrite_page f (.inl (by omega)) (by omega), writePage, if_pos (by omega), if_neg (by omega), hq]
  rfl

theorem doorbellAt_fnOffset (f : Fn) (q : Qid) : doorbellAt f (fnOffset f (0x1000 + 8 * q)) 8 = some q.val := by
  have hpage : (if f.val = 0 then fnOffset f (0x1000 + 8 * q) - 0x40000 else fnOffset f (0x1000 + 8 * q))
      = 0x1000 + 8 * q := by unfold fnOffset; split <;> omega
  have hmem : fnOffset f (0x1000 + 8 * q) % 8 = 0 ∧ (f.val ≠ 0 ∨ 0x40000 ≤ fnOffset f (0x1000 + 8 * q)) := by
    unfold fnOffset; split <;> omega
  rw [doorbellAt]
  simp only [hpage]
  rw [if_pos ⟨trivial, hmem.1, hmem.2, by omega, by omega⟩]
  exact congrArg some (by omega)

/-- An aligned 8-byte write of a doorbell is one command with both words (R282, R370). -/
theorem exec_write_doorbell (f : Fn) (q : Qid) (v x : W32) (s : State) :
    exec (.registerWrite f (fnOffset f (0x1000 + 8 * q)) (leBytes 4 v.toNat ++ leBytes 4 x.toNat)) s
      = exec (.doorbell f q (some v) (some x)) s := by
  have hlen : (leBytes 4 v.toNat ++ leBytes 4 x.toNat).length = 8 := by simp
  have hend : fnOffset f (0x1000 + 8 * q) + 8 ≤ 0x4000000 := by unfold fnOffset; split <;> omega
  have hdrop : (leBytes 4 v.toNat ++ leBytes 4 x.toNat).drop 4 = leBytes 4 x.toNat := List.drop_left' (leBytes_length 4 _)
  rw [exec_registerWrite (by omega) (by omega), regWrite, hlen, doorbellAt_fnOffset]
  simp only [hdrop, word32_leBytes, word32_leBytes_append]
  rfl

/-- Register `o` of queue `q` in function `f`'s page. -/
theorem exec_write_queueRegister (f : Fn) (q : Qid) {o : Nat} (ho : o < 0x80) (hal : o % 4 = 0) (v : W32) (s : State) :
    exec (wordWrite f (fnOffset f (0x10000 + o + 0x80 * q)) v) s = done s (writeQueueReg s f q o v) := by
  have hq : (0x10000 + o + 0x80 * q.val - 0x10000) / 0x80 = q := by omega
  have ho' : (0x10000 + o + 0x80 * q.val) % 0x80 = o := by omega
  rw [exec_wordWrite_page f (.inl (by omega)) (by omega), writePage, if_neg (by omega), if_pos (by omega), hq, ho']

theorem bit_zero_eq_getLsbD (v : W32) : bit v.toNat 0 = v.getLsbD 0 := rfl

theorem exec_write_queueCtrl (f : Fn) (q : Qid) (v : W32) (s : State) :
    exec (wordWrite f (fnOffset f (0x10014 + 0x80 * q)) v) s
      = exec (if v.getLsbD 0 then .queueEnable f q v else .queueDisable f q v) s := by
  rw [exec_write_queueRegister f q (o := 0x14) (by omega) (by omega)]
  by_cases hv : v.getLsbD 0 = true
  · rw [if_pos hv]
    exact congrArg (done s) (if_pos hv).symm
  · rw [if_neg hv]
    exact congrArg (done s) (if_neg hv).symm

theorem exec_write_queueAbort (f : Fn) (q : Qid) (v : W32) (s : State) :
    exec (wordWrite f (fnOffset f (0x10028 + 0x80 * q)) v) s = exec (.abort f q v) s := by
  rw [exec_write_queueRegister f q (o := 0x28) (by omega) (by omega)]
  rfl

theorem exec_write_fltPop (f : Fn) {v : W32} (hv : v.getLsbD 0 = true) (s : State) :
    exec (wordWrite f (fnOffset f 0x2000C) v) s = exec (.fltPop f) s := by
  rw [exec_wordWrite_page f (.inr (by omega)) (by omega), writePage, if_neg (by omega), if_neg (by omega), if_pos rfl,
    bit_zero_eq_getLsbD, if_pos hv]
  rfl

/-! ## Registers of the blocks whose write is a row of its own -/

theorem exec_write_govSnap {v : W32} (hv : v.getLsbD 0 = true) (s : State) :
    exec (wordWrite 0 0x20200 v) s = exec .govSnapRequest s := by
  rw [exec_wordWrite_steward (by omega) (by omega) (by omega), writeCanon_low (by omega), if_pos rfl, bit_zero_eq_getLsbD,
    if_pos hv]
  rfl

theorem exec_write_rasLog {v : W32} (hv : v.getLsbD 0 = true) (s : State) :
    exec (wordWrite 0 0x800010 v) s = exec .rasLogRequest s := by
  rw [exec_wordWrite_steward (by omega) (by omega) (by omega), writeCanon_ras (by omega) (by omega), if_pos rfl,
    bit_zero_eq_getLsbD, if_pos hv]
  rfl

theorem exec_write_mmuRoot (f : Fn) (b : Bool) (v : W32) (s : State) :
    exec (wordWrite 0 (0x200000 + 0x100 * f + if b then 4 else 0) v) s = exec (.mmuRootWrite f b v) s := by
  generalize ho : (if b then 4 else 0) = o
  have hlt : o = 0 ∨ o = 4 := by subst ho; cases b <;> decide
  have hf : (0x200000 + 0x100 * f.val + o - 0x200000) / 0x100 = f := by omega
  have hreg : (0x200000 + 0x100 * f.val + o) % 0x100 = o := by omega
  rw [exec_wordWrite_steward (by omega) (by omega) (by omega), writeCanon_mmu (by omega) (by omega), writeMmu,
    if_pos (by omega)]
  simp only [hf, hreg]
  subst ho
  cases b <;> rfl

theorem exec_write_mmuInvalidate (f : Fn) (v : W32) (s : State) :
    exec (wordWrite 0 (0x200010 + 0x100 * f) v) s = exec (.mmuInvalidate f v) s := by
  have hf : (0x200010 + 0x100 * f.val - 0x200000) / 0x100 = f := by omega
  have hreg : (0x200010 + 0x100 * f.val) % 0x100 = 0x10 := by omega
  rw [exec_wordWrite_steward (by omega) (by omega) (by omega), writeCanon_mmu (by omega) (by omega), writeMmu,
    if_pos (by omega)]
  simp only [hf, hreg]
  rfl

theorem exec_write_allot (f : Fn) (k : Fin 16) (b : Bool) (v : W32) (s : State) :
    exec (wordWrite 0 (0x208000 + 0x80 * f + 8 * k + if b then 4 else 0) v) s = exec (.allotWrite f k b v) s := by
  generalize ho : (if b then 4 else 0) = o
  have hlt : o = 0 ∨ o = 4 := by subst ho; cases b <;> decide
  have hf : (0x208000 + 0x80 * f.val + 8 * k + o - 0x208000) / 0x80 = f := by omega
  have hk : (0x208000 + 0x80 * f.val + 8 * k + o) % 0x80 / 8 = k := by omega
  have hb : (0x208000 + 0x80 * f.val + 8 * k + o) % 8 = o := by omega
  have hhalf : (o == 4) = b := by cases b <;> subst ho <;> rfl
  rw [exec_wordWrite_steward (by omega) (by omega) (by omega), writeCanon_mmu (by omega) (by omega), writeMmu,
    if_neg (by omega), if_pos (by omega), hf, hk, hb, hhalf]
  rfl

theorem exec_write_bwCfg (k : Fin 16) (b : Bool) (v : W32) (s : State) :
    exec (wordWrite 0 (0x400200 + 16 * k + if b then 4 else 0) v) s = exec (.bwCfgWrite k b v) s := by
  cases b
  · have hk : (0x400200 + 16 * k.val - 0x400200) / 16 = k := by omega
    rw [if_neg Bool.false_ne_true, Nat.add_zero, exec_wordWrite_steward (by omega) (by omega) (by omega),
      writeCanon_syn (by omega) (by omega), writeSyn, if_neg (by omega), if_neg (by omega), if_pos (by omega),
      if_pos (by omega), hk]
    rfl
  · have hk : (0x400200 + 16 * k.val + 4 - 0x400200) / 16 = k := by omega
    rw [if_pos rfl, exec_wordWrite_steward (by omega) (by omega) (by omega), writeCanon_syn (by omega) (by omega), writeSyn,
      if_neg (by omega), if_neg (by omega), if_pos (by omega), if_neg (by omega), if_pos (by omega), hk]
    rfl

theorem exec_write_synSel (v : W32) (s : State) : exec (wordWrite 0 0x400000 v) s = exec (.synSelCapture v) s := by
  rw [exec_wordWrite_steward (by omega) (by omega) (by omega), writeCanon_syn (by omega) (by omega), writeSyn, if_pos rfl]
  rfl

theorem exec_write_synDump (v : W32) (s : State) : exec (wordWrite 0 0x40080C v) s = exec (.synDumpStart v) s := by
  rw [exec_wordWrite_steward (by omega) (by omega) (by omega), writeCanon_syn (by omega) (by omega), writeSyn,
    if_neg (by omega), if_pos rfl]
  rfl

theorem exec_write_portFence (k : PortId) (v : W32) (s : State) :
    exec (wordWrite 0 (0x500004 + 0x10000 * k) v) s
      = exec (if v.getLsbD 0 then .portFence k else .portUnfence ⟨k, false⟩) s := by
  have hk : (0x500004 + 0x10000 * k.val - 0x500000) / 0x10000 = k := by omega
  rw [exec_wordWrite_steward (by omega) (by omega) (by omega), writeCanon_lnk (by omega) (by omega), writeLnk,
    if_neg (by omega), if_pos (by omega), hk, bit_zero_eq_getLsbD]
  split <;> rfl

theorem exec_write_routeSel (v : W32) (s : State) : exec (wordWrite 0 0x508004 v) s = exec (.routeSelect v) s := by
  rw [exec_wordWrite_steward (by omega) (by omega) (by omega), writeCanon_lnk (by omega) (by omega), writeLnk, if_pos rfl]
  rfl

theorem exec_write_embOwner (n : Fin 64) (v : W32) (s : State) :
    exec (wordWrite 0 (0x2000800 + 4 * n) v) s = exec (.embSlotOwnerWrite n v) s := by
  have hn : (0x2000800 + 4 * n.val - 0x2000800) / 4 = n := by omega
  rw [exec_wordWrite_steward (by omega) (by omega) (by omega), writeCanon_mem (by omega) (by omega), writeMem,
    if_pos (by omega), hn]
  rfl

/-- The high word of an event counter; the block ignores it where the Charter does not allow monitors (R359). -/
theorem writeMon_counterHi (s : State) (n : Fin 64) (v : W32) :
    writeMon s (0x604008 + 16 * n) v = monHiOp s n v := by
  have hn : (0x604008 + 16 * n.val - 0x604000) / 16 = n := by omega
  unfold writeMon monHiOp
  split
  · rfl
  · rw [if_neg (by omega), if_neg (by omega), if_pos (by omega), hn]

theorem exec_write_monHi (n : Fin 64) (v : W32) (s : State) :
    exec (wordWrite 0 (0x604008 + 16 * n) v) s = exec (.monCntHiWrite n v) s := by
  rw [exec_wordWrite_steward (by omega) (by omega) (by omega), writeCanon_mon (by omega) (by omega),
    writeMon_counterHi]
  rfl

/-- The low word of an event counter; the block ignores it where the Charter does not allow monitors (R359). -/
theorem writeMon_counterLo (s : State) (n : Fin 64) (v : W32) :
    writeMon s (0x604004 + 16 * n) v = monLoOp s n v := by
  have hn : (0x604004 + 16 * n.val - 0x604000) / 16 = n := by omega
  unfold writeMon monLoOp
  split
  · rfl
  · rw [if_neg (by omega), if_pos (by omega), hn]

theorem exec_write_monLo (n : Fin 64) (v : W32) (s : State) :
    exec (wordWrite 0 (0x604004 + 16 * n) v) s = exec (.monCntLoWrite n v) s := by
  rw [exec_wordWrite_steward (by omega) (by omega) (by omega), writeCanon_mon (by omega) (by omega),
    writeMon_counterLo]
  rfl

theorem exec_write_traceCtrl (v : W32) (s : State) :
    exec (wordWrite 0 0x700000 v) s = exec (if v.getLsbD 0 then .traceEnable v else .traceDisable v) s := by
  rw [exec_wordWrite_steward (by omega) (by omega) (by omega), writeCanon_trc (by omega) (by omega), writeTrc, if_pos rfl]
  by_cases hv : v.getLsbD 0 = true
  · rw [if_pos hv]
    exact congrArg (done s) (if_pos hv).symm
  · rw [if_neg hv]
    exact congrArg (done s) (if_neg hv).symm

/-- Register `o` of core `c`'s window (R371). -/
theorem exec_wordWrite_core (c : CoreId) {o : Nat} (ho : o < 0x40000) (hal : o % 4 = 0) (v : W32) (s : State) :
    exec (wordWrite 0 (coreA c o) v) s = done s (writeCore s c o v) := by
  have hwin : 0x100000 ≤ coreA c o ∧ coreA c o % 4 = 0 ∧ coreA c o + 4 ≤ 0x4000000 := by unfold coreA; omega
  rw [exec_wordWrite_steward (.inr hwin.1) hwin.2.1 hwin.2.2, writeCanon_core c.isLt ho]

theorem exec_write_u63Hi (c : CoreId) (v : W32) (s : State) :
    exec (wordWrite 0 (coreA c 0x220) v) s = exec (.u63HiWrite c v) s :=
  exec_wordWrite_core c (by omega) (by omega) v s

theorem exec_write_u63Lo (c : CoreId) (v : W32) (s : State) :
    exec (wordWrite 0 (coreA c 0x21C) v) s = exec (.u63LoWrite c v) s :=
  exec_wordWrite_core c (by omega) (by omega) v s

theorem exec_write_l1Enable (c : CoreId) (v : W32) (s : State) :
    exec (wordWrite 0 (coreA c 0x600) v) s = exec (.l1EnableWrite c v) s :=
  exec_wordWrite_core c (by omega) (by omega) v s

/-! ## O55

The statement fails for the way Lean reads its first clause. With that clause in parentheses it holds: the theorem after the
refutation assembles the rules above into it. -/

/-- Refutes O55: its first clause says `new = (if … then … else …) && !(…)`, which Lean reads as `(new = …) && !(…)`, so that
it demands of every plain write that the word has no 1 at a W1C bit. A write of 0x10 at 0x20000, where bit 4 is W1C, has
one. The model is not at fault: it clears that bit, as `wordWrite_plainRegister` says (R9). -/
theorem not_registerWritesReachTheirRegisters : ¬ Obligations.RegisterWritesReachTheirRegisters := by
  rintro ⟨hplain, -⟩
  obtain ⟨t, -, -, -, hbits⟩ := hplain 0 0x20000 0x20000 0x10 State.reset (by decide) (by decide) (by decide)
    (.inl (by decide))
  have hw1c : ((w1cMask 0x20000).testBit 4 && (0x10 : W32).getLsbD 4) = true := by decide
  have hnoOne := (Bool.and_eq_true_iff.1 (hbits 4 (by decide))).2
  rw [hw1c] at hnoOne
  exact Bool.false_ne_true hnoOne

/-- What O55's words say: its clauses with the comparison of the first taken before the `&&`. -/
theorem wordWrites_reachTheirRegisters :
    (∀ (f : Fn) (off a : Nat) (v : W32) (s : State), off % 4 = 0 → off + 4 ≤ 0x4000000 → writeAddr s f off = some a →
      PlainRegister a → Runs (wordWrite f off v) s (fun t =>
        t = { s.ticked with regs := t.regs } ∧ (∀ b, b ≠ a → rd t b = rd s b) ∧
        ∀ i < 32, (rd t a).getLsbD i = ((if (rwMask a).testBit i then v.getLsbD i else (rd s a).getLsbD i)
          && !((w1cMask a).testBit i && v.getLsbD i)))) ∧
    (∀ (f : Fn) (off : Nat) (v : W32) (s : State), off % 4 = 0 → off + 4 ≤ 0x4000000 → writeAddr s f off = none →
      exec (wordWrite f off v) s = .next s.ticked) ∧
    (∀ (f : Fn) (off : Nat) (b : List Byte) (s : State), 1 ≤ b.length → off + b.length ≤ 0x4000000 →
      off + b.length < (off + 3) / 4 * 4 + 4 → exec (.registerWrite f off b) s = .next s.ticked) ∧
    (∀ (f : Fn) (off : Nat) (v : W32) (s : State), f.val ≠ 0 → 0x100000 ≤ off → off + 4 ≤ 0x4000000 → off % 4 = 0 →
      exec (wordWrite f off v) s = .next s.ticked) ∧
    (∀ (f : Fn) (off : Nat) (b : List Byte) (s : State), 0x4000000 < off + b.length →
      exec (.registerWrite f off b) s = .fault (.illFormed "REGISTER_WRITE")) ∧
    (∀ (f : Fn) (k : Fin 32) (v : W32) (s : State), f.val ≠ 0 →
      exec (wordWrite f (0x1F000 + 4 * k) v) s = exec (wordWrite 0 (0x200000 + 0x100 * f + 4 * k) v) s) ∧
    (∀ (f : Fn) (k : Fin 64) (r : Fin 8) (v : W32) (s : State), embOwner s k = some f.val → r.val ≠ 2 →
      exec (wordWrite f (fnOffset f (0x1E000 + 0x20 * k + 4 * r)) v) s
        = exec (wordWrite 0 (0x02001000 + 0x20 * k + 4 * r) v) s) ∧
    ∀ (f : Fn) (q : Qid) (c : CoreId) (n : Fin 64) (k : Fin 16) (b : Bool) (v x : W32) (s : State),
      exec (wordWrite f (fnOffset f (0x1000 + 8 * q)) v) s = exec (.doorbell f q (some v) none) s ∧
      exec (wordWrite f (fnOffset f (0x1004 + 8 * q)) v) s = exec (.doorbell f q none (some v)) s ∧
      exec (.registerWrite f (fnOffset f (0x1000 + 8 * q)) (leBytes 4 v.toNat ++ leBytes 4 x.toNat)) s
        = exec (.doorbell f q (some v) (some x)) s ∧
      exec (wordWrite f (fnOffset f (0x10014 + 0x80 * q)) v) s
        = exec (if v.getLsbD 0 then .queueEnable f q v else .queueDisable f q v) s ∧
      exec (wordWrite f (fnOffset f (0x10028 + 0x80 * q)) v) s = exec (.abort f q v) s ∧
      (v.getLsbD 0 = true → exec (wordWrite f (fnOffset f 0x2000C) v) s = exec (.fltPop f) s ∧
        exec (wordWrite 0 0x20200 v) s = exec .govSnapRequest s ∧ exec (wordWrite 0 0x800010 v) s = exec .rasLogRequest s) ∧
      exec (wordWrite 0 (0x200000 + 0x100 * f + if b then 4 else 0) v) s = exec (.mmuRootWrite f b v) s ∧
      exec (wordWrite 0 (0x200010 + 0x100 * f) v) s = exec (.mmuInvalidate f v) s ∧
      exec (wordWrite 0 (0x208000 + 0x80 * f + 8 * k + if b then 4 else 0) v) s = exec (.allotWrite f k b v) s ∧
      exec (wordWrite 0 (0x400200 + 16 * k + if b then 4 else 0) v) s = exec (.bwCfgWrite k b v) s ∧
      exec (wordWrite 0 (0x500004 + 0x10000 * k) v) s
        = exec (if v.getLsbD 0 then .portFence k else .portUnfence ⟨k, false⟩) s ∧
      exec (wordWrite 0 0x400000 v) s = exec (.synSelCapture v) s ∧
      exec (wordWrite 0 0x40080C v) s = exec (.synDumpStart v) s ∧
      exec (wordWrite 0 0x508004 v) s = exec (.routeSelect v) s ∧
      exec (wordWrite 0 (0x2000800 + 4 * n) v) s = exec (.embSlotOwnerWrite n v) s ∧
      exec (wordWrite 0 (0x604008 + 16 * n) v) s = exec (.monCntHiWrite n v) s ∧
      exec (wordWrite 0 (0x604004 + 16 * n) v) s = exec (.monCntLoWrite n v) s ∧
      exec (wordWrite 0 0x700000 v) s = exec (if v.getLsbD 0 then .traceEnable v else .traceDisable v) s ∧
      exec (wordWrite 0 (coreA c 0x220) v) s = exec (.u63HiWrite c v) s ∧
      exec (wordWrite 0 (coreA c 0x21C) v) s = exec (.u63LoWrite c v) s ∧
      exec (wordWrite 0 (coreA c 0x600) v) s = exec (.l1EnableWrite c v) s :=
  ⟨fun _ _ _ _ _ => wordWrite_plainRegister, fun _ _ _ _ => exec_wordWrite_nowhere,
    fun _ _ _ s hb hend h => exec_registerWrite_partial hb hend h s,
    fun _ _ _ s hf h hend hal => exec_wordWrite_nowhere hal hend (writeAddr_virtual_outside hf h s),
    fun _ _ _ s h => exec_registerWrite_pastEnd h s, fun _ k v s hf => exec_mmu_twoAddresses hf k v s,
    fun _ _ _ v _ hown hr => exec_sketch_twoAddresses hown hr v, fun f q c n k b v x s =>
    ⟨exec_write_doorbellTail f q v s, exec_write_doorbellHead f q v s, exec_write_doorbell f q v x s,
      exec_write_queueCtrl f q v s, exec_write_queueAbort f q v s,
      fun hv => ⟨exec_write_fltPop f hv s, exec_write_govSnap hv s, exec_write_rasLog hv s⟩,
      exec_write_mmuRoot f b v s, exec_write_mmuInvalidate f v s, exec_write_allot f k b v s, exec_write_bwCfg k b v s,
      exec_write_portFence k v s, exec_write_synSel v s, exec_write_synDump v s, exec_write_routeSel v s,
      exec_write_embOwner n v s, exec_write_monHi n v s, exec_write_monLo n v s, exec_write_traceCtrl v s,
      exec_write_u63Hi c v s, exec_write_u63Lo c v s, exec_write_l1Enable c v s⟩⟩

end Sys2Proof.Machine

namespace Sys2Proof.Machine

/-! # What the operations of the engines leave alone

Chip time, start-up's state, the sideband, the flash, the free-value counter and the command queue belong to few rows.
The rest of the model keeps them: one rule per operation, in the order of the definitions. -/

/-- The parts of the state that only the rows of power, start-up, sideband, flash and chip time change; every other part
empty. -/
def State.frame (s : State) : State :=
  { time := s.time, boot := s.boot, sb := s.sb, flash := s.flash, freeIdx := s.freeIdx, pending := s.pending }

theorem time_of_frame {s t : State} (h : t.frame = s.frame) : t.time = s.time := (congrArg State.time h :)
theorem boot_of_frame {s t : State} (h : t.frame = s.frame) : t.boot = s.boot := (congrArg State.boot h :)

/-- What every turn keeps, a fold keeps. -/
theorem foldl_keeps {α β γ : Type} (g : α → γ) (l : List β) (a : α) (f : α → β → α) (h : ∀ x b, g (f x b) = g x) :
    g (l.foldl f a) = g a := by
  induction l generalizing a with
  | nil => rfl
  | cons b r ih => exact (ih _).trans (h a b)

section
variable (s : State)

theorem State.frame_update (regs mem poison gov plt cores syn hq sch lnk ras mon trc sketch) :
    ({ s with regs := regs, mem := mem, poison := poison, gov := gov, plt := plt, cores := cores, syn := syn, hq := hq,
              sch := sch, lnk := lnk, ras := ras, mon := mon, trc := trc, sketch := sketch } : State).frame = s.frame := rfl

/-! ## Shared operations -/

theorem wr_frame (a v) : (wr s a v).frame = s.frame := rfl
theorem wrF_frame (a lo len v) : (wrF s a lo len v).frame = s.frame := rfl
theorem incF_frame (a lo len n) : (incF s a lo len n).frame = s.frame := rfl
theorem inc16_frame (a) : (inc16 s a).frame = s.frame := rfl
theorem inc32_frame (a n) : (inc32 s a n).frame = s.frame := rfl
theorem State.setCore_frame (c x) : (s.setCore c x).frame = s.frame := rfl
theorem State.setEng_frame (c e y) : (s.setEng c e y).frame = s.frame := rfl
theorem State.setTe_frame (c t) : (s.setTe c t).frame = s.frame := rfl
theorem State.setPun_frame (c p x) : (s.setPun c p x).frame = s.frame := rfl
theorem State.setQueue_frame (f q x) : (s.setQueue f q x).frame = s.frame := rfl
theorem State.setCtx_frame (x c) : (s.setCtx x c).frame = s.frame := rfl
theorem State.setPort_frame (g p) : (s.setPort g p).frame = s.frame := rfl
theorem State.setFnS_frame (f x) : (s.setFnS f x).frame = s.frame := rfl
theorem State.setPartS_frame (p x) : (s.setPartS p x).frame = s.frame := rfl
theorem State.setAcct_frame (p x) : (s.setAcct p x).frame = s.frame := rfl
theorem State.setConj_frame (x c v) : (s.setConj x c v).frame = s.frame := rfl
theorem memWrite_frame (a bs) : (memWrite s a bs).frame = s.frame := rfl
theorem poisonRange_frame (a n) : (poisonRange s a n).frame = s.frame := rfl

theorem msix_frame (f v) : (msix s f v).frame = s.frame := by
  unfold msix
  grind [wrF_frame, State.frame]

theorem rasCount_frame (code) : (rasCount s code).frame = s.frame := by
  unfold rasCount
  grind [wrF_frame, inc16_frame]

theorem chipEntry_frame (code sub block inst detail) : (chipEntry s code sub block inst detail).frame = s.frame := by
  unfold chipEntry
  grind [State.frame]

theorem chipErr_frame (code sub block inst detail) : (chipErr s code sub block inst detail).frame = s.frame := by
  unfold chipErr
  grind [chipEntry_frame, rasCount_frame]

theorem State.setFlt_frame (f l) : (s.setFlt f l).frame = s.frame := rfl

theorem fnNew_frame (f r) : (fnNew s f r).frame = s.frame := by
  unfold fnNew
  grind [inc16_frame, State.setFlt_frame, msix_frame]

theorem fnCoal_frame (f r) : (fnCoal s f r).frame = s.frame := by
  unfold fnCoal
  grind [State.setFlt_frame, fnNew_frame]

theorem engineFault_frame (f r) : (engineFault s f r).frame = s.frame := by
  unfold engineFault
  grind [inc16_frame, fnNew_frame]

theorem raiseLoss_frame (b) : (raiseLoss s b).frame = s.frame := by
  unfold raiseLoss
  grind [chipErr_frame, inc16_frame, wrF_frame]

theorem activate_frame (l) : (activate s l).frame = s.frame := rfl

theorem monEvent_frame (ev inst n) : (monEvent s ev inst n).frame = s.frame := by
  unfold monEvent
  split
  · rfl
  · exact upTo_keeps State.frame _ _ _ (fun t k => by grind [State.frame])

theorem monSample_frame (level src inst v) : (monSample s level src inst v).frame = s.frame := by
  unfold monSample
  split
  · rfl
  · exact upTo_keeps State.frame _ _ _ (fun t k => by grind [State.frame])

theorem trcPush_frame (c r) : (trcPush s c r).frame = s.frame := by
  unfold trcPush
  grind [monEvent_frame, State.frame]

theorem freezeFrom_frame (src) : (freezeFrom s src).frame = s.frame := by
  unfold freezeFrom
  grind [State.frame]

theorem noteBegin_frame (r) : (noteBegin s r).frame = s.frame := by
  unfold noteBegin
  grind [State.setQueue_frame, freezeFrom_frame]

theorem trcEng_frame (kind c e ctx r tag outcome) : (trcEng s kind c e ctx r tag outcome).frame = s.frame := by
  unfold trcEng
  grind [trcPush_frame, noteBegin_frame]

/-! ## Slices, grants and clocks -/

theorem trackInlet_frame : (trackInlet s).frame = s.frame := by
  unfold trackInlet
  grind [State.frame]

theorem tickCore_frame (n c) : (tickCore n s c).frame = s.frame := by
  unfold tickCore
  grind [State.setCore_frame, State.setFnS_frame, monEvent_frame]

theorem advance_frame (n : Nat) :
    (advance s n).frame = { s.frame with time := (s.time + 10 * n) % 2 ^ 64 } := by
  have h : (upTo 32 s (tickCore n)).frame = s.frame := upTo_keeps State.frame _ _ _ fun _ _ => tickCore_frame ..
  unfold advance
  grind [State.frame]

theorem setTracker_frame (t k) : (setTracker s t k).frame = s.frame := rfl

theorem reloadTrackers_frame (p ok) : (reloadTrackers s p ok).frame = s.frame :=
  foldl_keeps State.frame _ _ _ (fun t k => by grind [setTracker_frame])

theorem switchTrackers_frame (p f) : (switchTrackers s p f).frame = s.frame := by
  unfold switchTrackers
  rw [reloadTrackers_frame, upTo_keeps State.frame _ _ _ fun t k => by grind [setTracker_frame]]

theorem preemptFn_frame (p f) : (preemptFn s p f).frame = s.frame :=
  foldl_keeps State.frame _ _ _ (fun t k => by grind [State.setCore_frame])

theorem closeWindows_frame (p f) : (closeWindows s p f).frame = s.frame :=
  foldl_keeps State.frame _ _ _ (fun t k => by grind [State.setCore_frame])

theorem endSlice_frame (p) : (endSlice s p).frame = s.frame := by
  unfold endSlice
  grind [closeWindows_frame]

theorem grantTo_frame (p f) : (grantTo s p f).frame = s.frame := by
  have h (y : FnSched) : (endSlice (s.setFnS f y) p).frame = s.frame := endSlice_frame ..
  unfold grantTo
  grind [State.setPartS_frame, preemptFn_frame, switchTrackers_frame]

theorem grantBest_frame (p) : (grantBest s p).frame = s.frame := by
  unfold grantBest
  grind [grantTo_frame, State.setPartS_frame, endSlice_frame]

theorem takeOver_frame (p f) : (takeOver s p f).frame = s.frame := by
  unfold takeOver
  grind [grantTo_frame, State.setPartS_frame]

theorem regrant_frame (p) : (regrant s p).frame = s.frame := by
  unfold regrant
  grind [takeOver_frame, grantBest_frame]

theorem refresh_frame (f) : (refresh s f).frame = s.frame := by
  unfold refresh
  grind [State.setFnS_frame, grantBest_frame, State.setPartS_frame, takeOver_frame]

/-! ## Start-up -/

theorem handshake_frame (conv vCode) : (handshake s conv vCode).frame = s.frame := by
  unfold handshake
  grind [activate_frame, raiseLoss_frame, State.frame]

theorem armPorts_frame : (armPorts s).frame = s.frame := by
  unfold armPorts
  split
  · rfl
  · exact upTo_keeps State.frame _ _ _ (fun t k => by grind [State.setPort_frame])

theorem limpEntry_frame : (limpEntry s).frame = (applyCharter s limpCharter).frame := by
  unfold limpEntry
  rw [upTo_keeps State.frame _ _ _ fun _ _ => State.setFnS_frame ..,
    upTo_keeps State.frame _ _ _ fun _ _ => State.setPartS_frame ..]
  rfl

/-! ## Memory and translation -/

theorem eccCorrect_frame (g) : (eccCorrect s g).frame = s.frame := by
  unfold eccCorrect
  grind [chipErr_frame, inc16_frame]

theorem eccLose_frame (g) : (eccLose s g).frame = s.frame := by
  unfold eccLose
  grind [poisonRange_frame, chipErr_frame, inc16_frame]

theorem eccApply_frame (g r) : (eccApply s g r).frame = s.frame := by
  unfold eccApply
  grind [eccCorrect_frame, eccLose_frame]

theorem checkGranule_frame (g) : (checkGranule s g).frame = s.frame := by
  unfold checkGranule
  grind [eccApply_frame]

theorem checkRead_frame (a n) : (checkRead s a n).frame = s.frame :=
  foldl_keeps State.frame _ _ _ (fun t k => by grind [checkGranule_frame])

theorem memEvents_frame (a n w) : (memEvents s a n w).frame = s.frame := by
  unfold memEvents
  split
  · rfl
  · exact upTo_keeps State.frame _ _ _ (fun t k => by grind [monEvent_frame])

theorem readSamples_frame (a n) : (readSamples s a n).frame = s.frame := by
  unfold readSamples
  split
  · rfl
  · exact upTo_keeps State.frame _ _ _ (fun t k => by grind [monSample_frame])

theorem readPa_frame (a n) : (readPa s a n).1.frame = s.frame := by
  unfold readPa
  grind [readSamples_frame, memEvents_frame, checkRead_frame]

theorem writePa_frame (a bs) : (writePa s a bs).frame = s.frame := by
  have h := foldl_keeps State.frame
    ((granulesOf a bs.length).filter (fun g => !(a ≤ g && g + granLen g ≤ a + bs.length))) s checkGranule checkGranule_frame
  exact (memEvents_frame ..).trans ((memWrite_frame ..).trans h)

theorem setTlb_frame (tl l) : (setTlb s tl l).frame = s.frame := by
  unfold setTlb
  grind [State.setCore_frame, State.frame]

theorem tlbAdd_frame (tl e) : (tlbAdd s tl e).frame = s.frame := by
  unfold tlbAdd
  grind [setTlb_frame]

theorem readEntry_frame (tl f pa) : (readEntry s tl f pa).1.frame = s.frame := by
  unfold readEntry
  grind [readPa_frame]

theorem walk_frame (tl f va fuel tab level : Nat) : (walk s tl f va fuel tab level).1.frame = s.frame := by
  induction fuel generalizing s tab level with
  | zero => rfl
  | succ n ih =>
    unfold walk
    grind [readEntry_frame, tlbAdd_frame]

theorem translate_frame (tl f x va n acc) : (translate s tl f x va n acc).1.frame = s.frame := by
  unfold translate
  extract_lets lo hi held use r
  have hr : r.1.frame = s.frame := by
    clear_value use
    grind [walk_frame, monEvent_frame]
  clear_value r use
  grind [tlbAdd_frame]

theorem xlat_frame (tl f x va n acc) : (xlat s tl f x va n acc).1.frame = s.frame :=
  foldl_keeps (fun r : State × (List (Nat × Nat) ⊕ XF) => r.1.frame) _ _ _ fun r p => by grind [translate_frame]

theorem readPieces_frame (l) : (readPieces s l).1.frame = s.frame :=
  foldl_keeps (fun r : State × Option (List Byte) => r.1.frame) _ _ _ fun r p => by grind [readPa_frame]

theorem readVa_frame (tl f x va n acc) : (readVa s tl f x va n acc).1.frame = s.frame := by
  unfold readVa
  grind [xlat_frame, readPieces_frame]

theorem writePieces_frame (l : List (Nat × Nat)) (bs : List Byte) : (writePieces s l bs).frame = s.frame := by
  induction l generalizing s bs with
  | nil => rfl
  | cons p r ih => exact (ih ..).trans (writePa_frame ..)

theorem writeVa_frame (tl f x va bs) : (writeVa s tl f x va bs).1.frame = s.frame :=
  foldl_keeps (fun r : State × Option XF => r.1.frame) _ _ _ fun r p => by grind [translate_frame, writePa_frame]

theorem canWrite_frame (tl f x va n) : (canWrite s tl f x va n).1.frame = s.frame := by
  unfold canWrite
  grind [xlat_frame]

theorem State.setSk_frame (k x) : (s.setSk k x).frame = s.frame := rfl

/-! ## Synchronisation and contexts -/

theorem modCmd_frame (r g) : (modCmd s r g).frame = s.frame := rfl

theorem l1Acquire_frame (c) : (l1Acquire s c).frame = s.frame := by
  unfold l1Acquire
  grind [State.setTe_frame]

theorem releaseOne_frame (w) : (releaseOne s w).frame = s.frame := by
  unfold releaseOne
  grind [monSample_frame, l1Acquire_frame, State.setPun_frame, State.setEng_frame]

theorem releaseAll_frame (sat short) : (releaseAll s sat short).frame = s.frame :=
  foldl_keeps State.frame _ _ _ (fun t k => by grind [modCmd_frame, releaseOne_frame])

theorem afterUpdate_frame (x n) : (afterUpdate s x n).frame = s.frame := by
  unfold afterUpdate
  grind [releaseAll_frame, State.setConj_frame]

theorem freezeConj_frame (x n) : (freezeConj s x n).frame = s.frame := by
  unfold freezeConj
  grind [freezeFrom_frame]

theorem applyConj_frame (g) : (applyConj s g).frame = s.frame := by
  unfold applyConj
  grind [State.setConj_frame, inc16_frame, freezeConj_frame, afterUpdate_frame]

theorem State.setSlot_frame (k v) : (s.setSlot k v).frame = s.frame := rfl
theorem sendSignal_frame (g) : (sendSignal s g).frame = s.frame := rfl
theorem State.setGroup_frame (x g v) : (s.setGroup x g v).frame = s.frame := rfl

theorem loadSync_frame (x b) : (loadSync s x b).frame = s.frame :=
  (upTo_keeps State.frame _ _ _ fun _ _ => State.setGroup_frame ..).trans
    (upTo_keeps State.frame _ _ _ fun _ _ => State.setConj_frame ..)

theorem clearSync_frame (x) : (clearSync s x).frame = s.frame := rfl

theorem zeroLog_frame (x) : (zeroLog s x).frame = s.frame := by
  unfold zeroLog
  grind [writeVa_frame]

theorem ctxDomainReset_frame (x log) : (ctxDomainReset s x log).frame = s.frame := by
  unfold ctxDomainReset
  grind [clearSync_frame, zeroLog_frame, State.setCtx_frame]

theorem saveRead_frame (x off n) : (saveRead s x off n).1.frame = s.frame := by
  unfold saveRead
  grind [readVa_frame]

theorem zeroWindow_frame (x) : (zeroWindow s x).frame = s.frame := rfl

theorem loadWindows_frame (x) : (loadWindows s x).1.frame = s.frame :=
  foldl_keeps (fun r : State × Option XF => r.1.frame) _ _ _ fun r c => by grind [saveRead_frame, memWrite_frame]

theorem dropSaved_frame (x) : (dropSaved s x).frame = s.frame :=
  upTo_keeps State.frame _ _ _ (fun t k => by grind [State.setCore_frame])

theorem cmdEnd_frame (r c) : (cmdEnd s r c).frame = s.frame := rfl
theorem cmdFault_frame (r cause eng) : (cmdFault s r cause eng).frame = s.frame := rfl

theorem loseSaved_frame (x code) : (loseSaved s x code).frame = s.frame :=
  (foldl_keeps State.frame _ _ _ fun t p => by grind [cmdEnd_frame, trcEng_frame, cmdFault_frame]).trans (dropSaved_frame ..)

theorem saveFail_frame (x e q) : (saveFail s x e q).frame = s.frame := by
  unfold saveFail
  rw [refresh_frame, State.setCtx_frame, loseSaved_frame, engineFault_frame]

theorem mergeLog_frame (x c) : (mergeLog s x c).frame = s.frame := by
  unfold mergeLog
  grind [xlat_frame, readPieces_frame, writePieces_frame, State.setConj_frame, freezeConj_frame, inc16_frame]

theorem beginRestore_frame (x) : (beginRestore s x).1.frame = s.frame := by
  unfold beginRestore
  grind [State.setSlot_frame]

theorem loadContext_frame (x) : (loadContext s x).1.frame = s.frame := by
  unfold loadContext
  extract_lets s1 r
  have hr : r.1.frame = s.frame := by grind [zeroWindow_frame, loadWindows_frame]
  clear_value r
  grind [saveRead_frame, loadSync_frame]

theorem nowResident_frame (k x) : (nowResident s k x).frame = s.frame :=
  foldl_keeps State.frame _ _ _ (fun t k => by grind [applyConj_frame, State.setSlot_frame])

theorem restoreContext_frame (x : Nat) (lost : Option XF) (t : State) (h : restoreContext s x lost = some t) :
    t.frame = s.frame := by
  unfold restoreContext at h
  split at h
  · exact absurd h (by simp)
  split at h
  · exact absurd h (by simp)
  next s0 slot hb =>
  have h0 : s0.frame = s.frame := (congrArg (·.1.frame) hb).symm.trans (beginRestore_frame s x)
  extract_lets z k1 s1 s2 k3 s3 s4 p at h
  have h1 : s1.frame = s0.frame := by grind [ctxDomainReset_frame, State.setCtx_frame]
  have h2 : s2.frame = s1.frame := by
    clear_value s1
    grind [loadContext_frame, saveFail_frame, zeroWindow_frame, State.setCtx_frame]
  have h4 : s4.frame = s3.frame :=
    (nowResident_frame ..).trans (upTo_keeps State.frame _ _ _ fun _ _ => mergeLog_frame ..)
  have h3 : s3.frame = s2.frame := State.setCtx_frame ..
  clear_value s4 s3 s2 s1
  grind [reloadTrackers_frame]

/-! ## Tensors -/

theorem readSp_frame (p a n) : (readSp s p a n).1.frame = s.frame := by
  unfold readSp
  grind [readPa_frame, readVa_frame]

theorem writeSp_frame (p a bs) : (writeSp s p a bs).1.frame = s.frame := by
  unfold writeSp
  grind [writePa_frame, writeVa_frame]

theorem readPat_frame (p fmt a i) : (readPat s p fmt a i).1.frame = s.frame := by
  unfold readPat
  grind [readSp_frame]

theorem readScale_frame (p n a i) : (readScale s p n a i).1.frame = s.frame := by
  unfold readScale
  grind [readSp_frame]

theorem readElem_frame (p n a i) : (readElem s p n a i).1.frame = s.frame := by
  unfold readElem
  grind [readPat_frame, readScale_frame]

theorem readLine_frame (p n a k) : (readLine s p n a k).1.frame = s.frame :=
  foldl_keeps (fun r : State × (List (Nat × Nat) ⊕ XF) => r.1.frame) _ _ _ fun r i => by grind [readElem_frame]

theorem writeElems_frame (p n a vs) : (writeElems s p n a vs).1.frame = s.frame := by
  unfold writeElems
  grind [readSp_frame, writeSp_frame]

theorem writeScales_frame (p n a scs) : (writeScales s p n a scs).1.frame = s.frame := by
  unfold writeScales
  grind [writeSp_frame]

theorem writeConv_frame (p n a vs) : (writeConv s p n a vs).1.frame = s.frame := by
  unfold writeConv
  grind [writeElems_frame, writeScales_frame]

/-! ## Host queues -/

theorem State.setQslot_frame (k x) : (s.setQslot k x).frame = s.frame := rfl
theorem touchSlot_frame (k) : (touchSlot s k).frame = s.frame := rfl

theorem giveSlot_frame (k f q) : (giveSlot s k f q).frame = s.frame := by
  unfold giveSlot
  grind [State.setQueue_frame, State.setQslot_frame, State.frame]

theorem offerSlot_frame (k) : (offerSlot s k).frame = s.frame := by
  unfold offerSlot
  grind [State.setQslot_frame, giveSlot_frame]

theorem freeSlot_frame (f q) : (freeSlot s f q).frame = s.frame := by
  unfold freeSlot
  grind [offerSlot_frame, State.setQueue_frame]

theorem settleQueue_frame (f q) : (settleQueue s f q).frame = s.frame := by
  unfold settleQueue
  grind [State.setQueue_frame, freeSlot_frame]

theorem qCtrlOp_frame (f q v) : (qCtrlOp s f q v).frame = s.frame := by
  unfold qCtrlOp
  grind [wrF_frame, State.setQueue_frame, refresh_frame, settleQueue_frame]

theorem enqueue_frame (f q n c) : (enqueue s f q n c).frame = s.frame := by
  unfold enqueue
  grind [State.setQueue_frame, touchSlot_frame, State.frame]

theorem settleQuit_frame (c v) : (settleQuit s c v).frame = s.frame := by
  unfold settleQuit
  extract_lets y sigs s1 rest x
  have h1 : s1.frame = s.frame := foldl_keeps State.frame _ _ _ fun t r => by grind [sendSignal_frame]
  grind [State.setCore_frame, cmdEnd_frame, trcEng_frame]

theorem settleQuits_frame (c) : (settleQuits s c).frame = s.frame :=
  foldl_keeps State.frame _ _ _ (fun t k => by grind [settleQuit_frame])

/-! ## Clause streams -/

theorem endOnFault_frame (c e code) : (endOnFault s c e code).frame = s.frame := rfl

theorem engFail_frame (c e x) : (engFail s c e x).frame = s.frame := by
  unfold engFail
  grind [endOnFault_frame, engineFault_frame]

theorem fetchSlots_frame (c e) : (fetchSlots s c e).1.frame = s.frame := by
  unfold fetchSlots
  grind [readVa_frame]

theorem noteIssue_frame (r) : (noteIssue s r).frame = s.frame := by
  unfold noteIssue
  grind [modCmd_frame, monSample_frame]

/-! ## Transfers -/

theorem foldX_frame {α β : Type} (f : State → β → α → State × (β ⊕ XF)) (l : List α) (s : State) (b : β)
    (h : ∀ t b a, (f t b a).1.frame = t.frame) : (foldX f l s b).1.frame = s.frame :=
  foldl_keeps (fun r : State × (β ⊕ XF) => r.1.frame) _ _ _ fun r a => by grind

theorem takeLine_frame (p n a k) : (takeLine s p n a k).1.frame = s.frame := by
  unfold takeLine
  grind [readLine_frame]

theorem putLines_frame (p : Sp) (n : Noun) (l) : (putLines s p n l).1.frame = s.frame := by
  induction l generalizing s with
  | nil => rfl
  | cons o r ih =>
    unfold putLines
    grind [writeElems_frame, writeScales_frame]

theorem putConv_frame (p : Sp) (n : Noun) (l) : (putConv s p n l).1.frame = s.frame := by
  induction l generalizing s with
  | nil => rfl
  | cons o r ih =>
    unfold putConv
    grind [writeConv_frame]

theorem readIndex_frame (p n pos) : (readIndex s p n pos).1.frame = s.frame := by
  unfold readIndex
  grind [readSp_frame]

theorem dropIndex_frame (f slot) : (dropIndex s f slot).frame = s.frame := by
  unfold dropIndex
  grind [rasCount_frame, inc16_frame, State.setSk_frame]

theorem copyBody_frame (o) : (copyBody o s).1.frame = s.frame := by
  unfold copyBody
  extract_lets
  split
  all_goals
    rename_i h
    have := (congrArg (·.1.frame) h).symm.trans (foldX_frame _ _ _ _ fun t l i => by grind [takeLine_frame])
    grind [putLines_frame]

theorem reshapeBody_frame (o) : (reshapeBody o s).1.frame = s.frame := by
  unfold reshapeBody
  extract_lets
  split
  all_goals
    rename_i h
    have := (congrArg (·.1.frame) h).symm.trans (foldX_frame _ _ _ _ fun t l i => by grind [takeLine_frame])
    grind [putLines_frame]

theorem convertBody_frame (o) : (convertBody o s).1.frame = s.frame := by
  unfold convertBody
  extract_lets
  split
  all_goals
    rename_i h
    have := (congrArg (·.1.frame) h).symm.trans (foldX_frame _ _ _ _ fun t l i => by grind [takeLine_frame])
    grind [putConv_frame]

theorem rowCopy_frame (o a b) : (rowCopy o s a b).1.frame = s.frame := by
  unfold rowCopy
  grind [takeLine_frame, putLines_frame]

theorem gatherBody_frame (f o) : (gatherBody f o s).1.frame = s.frame := by
  unfold gatherBody
  grind [readIndex_frame, dropIndex_frame, rowCopy_frame]

theorem scatterBody_frame (f o) : (scatterBody f o s).1.frame = s.frame := by
  unfold scatterBody
  grind [readIndex_frame, dropIndex_frame, rowCopy_frame]

theorem presWay_frame (p n x) : (presWay s p n x).1.frame = s.frame := by
  unfold presWay
  grind [readSp_frame]

theorem lookup_frame (f o) : (lookup f o s).1.frame = s.frame := by
  unfold lookup
  extract_lets n slot bump
  have hb (t : State) (g : Sketch → Sketch) : (bump t g).frame = t.frame := by grind [State.setSk_frame]
  clear_value bump
  grind [readIndex_frame, dropIndex_frame, presWay_frame, takeLine_frame]

theorem embedGatherBody_frame (f o) : (embedGatherBody f o s).1.frame = s.frame := by
  unfold embedGatherBody
  grind [lookup_frame, writeConv_frame]

theorem setPool_frame (c p gone) : (setPool s c p gone).frame = s.frame := rfl

theorem embedPoolBody_frame (f c r j o) : (embedPoolBody f c r j o s).1.frame = s.frame := by
  unfold embedPoolBody
  grind [lookup_frame, setPool_frame, writeConv_frame]

theorem jobBody_frame (c f r j o) : (jobBody c f r j o s).1.frame = s.frame := by
  unfold jobBody
  grind [copyBody_frame, reshapeBody_frame, convertBody_frame, gatherBody_frame, scatterBody_frame, embedPoolBody_frame,
    embedGatherBody_frame]

theorem xferFail_frame (c x e) : (xferFail s c x e).frame = s.frame := by
  unfold xferFail
  grind [State.setCore_frame, engFail_frame, engineFault_frame, cmdFault_frame, settleQuits_frame]

theorem actJob_frame (c x j) : (actJob s c x j).frame = s.frame := by
  unfold actJob
  grind [jobBody_frame, xferFail_frame, State.setCore_frame]

theorem actWaiting_frame (c : Nat) (r : CmdRef) (n : Nat) (s : State) : (actWaiting c r n s).frame = s.frame := by
  induction n generalizing s with
  | zero => rfl
  | succ n ih =>
    unfold actWaiting
    grind [actJob_frame]

/-! ## Links -/

theorem modPort_frame (g f) : (modPort s g f).frame = s.frame := rfl

theorem freeRecv_frame (o) : (freeRecv s o).frame = s.frame := by
  unfold freeRecv
  grind [modPort_frame]

theorem flitGone_frame (x) : (flitGone s x).frame = s.frame := by
  unfold flitGone
  grind [State.setCore_frame]

theorem sendFlit_frame (g f) : (sendFlit s g f).frame = s.frame := by
  unfold sendFlit
  grind [freeRecv_frame, monEvent_frame, State.setPort_frame, monSample_frame]

theorem pumpN_frame (g n : Nat) (s : State) : (pumpN g n s).frame = s.frame := by
  induction n generalizing s with
  | zero => rfl
  | succ n ih =>
    unfold pumpN
    grind [sendFlit_frame, State.setPort_frame]

theorem pump_frame (g : Nat) : (pump s g).frame = s.frame := pumpN_frame g 257 s

theorem dropOnward_frame (g v o) : (dropOnward s g v o).frame = s.frame := by
  unfold dropOnward
  rw [pump_frame, foldl_keeps State.frame _ _ _ fun _ _ => freeRecv_frame ..]
  rfl

theorem dropRx_frame (x) : (dropRx s x).frame = s.frame := by
  unfold dropRx
  grind [modPort_frame]

theorem clearPort_frame (g) : (clearPort s g).frame = s.frame := by
  unfold clearPort
  rw [modPort_frame, foldl_keeps State.frame _ _ _ fun t e => by grind [dropOnward_frame],
    foldl_keeps State.frame _ _ _ fun _ _ => dropRx_frame ..,
    foldl_keeps State.frame _ _ _ fun t f => (freeRecv_frame ..).trans (flitGone_frame ..), incF_frame]

theorem goDown_frame (g) : (goDown s g).frame = s.frame := by
  unfold goDown
  grind [wrF_frame, inc16_frame, clearPort_frame, modPort_frame]

/-! ## Gleaning -/

theorem endPass_frame (c w) : (endPass s c w).frame = s.frame := rfl

theorem gleanFail_frame (c w x) : (gleanFail s c w x).frame = s.frame := by
  unfold gleanFail
  extract_lets s1 s2
  have h2 : s2.frame = s1.frame :=
    foldl_keeps State.frame _ _ _ fun t r => by grind [cmdEnd_frame, trcEng_frame, cmdFault_frame]
  rw [refresh_frame, endPass_frame, h2, engineFault_frame]

theorem takePass_frame (c w) : (takePass s c w).frame = s.frame := rfl

theorem beginPass_frame (c w) : (beginPass s c w).frame = s.frame := by
  unfold beginPass
  extract_lets s2 s3
  have h2 : s2.frame = s.frame :=
    (foldl_keeps State.frame _ _ _ fun t r => (trcEng_frame ..).trans (noteIssue_frame ..)).trans (takePass_frame ..)
  rw [monSample_frame, inc32_frame, inc32_frame, h2]

/-! ## Threads -/

theorem dropTeWaits_frame (c p) : (dropTeWaits s c p).frame = s.frame := rfl

theorem endTe_frame (c cause) : (endTe s c cause).frame = s.frame := by
  unfold endTe
  grind [cmdFault_frame, dropTeWaits_frame, State.setTe_frame]

theorem dropReqs_frame (c p) : (dropReqs s c p).frame = s.frame := rfl

theorem pushOk_frame (c g u) : (pushOk s c g u).1.frame = s.frame := by
  unfold pushOk
  grind [canWrite_frame]

theorem pushFrame_frame (c g u frame) : (pushFrame s c g u frame).1.frame = s.frame := by
  unfold pushFrame
  grind [pushOk_frame, writeVa_frame]

theorem trapOp_frame (c p t r) : (trapOp s c p t r).frame = s.frame := by
  unfold trapOp
  grind [pushFrame_frame, incF_frame, State.setPun_frame, engineFault_frame, inc16_frame, endTe_frame]

theorem stepSettle_frame (c p) : (stepSettle s c p).frame = s.frame := by
  unfold stepSettle
  grind [trapOp_frame]

/-! ## Thread memory -/

theorem setReq_frame (c r) : (setReq s c r).frame = s.frame := rfl

theorem landGroup_frame (c p ins) : (landGroup s c p ins).frame = s.frame := by
  unfold landGroup
  grind [State.setTe_frame, l1Acquire_frame]

theorem performAtoms_frame (op l) : (performAtoms s op l).1.frame = s.frame :=
  foldl_keeps (fun r : State × List (Nat × Nat) => r.1.frame) _ _ _ fun r p => by grind [memEvents_frame, writePa_frame]

theorem atomGroup_frame (c p ins) : (atomGroup s c p ins).frame = s.frame := by
  unfold atomGroup
  grind [performAtoms_frame, landGroup_frame, setReq_frame]

theorem poisonTrap_frame (c p) : (poisonTrap s c p).frame = s.frame := by
  unfold poisonTrap
  grind [trapOp_frame, dropReqs_frame]

theorem reqSettle_frame (c p ins) : (reqSettle s c p ins).frame = s.frame := by
  unfold reqSettle
  grind [atomGroup_frame, landGroup_frame, stepSettle_frame, poisonTrap_frame]

theorem reqSample_frame (c r) : (reqSample s c r).frame = s.frame := by
  unfold reqSample
  grind [monSample_frame]

/-! ## Failed host reads -/

theorem teHostFail_frame (c n f : Nat) (t : State) (h : teHostFail s c n = some (f, t)) :
    t.frame = s.frame := by
  unfold teHostFail at h
  grind [reqSettle_frame, setReq_frame, reqSample_frame]

theorem txHostFail_frame (c n f : Nat) (t : State) (h : txHostFail s c n = some (f, t)) :
    t.frame = s.frame := by
  unfold txHostFail at h
  split at h
  · exact absurd h (by simp)
  · cases h
    rw [actWaiting_frame, xferFail_frame, upTo_keeps State.frame _ _ _ fun _ _ => modPort_frame ..]

theorem fetchFail_frame (f q g : Nat) (t : State) (h : fetchFail s f q = some (g, t)) : t.frame = s.frame := by
  unfold fetchFail at h
  grind [refresh_frame, enqueue_frame]

theorem nounHostFail_frame (c : Nat) (e : CE) (f : Nat) (t : State) (h : nounHostFail s c e = some (f, t)) :
    t.frame = s.frame := by
  unfold nounHostFail at h
  grind [fetchSlots_frame, engFail_frame, Option.map_eq_some_iff]

theorem gleanHostFail_frame (c : Nat) (f : Nat) (t : State) (h : gleanHostFail s c = some (f, t)) :
    t.frame = s.frame := by
  unfold gleanHostFail at h
  grind [gleanFail_frame, beginPass_frame, Option.map_eq_some_iff]

theorem streamHostFail_frame (c : Nat) (e : Eng) (f : Nat) (t : State) (h : streamHostFail s c e = some (f, t)) :
    t.frame = s.frame := by
  unfold streamHostFail at h
  grind [saveFail_frame, Option.map_eq_some_iff]

theorem ctxHostFail_frame (x : Nat) (f : Nat) (t : State) (h : ctxHostFail s x = some (f, t)) :
    t.frame = s.frame := by
  unfold ctxHostFail at h
  grind [restoreContext_frame, Option.map_eq_some_iff]

theorem hostReadFail_frame (r : HostRead) (f : Nat) (t : State) (h : hostReadFail s r = some (f, t)) :
    t.frame = s.frame := by
  cases r with
  | te c n => exact teHostFail_frame s c n f t h
  | tx c n => exact txHostFail_frame s c n f t h
  | fetch g q => exact fetchFail_frame s g q f t h
  | noun c e => exact nounHostFail_frame s c e f t h
  | glean c => exact gleanHostFail_frame s c f t h
  | stream c e => exact streamHostFail_frame s c e f t h
  | ctx x => exact ctxHostFail_frame s x.toNat f t h

/-! ## Ledgers and governors -/

theorem chargeParts_frame (i incr) : (chargeParts s i incr).frame = s.frame :=
  upTo_keeps State.frame _ _ _ (fun t k => by grind [State.setAcct_frame])

theorem accountPart_frame (i p) : (accountPart s i p).frame = s.frame := by
  unfold accountPart
  grind [State.setFnS_frame]

theorem closeTick_frame (i c) : (closeTick i s c).frame = s.frame := rfl

theorem deficits_frame (p) : (deficits s p).frame = s.frame := by
  unfold deficits
  extract_lets c ten act w wa we lim s1
  have h1 : s1.frame = s.frame := foldl_keeps State.frame _ _ _ fun _ _ => State.setFnS_frame ..
  grind [State.setPartS_frame]

theorem levelSamples_frame : (levelSamples s).frame = s.frame := by
  unfold levelSamples
  split
  · rfl
  · rw [upTo_keeps State.frame _ _ _ fun t k => by grind [monSample_frame],
      upTo_keeps State.frame _ _ _ fun t k => by grind [monSample_frame], monSample_frame, monSample_frame]

theorem idleFlits_frame : (idleFlits s).frame = s.frame := by
  unfold idleFlits
  split
  · rfl
  · exact upTo_keeps State.frame _ _ _ (fun t k => by grind [monEvent_frame])

theorem tickBody_frame (i : TickIn) (s : State) :
    (tickBody i s).frame = { s.frame with time := (s.gov.tickNo + 1) * 1000 % 2 ^ 64 } := by
  unfold tickBody
  extract_lets g target s1 s2 eSum d exact neg exactN incr wu work fe fu feed adv g2 s3 full early g3 s4 s5 s6
  have h2 : s2.frame = { s.frame with time := target % 2 ^ 64 } :=
    (congrArg (fun r : State => { r with time := target % 2 ^ 64 }) (advance_frame ..) :)
  have h3 : s3.frame = s2.frame := (chargeParts_frame ..).trans (State.frame_update ..)
  have h5 : s5.frame = s3.frame :=
    (upTo_keeps State.frame _ _ _ fun t p => (deficits_frame ..).trans (accountPart_frame ..)).trans (State.frame_update ..)
  have h6 : s6.frame = s5.frame := upTo_keeps State.frame _ _ _ fun _ _ => closeTick_frame ..
  clear_value s6
  split
  extract_lets held set s7 s8 s9
  have h7 : s7.frame = s6.frame := State.frame_update ..
  have h8 : s8.frame = s7.frame := by
    clear_value s7
    grind [chipErr_frame, inc16_frame]
  have h9 : s9.frame = s8.frame := upTo_keeps State.frame _ _ _ fun _ _ => regrant_frame ..
  rw [trackInlet_frame, idleFlits_frame, levelSamples_frame, h9, h8, h7, h6, h5, h3, h2]

/-! ## Parity -/

theorem resetField_frame (a) : (resetField s a).frame = s.frame := by
  unfold resetField
  grind [qCtrlOp_frame, State.frame]

theorem parityRaise_frame (h) : (parityRaise s h).frame = s.frame := by
  unfold parityRaise
  grind [chipErr_frame, fnCoal_frame, inc16_frame]

theorem parityValue_frame (h) : (parityValue s h).frame = s.frame := by
  unfold parityValue
  grind [resetField_frame, wr_frame, State.frame]

end

end Sys2Proof.Machine

namespace Sys2Proof.Machine

/-! # What a row answers

All rows but those of `OwnsFrame` answer by `done`, or find their operands ill-formed. -/

/-- The rows whose answer is not `done`: they act on power, pins and start-up, on the sideband and the flash, on chip
time, or note something in start-up's state. -/
inductive OwnsFrame : Instr → Prop
  | pwrgoodRise (st) : OwnsFrame (.pwrgoodRise st)
  | pwrgoodFall : OwnsFrame .pwrgoodFall
  | perstAssert : OwnsFrame .perstAssert
  | perstDeassert (st) : OwnsFrame (.perstDeassert st)
  | fatalN (cause) : OwnsFrame (.fatalN cause)
  | lrefLoss : OwnsFrame .lrefLoss
  | strapComplete : OwnsFrame .strapComplete
  | sfdpDiscoveryDone (sf) : OwnsFrame (.sfdpDiscoveryDone sf)
  | copyReadDone (k) : OwnsFrame (.copyReadDone k)
  | signatureCheckDone : OwnsFrame .signatureCheckDone
  | charterLoadDone : OwnsFrame .charterLoadDone
  | charterLoadTimeout : OwnsFrame .charterLoadTimeout
  | sramClearDone : OwnsFrame .sramClearDone
  | hbmTrainingDone (trained) : OwnsFrame (.hbmTrainingDone trained)
  | pumpTachWindowExpiry : OwnsFrame .pumpTachWindowExpiry
  | plantArmDone (conv vCode) : OwnsFrame (.plantArmDone conv vCode)
  | configRetry : OwnsFrame .configRetry
  | flashAddr (pec addr) : OwnsFrame (.flashAddr pec addr)
  | flashWrite (pec bytes) : OwnsFrame (.flashWrite pec bytes)
  | flashRead (pec) : OwnsFrame (.flashRead pec)
  | flashErase4k (pec) : OwnsFrame (.flashErase4k pec)
  | flashErase64k (pec) : OwnsFrame (.flashErase64k pec)
  | flashStatus (pec) : OwnsFrame (.flashStatus pec)
  | flashUnlock (pec v) : OwnsFrame (.flashUnlock pec v)
  | chipReset (pec v) : OwnsFrame (.chipReset pec v)
  | deviceState (pec) : OwnsFrame (.deviceState pec)
  | sidebandUnknownCommand (code) : OwnsFrame (.sidebandUnknownCommand code)
  | flashOperationDone (ok) : OwnsFrame (.flashOperationDone ok)
  | resetTaken : OwnsFrame .resetTaken
  | governorTick (inp) : OwnsFrame (.governorTick inp)
  | parityScan (hits) : OwnsFrame (.parityScan hits)
  | parityRepair (addr) : OwnsFrame (.parityRepair addr)
  | hostReadError (r e) : OwnsFrame (.hostReadError r e)
  | i3cEnumerationDone (answered) : OwnsFrame (.i3cEnumerationDone answered)

/-- An answer that leaves to the state what `done` keeps: the row's effect, or the fault of operands that spell no command. -/
inductive Answers (s : State) : Out → Prop
  | done (t : State) : Answers s (Machine.done s t)
  | bad (mn : String) : Answers s (Machine.bad mn)

theorem slotRow_answers (s : State) (c e ty op act) : Answers s (slotRow c e ty op s act) := by
  simp only [slotRow]
  repeat' split
  all_goals constructor

theorem slotRowS_answers (s : State) (c e ty op act) : Answers s (slotRowS c e ty op s act) := by
  simp only [slotRowS]
  repeat' split
  all_goals constructor

theorem xferRow_answers (s : State) (c op) : Answers s (xferRow c op s) := by
  simp only [xferRow]
  repeat' split
  all_goals constructor

theorem loadRow_answers (s : State) (c op lat pos mk) : Answers s (loadRow c op lat s pos mk) := by
  simp only [loadRow]
  repeat' split
  all_goals constructor

theorem mmaRow_answers (s : State) (c op) : Answers s (mmaRow c op s) :=
  slotRowS_answers ..

theorem waitRow_answers (s : State) (c e op reg) : Answers s (waitRow c e op s reg) := by
  simp only [waitRow]
  repeat' split
  all_goals constructor

theorem aguRow_answers (s : State) (c e op v) : Answers s (aguRow c e op s v) :=
  slotRow_answers ..

theorem scalarRow_answers (s : State) (c e op lat v) : Answers s (scalarRow c e op lat s v) :=
  slotRow_answers ..

theorem teIssue_answers (s : State) (c p ops mn w act) : Answers s (teIssue c p ops mn w s act) := by
  simp only [teIssue]
  repeat' split
  all_goals constructor

theorem regRow_answers (s : State) (c p ops mn w f) : Answers s (regRow c p ops mn w s f) :=
  teIssue_answers ..

theorem intRow_answers (s : State) (c p ops mn w f g) : Answers s (intRow c p ops mn w s f g) :=
  regRow_answers ..

theorem fpRow_answers (s : State) (c p ops mn w f) : Answers s (fpRow c p ops mn w s f) :=
  regRow_answers ..

theorem onceRow_answers (s : State) (c p op mn w ready act) : Answers s (onceRow c p op mn w s ready act) :=
  teIssue_answers ..

theorem trapRow_answers (s : State) (c p op mn cause w) : Answers s (trapRow c p op mn cause w s) :=
  teIssue_answers ..

theorem onCtl_answers (s : State) (g w act) : Answers s (onCtl s g w act) := by
  simp only [onCtl]
  repeat' split
  all_goals constructor

/-- Every other row answers by `done`, or finds its operands ill-formed. -/
theorem exec_answers (i : Instr) (s : State) : OwnsFrame i ∨ Answers s (exec i s) := by
  cases i
  all_goals simp only [exec]
  case pwrgoodRise | pwrgoodFall | perstAssert | perstDeassert | fatalN | lrefLoss | strapComplete | sfdpDiscoveryDone
    | copyReadDone | signatureCheckDone | charterLoadDone | charterLoadTimeout | sramClearDone | hbmTrainingDone |
    pumpTachWindowExpiry | plantArmDone | configRetry | flashAddr | flashWrite | flashRead | flashErase4k |
    flashErase64k | flashStatus | flashUnlock | chipReset | deviceState | sidebandUnknownCommand | flashOperationDone
    | resetTaken | governorTick | parityScan | parityRepair | hostReadError | i3cEnumerationDone =>
    exact .inl (by constructor)
  case copy | reshape | convert | gather | scatter | embedPool | embedGather => exact .inr (xferRow_answers ..)
  case fenceControlFlit | chipFailed | ident => exact .inr (onCtl_answers ..)
  case ldA | ldB | ldRow => exact .inr (loadRow_answers ..)
  case mma | mmaAcc => exact .inr (mmaRow_answers ..)
  case shift | drain | drainZ | sig | bwArrive | gbArrive => exact .inr (slotRowS_answers ..)
  case zero | jmp | brz | brnz | loop | setlc | sts => exact .inr (slotRow_answers ..)
  case wait => exact .inr (waitRow_answers ..)
  case agLin | agNoun | agIdx | agStep0 | agStep1 | agAdd | agReset => exact .inr (aguRow_answers ..)
  case add | sub | and | or | xor | shl | shr | mul | movi | movhi | rdag | rdtime => exact .inr (scalarRow_answers ..)
  case iadd | isub | imul | imulhi | imin | imax | teAnd | teOr | teXor | teShl | teShr => exact .inr (intRow_answers ..)
  case imad | popc | clz | brev | sel | mov | teMovi | icmp | teMovhi | fcmp | pcomb | lpoll | xlane | v2u | rdsr |
    teNop => exact .inr (regRow_answers ..)
  case fadd | fsub | fmul | ffma | fmin | fmax | fdiv | fsqrt | frcp | frsq | fexp2 | flog2 | fsin | fcos | cvt =>
    exact .inr (fpRow_answers ..)
  case bra | call | brx | exit | barBlock | ld | st | atom | fence => exact .inr (teIssue_answers ..)
  case trap | brk => exact .inr (trapRow_answers ..)
  case cjSig | cjWait | cjRead | teBwArrive | teBwWait | teGbArrive | teGbWait => exact .inr (onceRow_answers ..)
  case bwWait | gbWait =>
    refine .inr ?_
    simp only [execBwWait, execGbWait]
    split
    · exact .done _
    · exact waitRow_answers ..
  case mmuRootWrite | allotWrite | mmuInvalidate | embDumpStart | embDumpDone | embSlotOwnerWrite | bwCfgWrite |
    contextRestore | synSelCapture | synDumpStart | synDumpDone | queueEnable | queueDisable | doorbell | abort |
    hazardResume | hazardKill | portFence | portUnfence | routeSelect | l1EnableWrite | l1InvalidateOp | l1CleanOp |
    l1CleanInvalidateOp | replay | punnetKill | u63HiWrite | u63LoWrite | preemptCopyDone | epochEnd | carryRollover |
    ledgerWrap | govSnapRequest | monClear | monCntHiWrite | monCntLoWrite | freezeNow | thaw | traceEnable |
    traceDisable | droopRelease | fltPop | rasLogRequest => exact .inr (.done _)
  all_goals
    refine .inr ?_
    simp only [execInvalidateDone, execPatrolScrub, execSignalArrival, execGbTrackerFreed, execContextSave,
      execCommandCommit, execCommandConsume, execRun, execNop, execCtxCreate, execPtmDialogue, execClauseFetch,
      execResultLand, execStopTimeout, execStreamEnd, execTransferComplete, execDataFlitReceive, execStubReceive,
      execIdleFlit, execLinkPut, execLinkGet, execPutArrival, execGetReqArrival, execGetRespArrival, execGetTimeout,
      execRetryTimeout, execCreditSync, execPortDown, execPortTrainingDone, execPartnerFailed, execFenceDrainEnd,
      execLaneDegradeCheck, execGlean, execGleanWindowClose, execGleanPassStart, execGleanRequestDone,
      execStopPointReached, execLds, execClauseIssue, execMemoryRequestComplete, execL1Fill, execL1MaintDone,
      execTeLaunch, execBlockLaunch, execBlockEnd, execSliceExpiry, execHandoverComplete, execBufferWriteOutDone,
      execStreamRestore, execCtxDestroy, execCtxReset, execFlrVf, execFlrSteward, execVfEnableClear,
      execGovernorStart, execTelemetryWindowEnd, execComparatorDivergence, execLatentDivergence, execResyncHalfFrame,
      execResyncCopyDone, execResyncComplete, execHeartbeatInject, execHeartbeatFlagged, execHeartbeatDeadline,
      execGovSnapCapture, execFreezeTrigger, execTraceWrite, execTraceSync, execClampRelease, execClampKStep,
      execReservoirLoop, execReconcileDue, execReconcileSkip, execReservoirAdcSample, execPumpLoop, execValveLoop,
      execVoltageLoop, execSensorPoll, execInletOver, execInletOverClear, execFlowGate, execDroopStretch,
      execJunctionRead, execJunctionCeilingStep, execSensorLost, execLossResponseEnd, execTrvUpset, execRasIrqSend,
      execRegisterWrite]
    repeat' split
    all_goals constructor

end Sys2Proof.Machine

namespace Sys2Proof.Machine

/-! # Power, pins and start-up

Of the rows of `OwnsFrame`, most keep chip time and what `Boot.power` shows (`Quiet`); the others are taken one by one. -/

/-- What the power and pin state speaks of in start-up's state; every other field at its reset value. -/
def Boot.power (b : Boot) : Boot :=
  { dev := b.dev, pwrgood := b.pwrgood, perst := b.perst, fatal := b.fatal, cause := b.cause, link := b.link,
    pumpPin := b.pumpPin, valvePin := b.valvePin, resetReq := b.resetReq }

theorem PowerInv.flash_wf {s : State} (h : PowerInv s) : flashWf s.flash = true :=
  have ⟨_, _, _, _, _, hf, _⟩ := h
  hf
theorem PowerInv.time_lt {s : State} (h : PowerInv s) : s.time < 2 ^ 64 :=
  have ⟨_, _, _, _, _, _, ht⟩ := h
  ht

theorem powerInv_congr {s t : State} (hb : t.boot.power = s.boot.power) (hf : flashWf t.flash = true) (ht : t.time < 2 ^ 64)
    (h : PowerInv s) : PowerInv t := by
  simp only [Boot.power, Boot.mk.injEq] at hb
  unfold PowerInv at h ⊢
  grind

/-- An answer that keeps chip time and what `Boot.power` shows, or the fault of operands that spell no command. -/
inductive Quiet (s : State) : Out → Prop
  | next (t : State) (ht : t.time = s.time) (hb : t.boot.power = s.boot.power) : Quiet s (doneBoot s t)
  | bad (mn : String) : Quiet s (Machine.bad mn)

theorem Answers.quiet {s : State} {o : Out} (h : Answers s o) : Quiet s o := by
  cases h with
  | done t => exact .next { t with time := s.time, boot := s.boot, sb := s.sb } rfl rfl
  | bad mn => exact .bad mn

/-- An answer whose state keeps the frame but for start-up's state. -/
theorem Quiet.of_frame {s t : State} {b : Boot} (h : t.frame = { s.frame with boot := b }) (hb : b.power = s.boot.power) :
    Quiet s (doneBoot s t) :=
  .next t (congrArg State.time h :) (by rw [show t.boot = b from congrArg State.boot h, hb])

theorem Quiet.self (s : State) : Quiet s (doneBoot s s) := .next s rfl rfl

theorem lrefLoss_quiet (s : State) : Quiet s (execLrefLoss s) := by
  unfold execLrefLoss
  extract_lets t
  have h : t.frame = s.frame := upTo_keeps State.frame _ _ _ fun t k => by grind [goDown_frame]
  clear_value t
  exact .next _ (time_of_frame h :) (congrArg Boot.power (boot_of_frame h) :)

theorem copyReadDone_quiet (k : Slot) (s : State) : Quiet s (execCopyReadDone k s) := by
  unfold execCopyReadDone
  split
  · exact .self s
  · exact .next _ rfl (by cases k <;> rfl)

theorem signatureCheckDone_quiet (s : State) : Quiet s (execSignatureCheckDone s) := by
  unfold execSignatureCheckDone
  split
  · exact .self s
  · exact .next _ rfl rfl

theorem sramClearDone_quiet (s : State) : Quiet s (execSramClearDone s) := by
  unfold execSramClearDone
  split
  · exact .self s
  · exact .next _ rfl rfl

theorem activate_raiseLoss_frame (s : State) (b : Nat) (l : Loss) : (activate (raiseLoss s b) l).frame = s.frame := by
  rw [activate_frame, raiseLoss_frame]

theorem pumpTachWindowExpiry_quiet (s : State) : Quiet s (execPumpTachWindowExpiry s) := by
  unfold execPumpTachWindowExpiry
  split
  · exact .self s
  · exact .of_frame (activate_raiseLoss_frame ..) rfl

theorem i3cEnumerationDone_quiet (l : List Bool) (s : State) : Quiet s (execI3cEnumerationDone l s) := by
  simp only [execI3cEnumerationDone]
  split
  · exact .bad _
  split
  · exact .self s
  split
  · exact .next _ rfl rfl
  · exact .of_frame (activate_raiseLoss_frame ..) rfl

theorem configRetry_quiet (s : State) : Quiet s (execConfigRetry s) := .next _ rfl rfl

theorem hostReadError_quiet (r : HostRead) (e : HostErr) (s : State) : Quiet s (execHostReadError r e s) := by
  unfold execHostReadError
  split
  · exact .self s
  next f t h =>
    have hf := hostReadFail_frame s r f t h
    exact .next _ (time_of_frame hf :) (congrArg Boot.power (boot_of_frame hf) :)

theorem parityHit_keeps (s : State) (h : ParityHit) :
    (parityHit s h).time = s.time ∧ (parityHit s h).boot.power = s.boot.power := by
  have hv (x : ParityHit) : (parityValue (parityRaise s x) x).frame = s.frame :=
    (parityValue_frame ..).trans (parityRaise_frame ..)
  have hn (t : State) (x : ParityHit) : (noteShadow t x).time = t.time ∧ (noteShadow t x).boot.power = t.boot.power := by
    simp only [noteShadow]
    split
    · exact ⟨rfl, rfl⟩
    · exact ⟨rfl, rfl⟩
  simp only [parityHit]
  split
  · exact ⟨rfl, rfl⟩
  · exact ⟨(hn ..).1.trans (time_of_frame (hv _)), (hn ..).2.trans (congrArg Boot.power (boot_of_frame (hv _)))⟩

theorem parityScan_quiet (hits : List ParityHit) (s : State) : Quiet s (execParityScan hits s) := by
  unfold execParityScan
  split
  · exact .next _ (foldl_keeps State.time hits s parityHit fun t h => (parityHit_keeps t h).1)
      (foldl_keeps (·.boot.power) hits s parityHit fun t h => (parityHit_keeps t h).2)
  · exact .bad _

theorem parityRepair_quiet (addr : Nat) (s : State) : Quiet s (execParityRepair addr s) := by
  simp only [execParityRepair]
  split
  · exact .self s
  · refine .next _ ?_ ?_ <;> split <;> split <;> rfl

/-! ## The sideband bridge -/

theorem sbRun_quiet (pec : Bool) (s : State) (f : State → State) (ht : (f s).time = s.time)
    (hb : (f s).boot.power = s.boot.power) : Quiet s (sbRun pec s f) := by
  unfold sbRun
  split
  · exact .next _ rfl rfl
  split
  · exact .next _ rfl rfl
  · exact .next _ ht hb

theorem flashAddr_quiet (pec : Bool) (addr : W32) (s : State) : Quiet s (execFlashAddr pec addr s) := by
  refine sbRun_quiet _ _ _ ?_ ?_ <;> split <;> rfl

theorem flashWrite_quiet (pec : Bool) (bytes : List Byte) (s : State) : Quiet s (execFlashWrite pec bytes s) := by
  unfold execFlashWrite
  split
  · exact .bad _
  · refine sbRun_quiet _ _ _ ?_ ?_ <;> split <;> try split
    all_goals rfl

theorem flashRead_quiet (pec : Bool) (s : State) : Quiet s (execFlashRead pec s) := sbRun_quiet _ _ _ rfl rfl

theorem sbErase_keeps (sz : Nat) (s : State) : (sbErase sz s).time = s.time ∧ (sbErase sz s).boot = s.boot := by
  simp only [sbErase]
  repeat' split
  all_goals exact ⟨rfl, rfl⟩

theorem sbErase_quiet (pec : Bool) (sz : Nat) (s : State) : Quiet s (sbRun pec s (sbErase sz)) :=
  sbRun_quiet _ _ _ (sbErase_keeps sz s).1 (congrArg Boot.power (sbErase_keeps sz s).2)

theorem flashStatus_quiet (pec : Bool) (s : State) : Quiet s (execFlashStatus pec s) := by
  unfold execFlashStatus
  split <;> exact .next _ rfl rfl

theorem deviceState_quiet (pec : Bool) (s : State) : Quiet s (execDeviceState pec s) := by
  unfold execDeviceState
  split <;> exact .next _ rfl rfl

theorem flashUnlock_quiet (pec : Bool) (v : Byte) (s : State) : Quiet s (execFlashUnlock pec v s) := by
  have keeps (b : Bool) : ∀ u : State, u = (if b then sbAck { s with sb := { s.sb with unlocked := true } } false false []
      else sbAck s true false []) → u.time = s.time ∧ u.boot.power = s.boot.power := by
    rintro _ rfl
    split <;> exact ⟨rfl, rfl⟩
  refine sbRun_quiet _ _ _ ?_ ?_ <;> dsimp only <;> split
  · rfl
  · exact (keeps _ _ rfl).1
  · rfl
  · exact (keeps _ _ rfl).2

theorem sidebandUnknownCommand_quiet (code : Byte) (s : State) : Quiet s (execSidebandUnknownCommand code s) := by
  unfold execSidebandUnknownCommand
  split
  · exact .bad _
  · exact .next _ rfl rfl

end Sys2Proof.Machine

namespace Sys2Proof.Machine

/-! ## The rows that change power, pins, the device state, chip time or the flash -/

/-- The device states that the row `i` leads to (R44, R49, R377). -/
def DevMoves (i : Instr) (d d' : DevState) : Prop :=
  d' = d ∨ (i = .pwrgoodFall ∧ d' = .off) ∨
    ((i = .perstAssert ∨ i = .resetTaken ∨ (∃ st, i = .pwrgoodRise st) ∨ ∃ st, i = .perstDeassert st) ∧ d' = .strap) ∨
    (i = .strapComplete ∧ d = .strap ∧ d' = .charterLoad) ∨
    ((i = .charterLoadDone ∨ i = .charterLoadTimeout ∨ i = .sfdpDiscoveryDone none) ∧ d = .charterLoad ∧ d' = .selftest) ∨
    ((∃ m, i = .hbmTrainingDone m) ∧ d = .selftest ∧ d' = .plantArm) ∨
    ((∃ k v, i = .plantArmDone k v) ∧ d = .plantArm ∧ (d' = .ready ∨ d' = .limp))

/-- The share of the state on which the row `i` acts (R44, R49, R54, R59, R387). -/
def WithinShare (i : Instr) (s t : State) : Prop :=
  t.pending = s.pending ∧ t.freeIdx = s.freeIdx + 1 ∧
    (t.flash = s.flash ∨ i = .pwrgoodFall ∨ ∃ ok, i = .flashOperationDone ok) ∧
    (t.time = s.time ∨ (t.time = 0 ∧ (i = .pwrgoodFall ∨ i = .perstAssert ∨ i = .resetTaken)) ∨
      ∃ k, i = .governorTick k ∧ t.time = ((settle s).gov.tickNo + 1) * 1000 % 2 ^ 64) ∧
    DevMoves i s.boot.dev t.boot.dev

/-- The row `i` answers from `s` within its share, and keeps the power and pin state. -/
inductive Lawful (i : Instr) (s : State) : Out → Prop
  | next (t : State) (hs : WithinShare i s t) (hp : PowerInv s → PowerInv t) : Lawful i s (.next t)
  | bad (mn : String) : Lawful i s (Machine.bad mn)

/-- An answer by `doneBoot` that keeps chip time. -/
theorem Lawful.doneBoot {i : Instr} {s t : State} (ht : t.time = s.time) (hd : DevMoves i s.boot.dev t.boot.dev)
    (hp : PowerInv s → PowerInv { t with flash := s.flash }) : Lawful i s (doneBoot s t) :=
  .next _ ⟨rfl, rfl, .inl rfl, .inl ht, hd⟩ hp

theorem Quiet.lawful {i : Instr} {s : State} {o : Out} (h : Quiet s o) : Lawful i s o := by
  cases h with
  | next t ht hb =>
    have hdev : t.boot.dev = s.boot.dev := (congrArg Boot.dev hb :)
    exact .doneBoot ht (.inl hdev) fun h => powerInv_congr hb h.flash_wf (ht ▸ h.time_lt) h
  | bad mn => exact .bad mn

theorem pwrgoodRise_lawful (st : Straps) (s : State) : Lawful (.pwrgoodRise st) s (execPwrgoodRise st s) := by
  simp only [execPwrgoodRise]
  split
  · exact (Quiet.self s).lawful
  split
  · exact .doneBoot rfl (.inl rfl) (by grind [PowerInv])
  · exact .doneBoot rfl (by simp [DevMoves, beginStrap]) (by grind [PowerInv, beginStrap])

theorem perstAssert_lawful (s : State) : Lawful .perstAssert s (execPerstAssert s) := by
  simp only [execPerstAssert]
  split
  · exact .doneBoot rfl (.inl rfl) (by grind [PowerInv])
  · exact .next _ ⟨rfl, rfl, .inl rfl, .inr (.inl ⟨rfl, by simp⟩), by simp [DevMoves, chipReset]⟩
      (by grind [PowerInv, chipReset])

theorem perstDeassert_lawful (st : Straps) (s : State) : Lawful (.perstDeassert st) s (execPerstDeassert st s) := by
  simp only [execPerstDeassert]
  split
  · exact .doneBoot rfl (.inl rfl) (by grind [PowerInv])
  · exact .doneBoot rfl (by simp [DevMoves, beginStrap]) (by grind [PowerInv, beginStrap])

/-- PWRGOOD_FALL cuts a flash operation off: what it leaves of the flash is in canonical form. -/
theorem pwrgoodFall_lawful (s : State) : Lawful .pwrgoodFall s (execPwrgoodFall s) := by
  refine .next _ ⟨rfl, rfl, .inr (.inl rfl), .inr (.inl ⟨rfl, by simp⟩), by simp [DevMoves]⟩ fun h => ?_
  have hwf : flashWf (match s.sb.op with | some op => flashApply s.freeIdx false s.flash op | none => s.flash) = true := by
    split
    · exact flashApply_wf _ _ _ _ h.flash_wf
    · exact h.flash_wf
  exact ⟨by simp, by simp, by simp, by simp, by simp, hwf, by simp⟩

theorem fatalN_lawful (k : FatalCause) (s : State) : Lawful (.fatalN k) s (execFatalN k s) := by
  unfold execFatalN
  split
  · exact (Quiet.self s).lawful
  · exact .doneBoot rfl (.inl rfl) (by grind [PowerInv])

theorem strapComplete_lawful (s : State) : Lawful .strapComplete s (execStrapComplete s) := by
  unfold execStrapComplete
  split
  next h => exact .doneBoot rfl (by simp [DevMoves, h.1]) (by grind [PowerInv])
  · exact (Quiet.self s).lawful

/-- Start-up goes on from CHARTER_LOAD or SELFTEST to a later state before READY. -/
theorem powerInv_advance {s t : State} (hd : s.boot.dev = .charterLoad ∨ s.boot.dev = .selftest)
    (hd' : t.boot.dev = .selftest ∨ t.boot.dev = .plantArm) (hf : s.boot.fatal.isSome ≠ true) (ht : t.time = s.time)
    (hb : { t.boot with dev := s.boot.dev }.power = s.boot.power) (h : PowerInv s) : PowerInv { t with flash := s.flash } := by
  simp only [Boot.power, Boot.mk.injEq] at hb
  unfold PowerInv at h ⊢
  grind

theorem abandonLoad_lawful {i : Instr} {s : State} (hi : i = .charterLoadTimeout ∨ i = .sfdpDiscoveryDone none)
    (hd : s.boot.dev = .charterLoad) (hf : s.boot.fatal.isSome ≠ true) {t : State} (ht : t.time = s.time)
    (hb : t.boot.power = s.boot.power) : Lawful i s (doneBoot s (abandonLoad t)) :=
  .doneBoot ht (by rcases hi with rfl | rfl <;> simp [DevMoves, abandonLoad, hd])
    (powerInv_advance (.inl hd) (.inl rfl) hf ht (by
      simpa only [Boot.power, Boot.mk.injEq, abandonLoad, applyCharter, true_and] using ((Boot.mk.injEq ..).mp hb).2))

theorem sfdpDiscoveryDone_lawful (x : Option Sfdp) (s : State) :
    Lawful (.sfdpDiscoveryDone x) s (execSfdpDiscoveryDone x s) := by
  unfold execSfdpDiscoveryDone
  split
  · exact (Quiet.self s).lawful
  next h =>
    simp only [not_or, not_not] at h
    obtain ⟨hd, -, -, hf⟩ := h
    cases x with
    | none => exact abandonLoad_lawful (.inr rfl) hd hf rfl rfl
    | some x => exact (Quiet.next _ (by rfl) (by rfl)).lawful

theorem charterLoadTimeout_lawful (s : State) : Lawful .charterLoadTimeout s (execCharterLoadTimeout s) := by
  unfold execCharterLoadTimeout
  split
  · exact (Quiet.self s).lawful
  next h =>
    simp only [not_or, not_not] at h
    obtain ⟨hd, -, hf⟩ := h
    exact abandonLoad_lawful (.inl rfl) hd hf rfl rfl

theorem charterLoadDone_lawful (s : State) : Lawful .charterLoadDone s (execCharterLoadDone s) := by
  unfold execCharterLoadDone
  split
  · exact (Quiet.self s).lawful
  next h =>
    simp only [not_or, not_not] at h
    obtain ⟨hd, -, -, -, hf⟩ := h
    extract_lets a b sel ch u b' v
    have hv : (if sel.2 then chipErr v 0x43 0 0 0 0 else v).frame = v.frame := by
      split
      · exact chipErr_frame ..
      · rfl
    generalize (if sel.2 then chipErr v 0x43 0 0 0 0 else v) = t at hv
    have hboot := boot_of_frame hv
    exact .doneBoot (time_of_frame hv :) (by simp [DevMoves, hboot, hd, v])
      (powerInv_advance (.inl hd) (.inl (by rw [hboot])) hf (time_of_frame hv :) (by rw [hboot]; rfl))

theorem hbmTrainingDone_lawful (m : BitVec 8) (s : State) : Lawful (.hbmTrainingDone m) s (execHbmTrainingDone m s) := by
  unfold execHbmTrainingDone
  split
  · exact (Quiet.self s).lawful
  next h =>
    simp only [not_or, not_not] at h
    obtain ⟨hd, -, hf⟩ := h
    exact .doneBoot rfl (by simp [DevMoves, hd]) (powerInv_advance (.inr hd) (.inr rfl) hf rfl rfl)

theorem chipReset_lawful (pec : Bool) (v : Byte) (s : State) : Lawful (.chipReset pec v) s (execChipReset pec v s) := by
  unfold execChipReset sbRun
  split
  · exact (Quiet.next _ (by rfl) (by rfl)).lawful
  split
  · exact (Quiet.next _ (by rfl) (by rfl)).lawful
  split
  next h _ _ => exact .doneBoot rfl (.inl rfl) (by grind [PowerInv, sbAck, sbAnswers])
  · exact (Quiet.next _ (by rfl) (by rfl)).lawful

theorem resetTaken_lawful (s : State) : Lawful .resetTaken s (execResetTaken s) := by
  unfold execResetTaken
  split
  · exact .next _ ⟨rfl, rfl, .inl rfl, .inr (.inl ⟨rfl, by simp⟩), by simp [DevMoves, chipReset]⟩
      (by grind [PowerInv, chipReset])
  · exact (Quiet.self s).lawful

theorem flashOperationDone_lawful (ok : Bool) (s : State) :
    Lawful (.flashOperationDone ok) s (execFlashOperationDone ok s) := by
  unfold execFlashOperationDone
  split
  · exact .next _ ⟨rfl, rfl, .inl rfl, .inl rfl, .inl rfl⟩ fun h =>
      powerInv_congr (s := s) (by rfl) h.flash_wf h.time_lt h
  · exact .next _ ⟨rfl, rfl, .inr (.inr ⟨ok, rfl⟩), .inl rfl, .inl rfl⟩ fun h =>
      powerInv_congr (s := s) (by rfl) (flashApply_wf _ _ _ _ h.flash_wf) h.time_lt h

/-- An answer by `doneTime`: of power, pins, start-up and the flash nothing changes. -/
theorem Lawful.doneTime {i : Instr} {s t : State}
    (ht : t.time = s.time ∨ ∃ k, i = .governorTick k ∧ t.time = ((settle s).gov.tickNo + 1) * 1000 % 2 ^ 64) :
    Lawful i s (doneTime s t) := by
  refine .next _ ⟨rfl, rfl, .inl rfl, ht.imp_right .inr, .inl rfl⟩ fun h => powerInv_congr (s := s) (by rfl) h.flash_wf ?_ h
  rcases ht with ht | ⟨_, _, ht⟩
  · exact ht ▸ h.time_lt
  · exact ht ▸ Nat.mod_lt _ (by decide)

theorem tickBody_time (i : TickIn) (s : State) : (tickBody i s).time = (s.gov.tickNo + 1) * 1000 % 2 ^ 64 := by
  have h : (tickBody i s).frame = { s with time := (s.gov.tickNo + 1) * 1000 % 2 ^ 64 : State }.frame := tickBody_frame i s
  exact time_of_frame h

theorem governorTick_lawful (i : TickIn) (s : State) : Lawful (.governorTick i) s (execGovernorTick i s) := by
  unfold execGovernorTick
  split
  · exact .bad _
  split
  · exact .doneTime (.inl rfl)
  · exact .doneTime (.inr ⟨i, rfl, tickBody_time i (settle s)⟩)

theorem limpEntry_keeps (s : State) : (limpEntry s).time = s.time ∧ (limpEntry s).boot.power = s.boot.power := by
  have h := limpEntry_frame s
  have ht : (limpEntry s).time = (applyCharter s limpCharter).time := time_of_frame h
  have hb : (limpEntry s).boot = (applyCharter s limpCharter).boot := boot_of_frame h
  rw [ht, hb]
  exact ⟨rfl, rfl⟩

theorem handshake_keeps (s : State) (conv : Option ConvAnswer) (v : BitVec 12) :
    (handshake s conv v).time = s.time ∧ (handshake s conv v).boot = s.boot := by
  have h := handshake_frame s conv v
  exact ⟨time_of_frame h, boot_of_frame h⟩

/-- PLANT_ARM ends in READY or LIMP: what the handshake, LIMP's entry and the ports change leaves power and pins alone. -/
theorem plantArmDone_lawful (conv : Option ConvAnswer) (v : BitVec 12) (s : State) :
    Lawful (.plantArmDone conv v) s (execPlantArmDone conv v s) := by
  unfold execPlantArmDone
  split
  · exact (Quiet.self s).lawful
  next hg =>
    simp only [not_or, not_not] at hg
    obtain ⟨hd, -, -, -, hf⟩ := hg
    extract_lets t t₁ limp b pci t₂ hq t₃
    have ht : t.time = s.time ∧ t.boot = s.boot := handshake_keeps ..
    have ht₁ : t₁.time = s.time ∧ t₁.boot.power = s.boot.power := by
      simp only [t₁]
      clear_value t
      obtain ⟨htime, hboot⟩ := ht
      split
      · rw [(limpEntry_keeps t).1, (limpEntry_keeps t).2, htime, hboot]
        exact ⟨rfl, rfl⟩
      · rw [htime, hboot]
        exact ⟨rfl, rfl⟩
    clear_value t₁ limp
    have hend : (if limp then t₃ else wrF (armPorts t₃) 0x00508004 0 2 (lowestTable t₃.charter)).frame = t₃.frame := by
      split
      · rfl
      · exact (wrF_frame ..).trans (armPorts_frame t₃)
    generalize (if limp then t₃ else wrF (armPorts t₃) 0x00508004 0 2 (lowestTable t₃.charter)) = u at hend
    have hu : u.boot = t₂.boot := boot_of_frame hend
    have hdev : u.boot.dev = .ready ∨ u.boot.dev = .limp := by
      rw [hu]
      simp only [t₂]
      cases limp <;> simp
    refine .doneBoot ((time_of_frame hend).trans ht₁.1) (by simp [DevMoves, hd, hdev]) fun h => ?_
    have hb := ht₁.2
    have hu' : u.boot.pwrgood = t₁.boot.pwrgood ∧ u.boot.pumpPin = .pwm ∧ u.boot.valvePin = .pwm ∧
        u.boot.fatal = t₁.boot.fatal ∧ u.boot.perst = t₁.boot.perst ∧ u.boot.link = t₁.boot.link ∧
        u.boot.cause = t₁.boot.cause := by
      rw [hu]
      exact ⟨rfl, rfl, rfl, rfl, rfl, rfl, rfl⟩
    have htime : u.time = s.time := (time_of_frame hend).trans ht₁.1
    simp only [Boot.power, Boot.mk.injEq] at hb
    unfold PowerInv at h ⊢
    grind

/-- Every row answers lawfully. -/
theorem exec_lawful (i : Instr) (s : State) : Lawful i s (exec i s) := by
  rcases exec_answers i s with h | h
  · cases h with
    | pwrgoodRise st => exact pwrgoodRise_lawful ..
    | pwrgoodFall => exact pwrgoodFall_lawful ..
    | perstAssert => exact perstAssert_lawful ..
    | perstDeassert st => exact perstDeassert_lawful ..
    | fatalN k => exact fatalN_lawful ..
    | lrefLoss => exact (lrefLoss_quiet ..).lawful
    | strapComplete => exact strapComplete_lawful ..
    | sfdpDiscoveryDone x => exact sfdpDiscoveryDone_lawful ..
    | copyReadDone k => exact (copyReadDone_quiet ..).lawful
    | signatureCheckDone => exact (signatureCheckDone_quiet ..).lawful
    | charterLoadDone => exact charterLoadDone_lawful ..
    | charterLoadTimeout => exact charterLoadTimeout_lawful ..
    | sramClearDone => exact (sramClearDone_quiet ..).lawful
    | hbmTrainingDone m => exact hbmTrainingDone_lawful ..
    | pumpTachWindowExpiry => exact (pumpTachWindowExpiry_quiet ..).lawful
    | plantArmDone k v => exact plantArmDone_lawful ..
    | configRetry => exact (configRetry_quiet ..).lawful
    | flashAddr pec a => exact (flashAddr_quiet ..).lawful
    | flashWrite pec l => exact (flashWrite_quiet ..).lawful
    | flashRead pec => exact (flashRead_quiet ..).lawful
    | flashErase4k pec => exact (sbErase_quiet ..).lawful
    | flashErase64k pec => exact (sbErase_quiet ..).lawful
    | flashStatus pec => exact (flashStatus_quiet ..).lawful
    | flashUnlock pec v => exact (flashUnlock_quiet ..).lawful
    | chipReset pec v => exact chipReset_lawful ..
    | deviceState pec => exact (deviceState_quiet ..).lawful
    | sidebandUnknownCommand k => exact (sidebandUnknownCommand_quiet ..).lawful
    | flashOperationDone ok => exact flashOperationDone_lawful ..
    | resetTaken => exact resetTaken_lawful ..
    | governorTick k => exact governorTick_lawful ..
    | parityScan l => exact (parityScan_quiet ..).lawful
    | parityRepair a => exact (parityRepair_quiet ..).lawful
    | hostReadError r e => exact (hostReadError_quiet ..).lawful
    | i3cEnumerationDone l => exact (i3cEnumerationDone_quiet ..).lawful
  · exact h.quiet.lawful

/-! ## The obligations -/

/-- Settles O58: every row answers lawfully. -/
theorem commandsAnswerAndActWithinTheirShare : Obligations.CommandsAnswerAndActWithinTheirShare := by
  intro i s
  generalize ho : exec i s = o
  have h : Lawful i s o := ho ▸ exec_lawful i s
  cases h with
  | next t hs _ => exact .inr ⟨t, rfl, hs⟩
  | bad mn => exact .inl ⟨mn, rfl⟩

/-- A period of the clock moves chip time at most. -/
theorem idle_powerInv {s : State} (h : PowerInv s) : PowerInv (idle s) := by
  unfold idle
  split
  · exact h
  · have hf := advance_frame s 1
    have hflash : (advance s 1).flash = s.flash := (congrArg State.flash hf :)
    have htime : (advance s 1).time = (s.time + 10 * 1) % 2 ^ 64 := (congrArg State.time hf :)
    have hboot : (advance s 1).boot = s.boot := (congrArg State.boot hf :)
    exact powerInv_congr (congrArg Boot.power hboot) (hflash ▸ h.flash_wf) (htime ▸ Nat.mod_lt _ (by decide)) h

/-- Settles O59: a step runs a row, which answers lawfully, or is a period of the clock. -/
theorem everyStepKeepsPowerAndPinState : Obligations.EveryStepKeepsPowerAndPinState := by
  intro s t h hstep
  cases hq : s.pending with
  | nil =>
    simp only [step, hq, Host.Outcome.next.injEq] at hstep
    exact hstep ▸ idle_powerInv h
  | cons i rest =>
    simp only [step, hq] at hstep
    have hl := exec_lawful i { s with pending := rest }
    rw [hstep] at hl
    cases hl with
    | next t _ hp => exact hp h

end Sys2Proof.Machine

namespace Sys2Proof.Machine

/-! # The start-up sequence, row by row (R29, R37 to R47) -/

/-- A row that answers by `doneBoot` runs. -/
theorem runs_of_doneBoot {i : Instr} {s t : State} {P : State → Prop} (h : exec i s = doneBoot s t)
    (hp : P { t with pending := s.pending, flash := s.flash, freeIdx := s.freeIdx + 1 }) : Runs i s P :=
  ⟨_, h, hp⟩

theorem State.loading.guard {s : State} (h : s.loading) :
    s.boot.dev = .charterLoad ∧ loadOverdue s = false ∧ s.boot.fatal = none := by
  obtain ⟨⟨hd, hf⟩, ht⟩ := h
  exact ⟨hd, decide_eq_false (by change s.time ≤ s.boot.loadAt + 500000000 at ht; simp only [ms]; omega), hf⟩

/-! ## Lists by key, and turns by index -/

theorem look_filter_key {α : Type} (l : List (Nat × α)) (p : Nat → Bool) (a : Nat) :
    look (l.filter (fun c => p c.1)) a = if p a then look l a else none := by
  induction l with
  | nil => simp [look]
  | cons c r ih =>
    simp only [List.filter_cons, look]
    split
    · simp only [look]
      grind
    · grind

theorem upTo_succ {α : Type} (n : Nat) (a : α) (f : α → Nat → α) : upTo (n + 1) a f = f (upTo n a f) n := by
  simp [upTo, List.range_succ]

/-- Turns that each write at one key leave every other key. -/
theorem upTo_away {α β : Type} (get : α → Nat → β) (key : Nat → Nat) (f : α → Nat → α)
    (hother : ∀ x k j, j ≠ key k → get (f x k) j = get x j) (n : Nat) (a : α) (j : Nat) (hj : ∀ i < n, j ≠ key i) :
    get (upTo n a f) j = get a j := by
  induction n with
  | zero => rfl
  | succ n ih => rw [upTo_succ, hother _ _ _ (hj n (by omega)), ih fun i hi => hj i (by omega)]

/-- Turns that write at keys of their own: each key holds what its turn wrote. -/
theorem upTo_at {α β : Type} (get : α → Nat → β) (key : Nat → Nat) (upd : Nat → β → β) (f : α → Nat → α)
    (hself : ∀ x k, get (f x k) (key k) = upd k (get x (key k)))
    (hother : ∀ x k j, j ≠ key k → get (f x k) j = get x j) (n : Nat) (a : α)
    (hkey : ∀ i < n, ∀ k < n, key i = key k → i = k) (i : Nat) (hi : i < n) :
    get (upTo n a f) (key i) = upd i (get a (key i)) := by
  induction n with
  | zero => omega
  | succ n ih =>
    rw [upTo_succ]
    by_cases hin : i = n
    · subst hin
      rw [hself, upTo_away get key f hother i a _ fun k hk e => absurd (hkey i hi k (by omega) e) (by omega)]
    · rw [hother _ _ _ fun e => hin (hkey i hi n (by omega) e)]
      exact ih (fun i hi k hk => hkey i (by omega) k (by omega)) (by omega)

/-- As `upTo_at`, where turn `k` writes at `k`. -/
theorem upTo_at_index {α β : Type} (get : α → Nat → β) (upd : Nat → β → β) (f : α → Nat → α)
    (hself : ∀ x k, get (f x k) k = upd k (get x k)) (hother : ∀ x k j, j ≠ k → get (f x k) j = get x j)
    (n : Nat) (a : α) (j : Nat) : get (upTo n a f) j = if j < n then upd j (get a j) else get a j := by
  split
  next h => exact upTo_at get id upd f hself hother n a (fun _ _ _ _ e => e) j h
  next h => exact upTo_away get id f hother n a j fun i hi e => h (e ▸ hi)

theorem Trv.vote_of (v : Nat) : (Trv.of v).vote = v := if_pos (.inl rfl)

/-! ## Values of Charter origin -/

theorem applyCharter_bunch (s : State) (ch : Charter) (b : Nat) (hb : b < 8) :
    ((applyCharter s ch).sch.bunch.get {} b).vote = ch.bunchPart.getD b 0 := by
  have h := upTo_at_index (fun (t : Tbl Trv) b => t.get {} b) (fun b _ => Trv.of (ch.bunchPart.getD b 0))
    (fun t b => t.put {} b (Trv.of (ch.bunchPart.getD b 0))) (fun t k => Tbl.get_put_same ..)
    (fun t k j hj => Tbl.get_put_other _ _ _ _ _ hj) 8 {} b
  rw [if_pos hb] at h
  exact (congrArg Trv.vote h).trans (Trv.vote_of _)

/-- A state in which `ch` was applied: besides, start-up's own state and what an error counts may have changed. -/
theorem loadsCharter_of_apply {s : State} {ch : Charter} (b : Boot) (regs : List (Nat × W32)) (ras : Ras)
    (hb : b.charter = ch ∧ b.sh1 = ch ∧ b.sh2 = ch ∧ b.bad1 = [] ∧ b.bad2 = []) :
    LoadsCharter s { applyCharter s ch with boot := b, regs := regs, ras := ras, freeIdx := s.freeIdx + 1 } ch := by
  obtain ⟨h1, h2, h3, h4, h5⟩ := hb
  exact ⟨h1, h2, h3, h4, h5, rfl, rfl, rfl, applyCharter_bunch s ch, rfl⟩

/-! ## The read mode -/

/-- A left fold that keeps the last match answers the last of the matches. -/
theorem foldl_keepLast {α : Type} (p : α → Bool) (l : List α) (a : α) :
    l.foldl (fun m x => if p x then x else m) a = (l.filter p).getLast?.getD a := by
  induction l generalizing a with
  | nil => rfl
  | cons x r ih =>
    simp only [List.foldl_cons, ih, List.filter_cons]
    split
    · cases hr : r.filter p with
      | nil => rfl
      | cons y l => simp [List.getLast?_eq_some_getLast]
    · rfl

theorem selectMode_eq (x : Sfdp) :
    selectMode x =
      let best := (([.m111, .m114, .m144, .m118, .m188] : List FlashMode).filter (fun m => x.modes.contains m)).getLast?.getD .m111
      if (best = .m114 ∨ best = .m144) ∧ x.quadOk = false then .m111 else best := by
  simp only [selectMode, foldl_keepLast, Bool.not_eq_true']

/-! ## The verdicts on a copy -/

/-- The header's bytes of slot `k`. -/
def headerOf (fl : List Host.Cell) (k : Slot) : List Byte := (List.range 256).map (fun i => flashByte fl (slotBase k + i))

theorem readCopy_of_fail (fl : List Host.Cell) (k : Slot) (n : Nat) (h : headerStep (headerOf fl k) = n) (hn : n ≠ 0) :
    readCopy fl k = { seen := true, finished := true, failStep := n } := by
  subst h
  exact if_pos hn

theorem readCopy_of_pass (fl : List Host.Cell) (k : Slot) (h : headerStep (headerOf fl k) = 0) :
    readCopy fl k =
      let img := (List.range (le32 (headerOf fl k) 8)).map (fun i => flashByte fl (slotBase k + i))
      { seen := true, seq := BitVec.ofNat 32 (le32 (headerOf fl k) 0x10), len := le32 (headerOf fl k) 8, image := img
        digest := sha384 (img.take (le32 (headerOf fl k) 8 - 256)) } :=
  if_neg (not_not.mpr h)

theorem Boot.copy_setCopy (b : Boot) (k : Slot) (c : CopySt) : (b.setCopy k c).copy k = c := by cases k <;> rfl

theorem checkCopy_of_finished (c : CopySt) (h : c.finished = true) : checkCopy c = { c with sigDone := true } := if_pos h

theorem checkCopy_of_open (c : CopySt) (h : c.finished = false) :
    checkCopy c = { c with sigDone := true, failStep := signatureStep c.image c.digest
                           finished := signatureStep c.image c.digest != 0 } := by
  simp only [checkCopy, h]
  rfl

/-! ## The load given up (R46) -/

theorem signatureStep_ne (img : List Byte) (d : BitVec 384) : signatureStep img d ≠ 1 ∧ signatureStep img d ≠ 2 := by
  simp only [signatureStep]
  split
  · decide
  · split <;> decide

theorem recordStep_ne (img : List Byte) : recordStep img ≠ 1 ∧ recordStep img ≠ 2 := by
  unfold recordStep
  split
  · decide
  · split
    · decide
    · split <;> decide

theorem reachedCopy_of_finished (n k : Nat) (both : Bool) (c : CopySt) (h : c.finished = true) :
    reachedCopy n k both c = c := if_pos h

/-- A copy that was not checked when not both were read keeps its state. -/
theorem reachedCopy_of_unread (n k : Nat) (c : CopySt) (h : c.sigDone = false) : reachedCopy n k false c = c := by
  simp [reachedCopy, h]

/-- Steps 3 to 7 keep that the header was read, and the sequence; they report no failure of steps 1 and 2. -/
theorem reachedCopy_header (n k : Nat) (both : Bool) (c : CopySt) (h : c.finished = false) (h0 : c.failStep = 0) :
    (reachedCopy n k both c).seen = c.seen ∧ (reachedCopy n k both c).seq = c.seq ∧
      (reachedCopy n k both c).failStep ≠ 1 ∧ (reachedCopy n k both c).failStep ≠ 2 := by
  have hc : c.failStep ≠ 1 ∧ c.failStep ≠ 2 := by omega
  unfold reachedCopy
  rw [if_neg (by simp [h])]
  split
  · split
    · rw [walkCopy, if_neg (by simp [h])]
      exact ⟨rfl, rfl, recordStep_ne _⟩
    · exact ⟨rfl, rfl, hc⟩
  · split
    · rw [checkCopy_of_open c h]
      exact ⟨rfl, rfl, signatureStep_ne ..⟩
    · exact ⟨rfl, rfl, hc⟩

theorem abandonLoad_abandons {s : State} (b : Boot) (hf : b.fatal = none) (ha : b.ambiguous = s.boot.ambiguous) :
    Abandons s { abandonLoad { s with boot := b } with pending := s.pending, flash := s.flash, freeIdx := s.freeIdx + 1 } :=
  ⟨⟨rfl, hf⟩, rfl, rfl, ha,
    loadsCharter_of_apply (abandonLoad { s with boot := b }).boot s.regs s.ras ⟨rfl, rfl, rfl, rfl, rfl⟩, rfl, rfl⟩

/-- A copy's verdict in a load given up. -/
theorem abandonCopy_reachedCopy (n k : Nat) (both : Bool) (c : CopySt) :
    let v := abandonCopy (reachedCopy n k both c)
    (c.finished = true → v.failStep = c.failStep ∧
      v.seq = if c.seen ∧ c.failStep ≠ 1 ∧ c.failStep ≠ 2 then c.seq else 0) ∧
    (c.finished = false → both = false → c.sigDone = false → v.failStep = 15) ∧
    (c.finished = false → c.failStep = 0 → v.seq = if c.seen then c.seq else 0) := by
  refine ⟨fun h => ?_, fun h hb hs => ?_, fun h h0 => ?_⟩
  · rw [reachedCopy_of_finished n k both c h]
    exact ⟨if_pos h, rfl⟩
  · rw [hb, reachedCopy_of_unread n k c hs]
    exact if_neg (by simp [h])
  · obtain ⟨hseen, hseq, hfail⟩ := reachedCopy_header n k both c h h0
    simp only [abandonCopy, hseen, hseq, hfail, ne_eq, not_false_eq_true, and_true]

/-! ## The obligation -/

/-- Settles O4: each row under its guard answers the state that the clause names. -/
theorem startUpRowsAdvanceSequence : Obligations.StartUpRowsAdvanceSequence := by
  refine ⟨fun s h hp => ?_, fun x s h hs => ?_, fun s h hs => ?_, fun k s h hs hk => ?_, fun s h ha hb hs => ?_,
    fun s h ht => ?_, fun s h hs => ?_, fun m s h hs => ?_⟩
  · obtain ⟨hd, hf⟩ := h
    exact runs_of_doneBoot (if_pos (by simp [hd, hp, hf])) rfl
  · obtain ⟨hd, ho, hf⟩ := h.guard
    exact runs_of_doneBoot (if_neg (by simp [hd, hs, ho, hf])) (by rw [selectMode_eq]; rfl)
  · obtain ⟨hd, ho, hf⟩ := h.guard
    refine runs_of_doneBoot (if_neg (by simp [hd, hs, ho, hf])) ⟨abandonLoad_abandons _ hf rfl, rfl, fun hA hB k => ?_⟩
    cases k <;> simp [abandonLoad, Boot.copy, hA, hB, reachedCopy, abandonCopy]
  · obtain ⟨hd, ho, hf⟩ := h.guard
    refine runs_of_doneBoot (t := { s with boot := s.boot.setCopy k (readCopy s.flash k) })
      (if_neg (by simp [hd, hs, hk, ho, hf])) ⟨?_, fun h1 => ?_, fun h1 h2 => ?_, fun h0 => ?_⟩
    all_goals simp only [Boot.copy_setCopy]
    · rfl
    · exact readCopy_of_fail _ _ 1 (if_pos h1) (by decide)
    · exact readCopy_of_fail _ _ 2 ((if_neg h1).trans (if_pos h2)) (by decide)
    · exact readCopy_of_pass _ _ h0
  · obtain ⟨hd, ho, hf⟩ := h.guard
    refine runs_of_doneBoot (if_neg (by simp [hd, ha, hb, hs, ho, hf])) ⟨rfl, fun k => ?_⟩
    cases k <;> exact ⟨checkCopy_of_finished _, checkCopy_of_open _⟩
  · obtain ⟨hd, hf⟩ := h
    have ho : loadOverdue s = true := decide_eq_true (by simp only [ms]; omega)
    refine runs_of_doneBoot (if_neg (by simp [hd, ho, hf])) ⟨abandonLoad_abandons _ hf rfl, fun k => ?_⟩
    have hboth : s.boot.copyA.seen = false ∨ s.boot.copyB.seen = false → (s.boot.copyA.seen && s.boot.copyB.seen) = false := by
      rintro (h | h) <;> simp [h]
    cases k
    · obtain ⟨h1, h2, h3⟩ := abandonCopy_reachedCopy s.freeIdx 0 (s.boot.copyA.seen && s.boot.copyB.seen) s.boot.copyA
      exact ⟨h1, fun h hb => h2 h (hboth hb), h3⟩
    · obtain ⟨h1, h2, h3⟩ := abandonCopy_reachedCopy s.freeIdx 1 (s.boot.copyA.seen && s.boot.copyB.seen) s.boot.copyB
      exact ⟨h1, fun h hb => h2 h (hboth hb), h3⟩
  · obtain ⟨hd, hf⟩ := h
    refine runs_of_doneBoot (if_neg (by simp [hd, hs, hf])) ⟨rfl, fun a ha => ?_, fun a ha => ?_, fun g => ?_⟩
    · have hl : look (s.mem.filter fun c => !isSram c.1) a = none := by
        rw [look_filter_key s.mem (fun a => !isSram a) a, ha]
        rfl
      simp [memByte, hl, ha]
    · rw [look_filter_key s.mem (fun a => !isSram a) a, ha]
      rfl
    · simp
  · obtain ⟨hd, hf⟩ := h
    exact runs_of_doneBoot (if_neg (by simp [hd, hs, hf])) rfl

end Sys2Proof.Machine

namespace Sys2Proof.Machine

/-! # The choice between the two copies (R39) -/

theorem rdF_inc16_same (s : State) (a : Nat) : rdF (inc16 s a) a 0 16 = Nat.min (rdF s a 0 16 + 1) 0xFFFF := by
  have hlt : Nat.min (rdF s a 0 16 + 1) 0xFFFF < 2 ^ 16 := Nat.lt_of_le_of_lt (Nat.min_le_right ..) (by decide)
  rw [inc16, incF, rdF_wrF _ _ _ _ _ (by decide)]
  exact Nat.mod_eq_of_lt hlt

/-- An error's counter moves on by one, up to its end (R351). -/
theorem rdF_chipErr_count (s : State) (code sub b i d : Nat) :
    rdF (chipErr s code sub b i d) (0x00800100 + 4 * (code - 0x40)) 0 16 =
      Nat.min (rdF s (0x00800100 + 4 * (code - 0x40)) 0 16 + 1) 0xFFFF := by
  obtain ⟨l, h⟩ := chipEntry_eq (rasCount s code) code sub b i d
  rw [chipErr, h]
  refine (rdF_congr (s := rasCount s code) rfl ..).trans ?_
  simp only [rasCount]
  rw [rdF_inc16_same]
  split
  · rw [rdF_wrF_other _ _ _ _ _ _ _ _ (by omega)]
  · rfl

/-! ## The selection -/

theorem selectCopy_higher_b {a b : CopySt} (ha : a.valid = true) (hb : b.valid = true) (h : a.seq < b.seq) :
    selectCopy a b = (some .b, false) := by
  rw [selectCopy, if_pos (by simp [ha, hb]), if_pos h]

theorem selectCopy_higher_a {a b : CopySt} (ha : a.valid = true) (hb : b.valid = true) (h : b.seq < a.seq) :
    selectCopy a b = (some .a, false) := by
  rw [selectCopy, if_pos (by simp [ha, hb]), if_neg (BitVec.not_lt.mpr (BitVec.le_of_lt h)), if_pos h]

theorem selectCopy_equal {a b : CopySt} (ha : a.valid = true) (hb : b.valid = true) (h : a.seq = b.seq) :
    selectCopy a b = (some .a, a.digest != b.digest) := by
  have hn : ¬ b.seq < b.seq := BitVec.lt_irrefl _
  rw [selectCopy, if_pos (by simp [ha, hb]), h, if_neg hn, if_neg hn]

theorem selectCopy_only_a {a b : CopySt} (ha : a.valid = true) (hb : b.valid = false) :
    selectCopy a b = (some .a, false) := by simp [selectCopy, ha, hb]

theorem selectCopy_only_b {a b : CopySt} (ha : a.valid = false) (hb : b.valid = true) :
    selectCopy a b = (some .b, false) := by simp [selectCopy, ha, hb]

theorem selectCopy_none {a b : CopySt} (ha : a.valid = false) (hb : b.valid = false) :
    selectCopy a b = (none, false) := by simp [selectCopy, ha, hb]

/-- The copies are ambiguous where both are valid, of one sequence and of two digests. -/
theorem selectCopy_ambiguous (a b : CopySt) :
    (selectCopy a b).2 = (a.valid && b.valid && a.seq == b.seq && a.digest != b.digest) := by
  cases ha : a.valid <;> cases hb : b.valid
  · rw [selectCopy_none ha hb]; rfl
  · rw [selectCopy_only_b ha hb]; rfl
  · rw [selectCopy_only_a ha hb]; rfl
  · rcases Nat.lt_trichotomy a.seq.toNat b.seq.toNat with h | h | h
    · have hne : (a.seq == b.seq) = false := beq_false_of_ne fun e => absurd (e ▸ h) (Nat.lt_irrefl _)
      rw [selectCopy_higher_b ha hb h, hne]; rfl
    · have he : (a.seq == b.seq) = true := beq_iff_eq.mpr (BitVec.eq_of_toNat_eq h)
      rw [selectCopy_equal ha hb (BitVec.eq_of_toNat_eq h), he]; rfl
    · have hne : (a.seq == b.seq) = false := beq_false_of_ne fun e => absurd (e ▸ h) (Nat.lt_irrefl _)
      rw [selectCopy_higher_a ha hb h, hne]; rfl

/-- The values that the selection loads: the selected copy's records, or LIMP's. -/
def selectedCharter (k : Option Slot) (a b : CopySt) : Charter :=
  match k with
  | none => limpCharter
  | some k => charterOf ((imageRecords (match k with | .a => a.image | .b => b.image)).getD [])

/-- Start-up's state after the selection. -/
def Boot.loaded (bt : Boot) (sel : Option Slot × Bool) (a b : CopySt) : Boot :=
  { bt with dev := .selftest, charter := selectedCharter sel.1 a b, sh1 := selectedCharter sel.1 a b
            sh2 := selectedCharter sel.1 a b, bad1 := [], bad2 := [], selected := sel.1, ambiguous := sel.2
            copyA := { a with image := [] }, copyB := { b with image := [] } }

/-- What CHARTER_LOAD_DONE answers: besides the values loaded, an ambiguous selection is counted. -/
theorem execCharterLoadDone_eq {s : State} (h : s.loading) (hA : s.boot.copyA.sigDone = true)
    (hB : s.boot.copyB.sigDone = true) :
    let a := walkCopy s.boot.copyA
    let b := walkCopy s.boot.copyB
    let sel := selectCopy a b
    ∃ regs ras, exec .charterLoadDone s = doneBoot s
        { applyCharter s (selectedCharter sel.1 a b) with boot := s.boot.loaded sel a b, regs := regs, ras := ras } ∧
      (sel.2 = false → regs = s.regs ∧ ras = s.ras) ∧
      (sel.2 = true → rdF { s with regs := regs } 0x0080010C 0 16 = Nat.min (rdF s 0x0080010C 0 16 + 1) 0xFFFF) := by
  intro a b sel
  obtain ⟨hd, ho, hf⟩ := h.guard
  let t : State := { applyCharter s (selectedCharter sel.1 a b) with boot := s.boot.loaded sel a b }
  have hexec : exec .charterLoadDone s = doneBoot s (if sel.2 then chipErr t 0x43 0 0 0 0 else t) :=
    if_neg (by simp [hd, hA, hB, ho, hf])
  rw [hexec]
  cases hs : sel.2 with
  | false => exact ⟨s.regs, s.ras, rfl, fun _ => ⟨rfl, rfl⟩, nofun⟩
  | true =>
    obtain ⟨regs, ras, he⟩ := chipErr_eq t 0x43 0 0 0 0
    have hc := rdF_chipErr_count t 0x43 0 0 0 0
    rw [he] at hc
    rw [if_pos rfl, he]
    exact ⟨regs, ras, rfl, nofun, fun _ => hc⟩

/-- Settles O5: CHARTER_LOAD_DONE loads what `selectCopy` chose. -/
theorem charterSelectionFollowsR39 : Obligations.CharterSelectionFollowsR39 := by
  intro s h hA hB
  obtain ⟨regs, ras, hexec, hkeep, hcount⟩ := execCharterLoadDone_eq h hA hB
  obtain ⟨-, -, hf⟩ := h.guard
  refine runs_of_doneBoot hexec ?_
  intro a b values loadsA loadsB
  have hload {sel : Option Slot × Bool} (hs : selectCopy a b = sel) :
      (s.boot.loaded (selectCopy a b) a b).selected = sel.1 ∧
        LoadsCharter s { applyCharter s (selectedCharter (selectCopy a b).1 a b) with
          boot := s.boot.loaded (selectCopy a b) a b, regs := regs, ras := ras, freeIdx := s.freeIdx + 1 }
          (selectedCharter sel.1 a b) := by
    subst hs
    exact ⟨rfl, loadsCharter_of_apply _ regs ras ⟨rfl, rfl, rfl, rfl, rfl⟩⟩
  exact ⟨⟨rfl, hf⟩, rfl, rfl, fun ha hb hlt => hload (selectCopy_higher_b ha hb hlt),
    fun ha hb hlt => hload (selectCopy_higher_a ha hb hlt), fun ha hb he => hload (selectCopy_equal ha hb he),
    selectCopy_ambiguous a b, fun ha hb => hload (selectCopy_only_a ha hb), fun ha hb => hload (selectCopy_only_b ha hb),
    fun ha hb => hload (selectCopy_none ha hb), hkeep, hcount⟩

end Sys2Proof.Machine

namespace Sys2Proof.Machine

/-! # The sideband bridge (R52 to R55) -/

theorem State.bridge.guard {s : State} {pec : Bool} (h : s.bridge pec) :
    (!sbAnswers s || !pec) = false ∧ loadActive s = false := by
  obtain ⟨hp, hoff, hstrap, hload, hf⟩ := h
  simp [sbAnswers, loadActive, hp, hoff, hstrap, hload, hf]

/-- Where the bridge takes commands, a command has its effect. -/
theorem sbRun_of_bridge {s : State} {pec : Bool} (h : s.bridge pec) (f : State → State) :
    sbRun pec s f = doneBoot s (f s) := by
  obtain ⟨hn, hl⟩ := h.guard
  rw [sbRun, hn, hl]
  rfl

theorem runs_of_bridge {i : Instr} {s : State} {f : State → State} {P : State → Prop} (hi : exec i s = sbRun true s f)
    (h : s.bridge true) (hp : P { f s with pending := s.pending, flash := s.flash, freeIdx := s.freeIdx + 1 }) :
    Runs i s P :=
  runs_of_doneBoot (hi.trans (sbRun_of_bridge h f)) hp

/-- While the loader is active a command is refused (R53). -/
theorem sbRun_of_loader {s : State} (h : s.at_ .charterLoad) (f : State → State) :
    sbRun true s f = doneBoot s (sbAck s true false []) := by
  obtain ⟨hd, hf⟩ := h
  rw [sbRun, if_neg (by simp [sbAnswers, hd, hf]), if_pos (by simp [loadActive, hd])]

/-- The bridge's silence, and a wrong PEC (R52). -/
theorem sbRun_of_silent {s : State} {pec : Bool} (h : (!sbAnswers s || !pec) = true) (f : State → State) :
    sbRun pec s f = doneBoot s (sbNack s) := if_pos h

theorem sbAnswers_eq_false {s : State} (h : s.boot.dev = .off ∨ s.boot.dev = .strap ∨ s.boot.fatal ≠ none) :
    sbAnswers s = false := by
  rcases h with h | h | h
  · simp [sbAnswers, h]
  · simp [sbAnswers, h]
  · simp [sbAnswers, Option.isSome_iff_ne_none.mpr h]

theorem slotRefused_iff (s : State) (a n : Nat) : slotRefused s a n = true ↔ s.inLoadedSlot a n := by
  unfold slotRefused State.inLoadedSlot
  cases s.boot.selected <;> simp

theorem slotRefused_eq_false {s : State} {a n : Nat} (h : ¬ s.inLoadedSlot a n) : slotRefused s a n = false :=
  Bool.eq_false_iff.mpr fun e => h ((slotRefused_iff s a n).mp e)

/-! ## An erase -/

theorem sbErase_of_loaded {s : State} {sz : Nat} (h : s.inLoadedSlot (s.sb.addr.toNat / sz * sz) sz) :
    sbErase sz s = sbAck s true false [] := if_pos ((slotRefused_iff ..).mpr h)

theorem sbErase_of_busy {s : State} {sz : Nat} (h : ¬ s.inLoadedSlot (s.sb.addr.toNat / sz * sz) sz)
    (hb : s.sb.busy = true) :
    sbErase sz s = sbAck s false true [] := by
  rw [sbErase, slotRefused_eq_false h, hb]
  rfl

theorem sbErase_of_idle {s : State} {sz : Nat} (h : ¬ s.inLoadedSlot (s.sb.addr.toNat / sz * sz) sz)
    (hb : s.sb.busy = false) :
    sbErase sz s = sbStart s (.inr (s.sb.addr.toNat / sz * sz, sz)) := by
  rw [sbErase, slotRefused_eq_false h, hb]
  rfl

theorem sbErase_only_sb (sz : Nat) (s : State) : sbErase sz s = { s with sb := (sbErase sz s).sb } := by
  simp only [sbErase]
  repeat' split
  all_goals rfl

/-- An erase command under the bridge: refused in the loaded slot, an error while busy, else the operation starts. -/
theorem erase_runs {i : Instr} {sz : Nat} {s : State} (hi : exec i s = sbRun true s (sbErase sz)) (h : s.bridge true) :
    let a := s.sb.addr.toNat / sz * sz
    Runs i s (fun t =>
      t = { s.ticked with sb := t.sb } ∧
      (s.inLoadedSlot a sz →
        t.sb = { s.sb with ack := true, refused := true, lastError := false, opLast := false, reply := [] }) ∧
      (¬ s.inLoadedSlot a sz → s.sb.busy = true →
        t.sb = { s.sb with ack := true, refused := false, lastError := true, opLast := false, reply := [] }) ∧
      (¬ s.inLoadedSlot a sz → s.sb.busy = false →
        t.sb = { s.sb with ack := true, refused := false, lastError := false, opLast := true, reply := [], busy := true
                           op := some (.inr (a, sz)) })) := by
  refine runs_of_bridge hi h ⟨?_, fun hl => ?_, fun hl hb => ?_, fun hl hb => ?_⟩
  · rw [sbErase_only_sb]
    rfl
  · rw [sbErase_of_loaded hl]
    rfl
  · rw [sbErase_of_busy hl hb]
    rfl
  · rw [sbErase_of_idle hl hb]
    rfl

/-! ## The other commands -/

/-- The bits of the FLASH_STATUS byte. -/
theorem flashStatusByte_bits (s : State) :
    (flashStatusByte s).getLsbD 0 = s.sb.busy ∧ (flashStatusByte s).getLsbD 1 = s.sb.lastError ∧
      (flashStatusByte s).getLsbD 2 = s.sb.refused ∧ (flashStatusByte s).getLsbD 3 = (s.boot.dev == .charterLoad) ∧
      (flashStatusByte s).getLsbD 4 = s.sb.unlocked ∧ (flashStatusByte s).toNat < 32 := by
  unfold flashStatusByte loadActive
  cases s.sb.busy <;> cases s.sb.lastError <;> cases s.sb.refused <;> cases s.boot.dev == .charterLoad <;>
    cases s.sb.unlocked <;> decide

/-- The other slot's copy is valid: R54's condition on FLASH_UNLOCK. -/
def State.otherValid (s : State) : Prop :=
  s.boot.selected = some .a ∧ s.boot.copyB.valid = true ∨ s.boot.selected = some .b ∧ s.boot.copyA.valid = true

theorem exec_flashUnlock_of_ne {s : State} (h : s.bridge true) {v : Byte} (hv : v ≠ 0x5A) :
    exec (.flashUnlock true v) s = doneBoot s (sbAck s false false []) := by
  have he : exec (.flashUnlock true v) s = _ := (sbRun_of_bridge h _ : execFlashUnlock true v s = _)
  rw [he, if_pos hv]

theorem exec_flashUnlock_of_valid {s : State} (h : s.bridge true) (ho : s.otherValid) :
    exec (.flashUnlock true 0x5A) s =
      doneBoot s (sbAck { s with sb := { s.sb with unlocked := true } } false false []) := by
  have he : exec (.flashUnlock true 0x5A) s = _ := (sbRun_of_bridge h _ : execFlashUnlock true 0x5A s = _)
  rw [he]
  rcases ho with ⟨hs, hv⟩ | ⟨hs, hv⟩ <;> simp [hs, hv]

theorem exec_flashUnlock_of_invalid {s : State} (h : s.bridge true) (ho : ¬ s.otherValid) :
    exec (.flashUnlock true 0x5A) s = doneBoot s (sbAck s true false []) := by
  have he : exec (.flashUnlock true 0x5A) s = _ := (sbRun_of_bridge h _ : execFlashUnlock true 0x5A s = _)
  rw [he]
  unfold State.otherValid at ho
  rcases hs : s.boot.selected with _ | _ | _ <;> simp_all

/-- A row of the bridge: a command that `sbRun` runs, or one of the two that answer also while the loader is active. -/
inductive BridgeRow (s : State) (mk : Bool → Instr) : Prop
  | command (f : State → State) (h : ∀ pec, exec (mk pec) s = sbRun pec s f)
  | status (u : State) (hmk : mk true = .flashStatus true ∨ mk true = .deviceState true)
      (h : ∀ pec, exec (mk pec) s = if !sbAnswers s || !pec then doneBoot s (sbNack s) else doneBoot s u)

theorem bridgeRow_of_mem {addr : W32} {bytes : List Byte} {v : Byte} (h1 : 1 ≤ bytes.length) (h2 : bytes.length ≤ 32)
    {mk : Bool → Instr} (hmk : mk ∈ ([(.flashAddr · addr), (.flashWrite · bytes), .flashRead, .flashErase4k, .flashErase64k,
      (.flashUnlock · v), (.chipReset · v), .flashStatus, .deviceState] : List (Bool → Instr))) (s : State) :
    BridgeRow s mk := by
  simp only [List.mem_cons, List.not_mem_nil, or_false] at hmk
  rcases hmk with rfl | rfl | rfl | rfl | rfl | rfl | rfl | rfl | rfl
  · exact .command _ fun pec => (rfl : execFlashAddr pec addr s = sbRun pec s _)
  · exact .command _ fun _ => if_neg (by omega)
  · exact .command _ fun pec => (rfl : execFlashRead pec s = sbRun pec s _)
  · exact .command _ fun _ => rfl
  · exact .command _ fun _ => rfl
  · exact .command _ fun pec => (rfl : execFlashUnlock pec v s = sbRun pec s _)
  · exact .command _ fun pec => (rfl : execChipReset pec v s = sbRun pec s _)
  · exact .status _ (.inl rfl) fun _ => rfl
  · exact .status _ (.inr rfl) fun _ => rfl

theorem BridgeRow.silent {s : State} {mk : Bool → Instr} (h : BridgeRow s mk) {pec : Bool}
    (hs : (!sbAnswers s || !pec) = true) :
    Runs (mk pec) s (fun t => t = { s.ticked with sb := { s.sb with ack := false, reply := [] } }) := by
  cases h with
  | command f h => exact runs_of_doneBoot ((h pec).trans (sbRun_of_silent hs f)) rfl
  | status u _ h => exact runs_of_doneBoot ((h pec).trans (if_pos hs)) rfl

theorem BridgeRow.refused {s : State} {mk : Bool → Instr} (h : BridgeRow s mk) (hl : s.at_ .charterLoad)
    (h1 : mk true ≠ .flashStatus true) (h2 : mk true ≠ .deviceState true) :
    Runs (mk true) s (fun t => t = { s.ticked with
      sb := { s.sb with ack := true, refused := true, lastError := false, opLast := false, reply := [] } }) := by
  cases h with
  | command f h => exact runs_of_doneBoot ((h true).trans (sbRun_of_loader hl f)) rfl
  | status u hmk _ => exact (hmk.elim h1 h2).elim

/-- Settles O7: each command under the bridge, and the rows of the bridge where it does not take them. -/
theorem sidebandCommandsTakeEffect : Obligations.SidebandCommandsTakeEffect := by
  refine ⟨⟨fun addr s h => ?_, fun bytes s h h1 h2 => ?_, fun s h => ?_, fun big s h => ?_, fun s h => ?_, fun v s h => ?_,
    fun v s h => ?_, fun s h => ?_, fun k s hk => ?_⟩, fun addr bytes v h1 h2 mk hmk s => ?_⟩
  · refine runs_of_bridge (rfl : execFlashAddr true addr s = sbRun true s _) h ?_
    by_cases ha : addr.toNat < 0x4000000
    · simp [ha, sbAck, State.ticked]
    · simp [ha, sbAck, State.ticked]
      omega
  · refine runs_of_bridge (if_neg (by omega)) h ⟨?_, fun hl => ?_, fun hl hb => ?_, fun hl hb => ?_⟩
    · dsimp only
      split
      · rfl
      · split <;> rfl
    · simp [(slotRefused_iff ..).mpr hl, sbAck]
    · simp [slotRefused_eq_false hl, hb, sbAck]
    · simp [slotRefused_eq_false hl, hb, sbAck, sbStart, flashMod]
  · refine runs_of_bridge (rfl : execFlashRead true s = sbRun true s _) h ⟨rfl, by simp [sbAck], fun hb => ?_⟩
    simp [sbAck, hb, flashMod]
  · cases big
    · exact erase_runs rfl h
    · exact erase_runs rfl h
  · exact runs_of_doneBoot (if_neg (by simp [h])) ⟨rfl, flashStatusByte s, rfl, flashStatusByte_bits s⟩
  · by_cases hv : v = 0x5A
    · subst hv
      by_cases ho : s.otherValid
      · exact runs_of_doneBoot (exec_flashUnlock_of_valid h ho)
          ⟨rfl, (absurd rfl ·), fun _ _ => rfl, fun _ hn => absurd ho hn⟩
      · exact runs_of_doneBoot (exec_flashUnlock_of_invalid h ho)
          ⟨rfl, (absurd rfl ·), fun _ hy => absurd hy ho, fun _ _ => rfl⟩
    · exact runs_of_doneBoot (exec_flashUnlock_of_ne h hv) ⟨rfl, fun _ => rfl, (absurd · hv), (absurd · hv)⟩
  · refine runs_of_bridge (rfl : execChipReset true v s = sbRun true s _) h ?_
    by_cases hv : v = 0xA5
    · subst hv
      cases hr : s.boot.resetReq
      · simp [sbAck, State.ticked]
      · have hb : { s.boot with resetReq := true } = s.boot := by rw [← hr]
        simpa [hr, sbAck, State.ticked] using hb
    · simp [show v ≠ 0xA5#8 from hv, sbAck, State.ticked]
  · refine runs_of_doneBoot (if_neg (by simp [h])) ⟨rfl, ?_⟩
    have hstrap : s.boot.dev ≠ .strap := fun hd => by simp [sbAnswers, hd] at h
    cases hd : s.boot.dev
    case strap => exact absurd hd hstrap
    all_goals rfl
  · exact runs_of_doneBoot (if_neg (by simpa [sbCodes] using hk)) rfl
  · have hrow := bridgeRow_of_mem h1 h2 hmk s
    exact ⟨fun hl h1 h2 => hrow.refused hl h1 h2, fun hs => hrow.silent (by rw [sbAnswers_eq_false hs]; rfl),
      hrow.silent (Bool.or_true _)⟩

end Sys2Proof.Machine

namespace Sys2Proof.Machine

/-! # The flash, byte by byte (R52) -/

theorem flashByte_flashPut_same (fl : List Host.Cell) (a : Nat) (b : Byte) : flashByte (flashPut fl a b) a = b := by
  unfold flashByte flashPut
  split
  next h => simp [h]
  · simp

theorem flashByte_flashPut_other (fl : List Host.Cell) (a x : Nat) (b : Byte) (h : x ≠ a) :
    flashByte (flashPut fl a b) x = flashByte fl x := by
  unfold flashByte flashPut
  split
  · rw [look_delKey_other _ _ _ h]
  · rw [look_addKey_other _ _ _ _ h]

/-- What one turn of a program operation or an erase does to the flash: byte `i`, at its place, if it is among those done. -/
def flashTurn (n : Nat) (whole : Bool) (place : Nat → Nat) (v : Nat → Byte) (fl : List Host.Cell) (i : Nat) :
    List Host.Cell :=
  if whole || Config.freeBit n i then flashPut fl (place i) (v i) else fl

theorem flashApply_program (n : Nat) (whole : Bool) (fl : List Host.Cell) (a : Nat) (bs : List Byte) :
    flashApply n whole fl (.inl (a, bs)) =
      upTo bs.length fl (flashTurn n whole (fun i => (a + i) % 0x4000000)
        (fun i => flashByte fl ((a + i) % 0x4000000) &&& bs.getD i 0xFF)) := rfl

theorem flashApply_erase (n : Nat) (whole : Bool) (fl : List Host.Cell) (a sz : Nat) :
    flashApply n whole fl (.inr (a, sz)) = upTo sz fl (flashTurn n whole (fun i => a + i) (fun _ => 0xFF)) := rfl

theorem flashTurn_other (n : Nat) (whole : Bool) (place : Nat → Nat) (v : Nat → Byte) (fl : List Host.Cell) (i x : Nat)
    (h : x ≠ place i) : flashByte (flashTurn n whole place v fl i) x = flashByte fl x := by
  unfold flashTurn
  split
  · exact flashByte_flashPut_other _ _ _ _ h
  · rfl

theorem flashTurn_whole (n : Nat) (place : Nat → Nat) (v : Nat → Byte) (fl : List Host.Cell) (i : Nat) :
    flashByte (flashTurn n true place v fl i) (place i) = v i :=
  flashByte_flashPut_same ..

/-- A program operation that succeeds clears bits of each of its bytes. -/
theorem flashByte_program (n : Nat) (fl : List Host.Cell) (a : Nat) (bs : List Byte) (h : bs.length ≤ 32) (i : Nat)
    (hi : i < bs.length) : flashByte (flashApply n true fl (.inl (a, bs))) ((a + i) % 0x4000000) =
      flashByte fl ((a + i) % 0x4000000) &&& bs.getD i 0xFF := by
  rw [flashApply_program]
  exact upTo_at flashByte (fun i => (a + i) % 0x4000000) (fun i _ => flashByte fl ((a + i) % 0x4000000) &&& bs.getD i 0xFF) _
    (flashTurn_whole n _ _)
    (flashTurn_other n true _ _) bs.length fl (fun i hi k hk e => by omega) i hi

theorem flashByte_program_outside (n : Nat) (whole : Bool) (fl : List Host.Cell) (a : Nat) (bs : List Byte) (x : Nat)
    (hx : ∀ i < bs.length, x ≠ (a + i) % 0x4000000) :
    flashByte (flashApply n whole fl (.inl (a, bs))) x = flashByte fl x := by
  rw [flashApply_program]
  exact upTo_away flashByte _ _ (flashTurn_other n whole _ _) _ _ _ hx

/-- An erase that succeeds leaves 0xFF in its block. -/
theorem flashByte_erase (n : Nat) (fl : List Host.Cell) (a sz x : Nat) (h : a ≤ x ∧ x < a + sz) :
    flashByte (flashApply n true fl (.inr (a, sz))) x = 0xFF := by
  obtain ⟨i, rfl⟩ := Nat.exists_eq_add_of_le h.1
  rw [flashApply_erase]
  exact upTo_at flashByte (fun i => a + i) (fun _ _ => 0xFF) _ (flashTurn_whole n _ _) (flashTurn_other n true _ _) sz fl
    (fun i _ k _ e => by omega) i (by omega)

theorem flashByte_erase_outside (n : Nat) (whole : Bool) (fl : List Host.Cell) (a sz x : Nat) (h : x < a ∨ a + sz ≤ x) :
    flashByte (flashApply n whole fl (.inr (a, sz))) x = flashByte fl x := by
  rw [flashApply_erase]
  exact upTo_away flashByte (fun i => a + i) _ (flashTurn_other n whole _ _) _ _ _ fun i hi e => by omega

/-! ## The obligation -/

/-- What the end of an operation answers. -/
theorem exec_flashOperationDone {s : State} {op : Nat × List Byte ⊕ Nat × Nat} (h : s.sb.op = some op) (ok : Bool) :
    exec (.flashOperationDone ok) s = .next { s.ticked with
      flash := flashApply s.freeIdx ok s.flash op
      sb := { s.sb with busy := false, op := none, opLast := false, lastError := s.sb.lastError || (s.sb.opLast && !ok) } } := by
  show execFlashOperationDone ok s = _
  rw [execFlashOperationDone, h]
  rfl

/-- Settles O8: an operation's end by `flashApply`, byte by byte; a requested reset by `chipReset`. -/
theorem flashOperationEndsAsStated : Obligations.FlashOperationEndsAsStated := by
  refine ⟨fun a bs s hop hlen => ?_, fun a n s hop => ?_, fun op s hop => ?_, fun s hr hf => ?_, fun s hr => ?_⟩
  · exact ⟨_, exec_flashOperationDone hop true, by simp, flashByte_program _ _ _ _ hlen,
      flashByte_program_outside _ _ _ _ _⟩
  · refine ⟨_, exec_flashOperationDone hop true, by simp, fun x => ?_⟩
    split
    next hx => exact flashByte_erase _ _ _ _ _ hx
    next hx => exact flashByte_erase_outside _ _ _ _ _ _ (by omega)
  · refine ⟨_, exec_flashOperationDone hop false, by simp, fun x hx => ?_⟩
    rcases op with ⟨a, bs⟩ | ⟨a, n⟩
    · exact flashByte_program_outside _ _ _ _ _ x hx
    · exact flashByte_erase_outside _ _ _ _ _ x hx
  · exact runs_of_doneBoot (if_pos ⟨hr, by simp [hf]⟩) rfl
  · exact runs_of_doneBoot (if_neg (by simp [hr])) rfl

end Sys2Proof.Machine

namespace Sys2Proof.Machine

/-! # PLANT_ARM (R42, R43, R48, R51, R58, R85) -/

/-! ## A loss raised -/

theorem raiseLoss_flag (s : State) (b : Nat) (h : b < 32) : rdB (raiseLoss s b) 0x00030004 b = true := by
  rw [rdB, raiseLoss, chipErr_rd _ _ _ _ _ _ _ (by decide) (by decide), rd_inc16_other _ _ _ (by decide)]
  exact rdB_wrF s 0x00030004 b h

/-- What `inc16` leaves in its register depends on that register alone. -/
theorem rd_inc16_congr {s t : State} (a : Nat) (h : rd t a = rd s a) : rd (inc16 t a) a = rd (inc16 s a) a := by
  simp [inc16, incF, wrF, rdF, h]

theorem raiseLoss_count (s : State) (b : Nat) : rd (raiseLoss s b) 0x00030008 = rd (inc16 s 0x00030008) 0x00030008 := by
  rw [raiseLoss, chipErr_rd _ _ _ _ _ _ _ (by decide) (by decide)]
  exact rd_inc16_congr _ (rd_wrF_other _ _ _ _ _ _ (by decide))

theorem lossOn_activate (s : State) (l : Loss) : lossOn (activate s l) l = true := by
  simp only [lossOn, activate]
  split
  next h => exact h
  · simp

/-- A loss raised and answered: its flag stands, it is counted, its response is in effect, and nothing but registers, the
error log and the responses changes. -/
theorem activate_raiseLoss_eq (s : State) (b : Nat) (l : Loss) (h : b < 32) : ∃ regs ras active,
    activate (raiseLoss s b) l = { s with regs := regs, ras := ras, plt := { s.plt with active := active } } ∧
      rdB { s with regs := regs } 0x00030004 b = true ∧
      rd { s with regs := regs } 0x00030008 = rd (inc16 s 0x00030008) 0x00030008 ∧ active.contains l = true := by
  have hflag := raiseLoss_flag s b h
  have hcount := raiseLoss_count s b
  have hon := lossOn_activate (raiseLoss s b) l
  obtain ⟨regs, ras, e⟩ := raiseLoss_eq s b
  rw [e] at hflag hcount hon ⊢
  exact ⟨regs, ras, _, rfl, hflag, hcount, hon⟩

/-! ## The sensors found -/

theorem enumerated_upTo (sensors : Tbl Sensor) (v : Nat → Bool) (i : Nat) (hi : i < 8) :
    ((upTo 8 sensors (fun t i => t.put {} i { t.get {} i with enumerated := v i })).get {} i).enumerated = v i := by
  have h := upTo_at_index (fun (t : Tbl Sensor) i => (t.get {} i).enumerated) (fun i _ => v i)
    (fun t i => t.put {} i { t.get {} i with enumerated := v i }) (fun t k => by simp)
    (fun t k j hj => by simp only [Tbl.get_put_other _ _ _ _ _ hj]) 8 sensors i
  rwa [if_pos hi] at h

/-- What I3C_ENUMERATION_DONE notes: which of the named sensors answered. -/
def State.enumerated (s : State) (l : List Bool) : State :=
  { s with
    boot := { s.boot with i3cDone := true }
    plt := { s.plt with sensors := upTo 8 s.plt.sensors (fun t i =>
      t.put {} i { t.get {} i with enumerated := (s.charter.sensors.getD i (0, 0)).2 != 0 && l.getD i false }) } }

theorem exec_i3cEnumerationDone {s : State} {l : List Bool} (hl : l.length = 8) (h : s.at_ .plantArm)
    (hi : s.boot.i3cDone = false) (hc : s.charter.isLimp = false) :
    exec (.i3cEnumerationDone l) s =
      if (List.range 8).any (fun i => (s.charter.sensors.getD i (0, 0)).2 == 1 && l.getD i false) then
        doneBoot s (s.enumerated l)
      else doneBoot s (activate (raiseLoss { s.enumerated l with
        boot := { s.boot with i3cDone := true, armInlet := true, armFail := true } } 5) .inletAll) := by
  obtain ⟨hd, hf⟩ := h
  show execI3cEnumerationDone l s = _
  rw [execI3cEnumerationDone, if_neg (by simp [hl]), if_neg (by simp [hd, hi, hc, hf])]
  rfl

theorem State.enumerated_iff (s : State) (l : List Bool) (i : Nat) (hi : i < 8) :
    ((s.enumerated l).plt.sensors.get {} i).enumerated = true ↔
      (s.charter.sensors.getD i (0, 0)).2 ≠ 0 ∧ l.getD i false = true := by
  rw [State.enumerated, enumerated_upTo _ _ _ hi]
  simp

/-! ## The ports -/

theorem armPorts_only_lnk (s : State) : armPorts s = { s with lnk := (armPorts s).lnk } := by
  unfold armPorts
  split
  · rfl
  · exact upTo_induct (fun u : State => u = { s with lnk := u.lnk }) _ _ _ rfl fun u g hu => by
      dsimp only
      split
      · rw [State.setPort, hu]
      · exact hu

theorem armPorts_st {s : State} {tp : Topo} (h : s.charter.topo = some tp) (g : Nat) (hg : g < 16) :
    ((armPorts s).port g).st = if tp.ports.getLsbD g then .training else (s.port g).st := by
  have hp := upTo_at_index (fun (u : State) g => (u.port g).st) (fun g st => if tp.ports.getLsbD g then .training else st)
    (fun u g => if tp.ports.getLsbD g then u.setPort g { u.port g with st := .training, cause := 0, since := u.time }
      else u)
    (fun u k => by dsimp only; split <;> simp) (fun u k j hj => by dsimp only; split <;> simp [hj]) 16 s g
  rw [if_pos hg] at hp
  unfold armPorts
  rw [h]
  exact hp

theorem armPorts_of_none {s : State} (h : s.charter.topo = none) : armPorts s = s := by
  unfold armPorts
  rw [h]

/-- The ports at READY: those that the Charter enables train, and nothing else changes. -/
theorem armPorts_eq (s : State) : ∃ lnk, armPorts s = { s with lnk := lnk } ∧
    (∀ tp, s.charter.topo = some tp → ∀ g < 16,
      (lnk.ports.get {} g).st = if tp.ports.getLsbD g then .training else (s.port g).st) ∧
    (s.charter.topo = none → lnk = s.lnk) :=
  ⟨_, armPorts_only_lnk s, fun _ h => armPorts_st h, fun h => congrArg State.lnk (armPorts_of_none h)⟩

theorem lowestTable_lt (c : Charter) : lowestTable c < 4 := by
  unfold lowestTable
  cases h : (List.range 4).find? (fun k => (look c.routes.entries k).isSome) with
  | none => decide
  | some k => exact List.mem_range.mp (List.mem_of_find?_eq_some h)

/-! ## The end of PLANT_ARM -/

/-- PLANT_ARM's end once the handshake, and LIMP's entry where there was a loss, are done. -/
def plantUp (t : State) : State :=
  let limp := t.charter.isLimp
  let t := { t with boot := { t.boot with dev := if limp then .limp else .ready, crs := false,
                                          bootMs := (t.time - t.boot.seqAt + t.boot.seqLead) / ms,
                                          pumpPin := .pwm, valvePin := .pwm,
                                          pci := { t.boot.pci with totalVfs := if limp then 0 else 127 } } }
  let t := { t with hq := { t.hq with capRegs := t.regs.filter (fun r => inCap r.1) } }
  if limp then t else wrF (armPorts t) 0x00508004 0 2 (lowestTable t.charter)

/-- PLANT_ARM can end: R48's steps are done. -/
def State.armed (s : State) : Prop :=
  s.at_ .plantArm ∧ s.gov.started = true ∧ (0 < s.gov.beats ∨ s.gov.lost = true) ∧
    (s.boot.i3cDone = true ∨ s.charter.isLimp = true)

theorem exec_plantArmDone {s : State} (h : s.armed) (k : Option ConvAnswer) (v : BitVec 12) :
    exec (.plantArmDone k v) s = doneBoot s (plantUp (
      if (handshake s k v).boot.armFail && !(handshake s k v).charter.isLimp then limpEntry (handshake s k v)
      else handshake s k v)) := by
  obtain ⟨⟨hd, hf⟩, hs, hb, hi⟩ := h
  refine if_neg ?_
  rcases hb with hb | hb <;> rcases hi with hi | hi <;> simp [hd, hf, hs, hb, hi] <;> omega

/-- The handshake acts on the plant, on registers and on the error log; what it leaves, case by case (R85). -/
theorem handshake_eq (s : State) (k : Option ConvAnswer) (v : BitVec 12) : ∃ plt regs ras,
    handshake s k v = { s with plt := plt, regs := regs, ras := ras } ∧
      (s.charter.usableLu = 0 → plt = s.plt) ∧
      (∀ c, k = some c → s.charter.usableLu ≠ 0 → c.vEmpty < c.vFull →
        plt = { s.plt with
          vFull := c.vFull, vEmpty := c.vEmpty, convOk := true
          coulomb := eVolt s.charter.usableLu v.toNat c.vFull.toNat c.vEmpty.toNat
          eVolt := eVolt s.charter.usableLu v.toNat c.vFull.toNat c.vEmpty.toNat, resV := v.toNat, lastRec := s.time }) ∧
      (k = none → s.charter.usableLu ≠ 0 →
        rdB { s with regs := regs } 0x00030004 2 = true ∧ plt.active.contains .conv = true) := by
  obtain ⟨regs, ras, active, e, hflag, -, hon⟩ := activate_raiseLoss_eq s 2 .conv (by decide)
  by_cases hu : s.charter.usableLu = 0
  · exact ⟨_, _, _, if_pos hu, fun _ => rfl, fun _ _ h => absurd hu h, fun _ h => absurd hu h⟩
  · cases k with
    | none => exact ⟨_, regs, ras, (if_neg hu).trans e, fun h => absurd h hu, nofun, fun _ _ => ⟨hflag, hon⟩⟩
    | some c =>
      by_cases hv : c.vEmpty < c.vFull
      · refine ⟨_, _, _, (if_neg hu).trans (if_pos hv), fun h => absurd h hu, fun c' hc _ _ => ?_, nofun⟩
        cases hc
        rfl
      · refine ⟨_, regs, ras, ((if_neg hu).trans (if_neg hv)).trans e, fun h => absurd h hu, fun c' hc _ h => ?_, nofun⟩
        cases hc
        exact absurd h hv

theorem handshake_of_noReservoir (s : State) (k : Option ConvAnswer) (v : BitVec 12) (h : s.charter.usableLu = 0) :
    handshake s k v = s := if_pos h

/-- Start-up's state once the device is up, with its boot time and its virtual functions (R42 to R44). -/
def Boot.up (b : Boot) (dev : DevState) (bootMs vfs : Nat) : Boot :=
  { b with dev := dev, crs := false, bootMs := bootMs, pumpPin := .pwm, valvePin := .pwm
           pci := { b.pci with totalVfs := vfs } }

theorem plantUp_ready {t : State} (h : t.charter.isLimp = false) : ∃ hq,
    plantUp t = wrF (armPorts { t with
        hq := hq, boot := t.boot.up .ready ((t.time - t.boot.seqAt + t.boot.seqLead) / 1000000) 127 })
      0x00508004 0 2 (lowestTable t.charter) := by
  simp only [plantUp, h]
  exact ⟨_, rfl⟩

theorem plantUp_limp {t : State} (h : t.charter.isLimp = true) :
    ∃ hq bootMs, plantUp t = { t with hq := hq, boot := t.boot.up .limp bootMs 0 } := by
  simp only [plantUp, h]
  exact ⟨_, _, rfl⟩

/-- ROUTE_SEL's table written: that field holds it, and every other register stands. -/
theorem wrF_routeTable (s : State) (c : Charter) : ∃ regs, wrF s 0x00508004 0 2 (lowestTable c) = { s with regs := regs } ∧
    rdF { s with regs := regs } 0x00508004 0 2 = lowestTable c ∧
    ∀ a, a ≠ 0x00508004 → rd { s with regs := regs } a = rd s a :=
  ⟨_, rfl, (rdF_wrF s _ _ _ _ (by decide)).trans (Nat.mod_eq_of_lt (lowestTable_lt c)),
    fun _ => rd_wrF_other s _ _ _ _ _⟩

/-- PLANT_ARM_DONE without a loss: READY, with what the handshake and the ports leave. -/
theorem exec_plantArmDone_ready {s : State} (h : s.armed) (ha : s.boot.armFail = false) (hc : s.charter.isLimp = false)
    {k : Option ConvAnswer} {v : BitVec 12} {plt : Plant} {regs₀ : List (Nat × W32)} {ras : Ras}
    (e : handshake s k v = { s with plt := plt, regs := regs₀, ras := ras }) : ∃ hq lnk regs,
      exec (.plantArmDone k v) s = doneBoot s { s with
        plt := plt, regs := regs, ras := ras, hq := hq, lnk := lnk
        boot := s.boot.up .ready ((s.time - s.boot.seqAt + s.boot.seqLead) / 1000000) 127 } ∧
      (∀ tp, s.charter.topo = some tp → ∀ g < 16,
        (lnk.ports.get {} g).st = if tp.ports.getLsbD g then .training else (s.port g).st) ∧
      (s.charter.topo = none → lnk = s.lnk) ∧ rdF { s with regs := regs } 0x00508004 0 2 = lowestTable s.charter ∧
      ∀ a, a ≠ 0x00508004 → rd { s with regs := regs } a = rd { s with regs := regs₀ } a := by
  obtain ⟨hq, e₁⟩ := plantUp_ready (t := { s with plt := plt, regs := regs₀, ras := ras }) hc
  obtain ⟨lnk, e₂, hst, hnone⟩ := armPorts_eq { s with
    plt := plt, regs := regs₀, ras := ras, hq := hq
    boot := s.boot.up .ready ((s.time - s.boot.seqAt + s.boot.seqLead) / 1000000) 127 }
  obtain ⟨regs, e₃, htable, hrd⟩ := wrF_routeTable { s with
    plt := plt, regs := regs₀, ras := ras, hq := hq, lnk := lnk
    boot := s.boot.up .ready ((s.time - s.boot.seqAt + s.boot.seqLead) / 1000000) 127 } s.charter
  refine ⟨hq, lnk, regs, ?_, hst, hnone, htable, hrd⟩
  rw [exec_plantArmDone h, e, if_neg (by simp [ha])]
  exact congrArg (doneBoot s) (e₁.trans ((congrArg (wrF · 0x00508004 0 2 (lowestTable s.charter)) e₂).trans e₃))

/-! ## LIMP's entry -/

theorem rd_clearRegs (s : State) (lo hi a : Nat) (h : lo ≤ a ∧ a < hi) : rd (clearRegs s lo hi) a = resetVal a := by
  have hl := look_filter_key s.regs (fun p => !(lo ≤ p && p < hi)) a
  rw [if_neg (by simp [h])] at hl
  simp only [rd, clearRegs]
  rw [hl]
  rfl

/-- LIMP's entry before the scheduler's books are cleared. -/
def limpPlant (s : State) : State :=
  let t := clearRegs (applyCharter s limpCharter) 0x00020100 0x00020180
  { t with
    gov := { t.gov with parts := {}, a := limpLoops t.gov.a, b := limpLoops t.gov.b, trim := 0x4000, frozen := false,
                        residual := 0, carried := 0 }
    plt := { t.plt with sensors := {}, active := t.plt.active.filter limpLoss, coulomb := 0, eVolt := 0, convOk := false,
                        vFull := 0, vEmpty := 0, dueAt := none, convOff := none, noTel := [], mlMin := 0, badGates := 0,
                        goodGates := 0 } }

theorem limpEntry_only_sch (s : State) : limpEntry s = { limpPlant s with sch := (limpEntry s).sch } := by
  have hparts : upTo 8 (limpPlant s) (fun u p => u.setPartS p { u.partS p with used := 0 }) =
      { limpPlant s with sch := (upTo 8 (limpPlant s) (fun u p => u.setPartS p { u.partS p with used := 0 })).sch } :=
    upTo_induct (fun u : State => u = { limpPlant s with sch := u.sch }) _ _ _ rfl fun u p hu => by rw [State.setPartS, hu]
  exact upTo_induct (fun u : State => u = { limpPlant s with sch := u.sch }) _ _ _ hparts fun u f hu => by
    rw [State.setFnS, hu]

theorem limpEntry_used (s : State) (p : Nat) (hp : p < 8) : ((limpEntry s).partS p).used = 0 := by
  have h := upTo_at_index (fun (u : State) p => (u.partS p).used) (fun _ _ => 0)
    (fun u p => u.setPartS p { u.partS p with used := 0 }) (fun u k => by simp) (fun u k j hj => by simp [hj]) 8
    (limpPlant s) p
  rw [if_pos hp] at h
  refine Eq.trans ?_ h
  exact upTo_keeps (fun u : State => (u.partS p).used) _ _ _ fun _ _ => rfl

theorem limpEntry_deficit (s : State) (f : Nat) (hf : f < 128) : ((limpEntry s).fnS f).deficit = 0 := by
  have h := upTo_at_index (fun (u : State) f => (u.fnS f).deficit) (fun _ _ => 0)
    (fun u f => u.setFnS f { u.fnS f with deficit := 0 }) (fun u k => by simp) (fun u k j hj => by simp [hj]) 128
    (upTo 8 (limpPlant s) (fun u p => u.setPartS p { u.partS p with used := 0 })) f
  rwa [if_pos hf] at h

/-- LIMP's entry: its values and its plant, with the scheduler's books from zero (R51, R61). -/
theorem limpEntry_eq (s : State) : ∃ sch, limpEntry s = { limpPlant s with sch := sch } ∧
    (∀ p < 8, (sch.parts.get {} p).used = 0) ∧ ∀ f < 128, (sch.fns.get {} f).deficit = 0 :=
  ⟨_, limpEntry_only_sch s, limpEntry_used s, limpEntry_deficit s⟩

/-- LIMP's entry clears the partitions' accounts (R61). -/
theorem limpPlant_books (s : State) (p : Nat) (hp : p < 8) : rd (limpPlant s) (0x0002010C + 0x10 * p) = 0 := by
  have h : rd (limpPlant s) (0x0002010C + 0x10 * p) = resetVal (0x0002010C + 0x10 * p) := rd_clearRegs _ _ _ _ (by omega)
  rw [h, resetVal, if_neg (by omega), if_neg (by omega), if_neg (by omega), if_neg (by omega)]

/-- PLANT_ARM_DONE after a loss of PLANT_ARM: LIMP. -/
theorem exec_plantArmDone_loss {s : State} (h : s.armed) (ha : s.boot.armFail = true) (hc : s.charter.isLimp = false)
    (k : Option ConvAnswer) (v : BitVec 12) : ∃ plt regs ras hq bootMs sch,
      exec (.plantArmDone k v) s = doneBoot s { limpPlant { s with plt := plt, regs := regs, ras := ras } with
        sch := sch, hq := hq
        boot := (limpPlant { s with plt := plt, regs := regs, ras := ras }).boot.up .limp bootMs 0 } ∧
      (∀ p < 8, (sch.parts.get {} p).used = 0) ∧ ∀ f < 128, (sch.fns.get {} f).deficit = 0 := by
  obtain ⟨plt, regs, ras, e, -⟩ := handshake_eq s k v
  obtain ⟨sch, e₁, hused, hdeficit⟩ := limpEntry_eq { s with plt := plt, regs := regs, ras := ras }
  obtain ⟨hq, bootMs, e₂⟩ :=
    plantUp_limp (t := { limpPlant { s with plt := plt, regs := regs, ras := ras } with sch := sch }) rfl
  have hguard : (s.boot.armFail && !s.charter.isLimp) = true := by rw [ha, hc]; rfl
  refine ⟨plt, regs, ras, hq, bootMs, sch, ?_, hused, hdeficit⟩
  rw [exec_plantArmDone h, e]
  exact congrArg (doneBoot s) ((congrArg plantUp ((if_pos hguard).trans e₁)).trans e₂)

/-- PLANT_ARM_DONE with no valid Charter: LIMP, as the load left it. -/
theorem exec_plantArmDone_limp {s : State} (h : s.armed) (hc : s.boot.charter = limpCharter)
    (k : Option ConvAnswer) (v : BitVec 12) : ∃ hq bootMs,
      exec (.plantArmDone k v) s = doneBoot s { s with hq := hq, boot := s.boot.up .limp bootMs 0 } := by
  have hl : s.charter.isLimp = true := by rw [State.charter, hc]; rfl
  have hu : s.charter.usableLu = 0 := by rw [State.charter, hc]; rfl
  obtain ⟨hq, bootMs, e⟩ := plantUp_limp hl
  refine ⟨hq, bootMs, ?_⟩
  rw [exec_plantArmDone h, handshake_of_noReservoir s k v hu, hl, if_neg (by simp), e]

/-! ## The obligation -/

/-- Settles O6: each row of PLANT_ARM by what it answers under its guard. -/
theorem plantArmRowsTakeEffect : Obligations.PlantArmRowsTakeEffect := by
  refine ⟨fun s h ht => ?_, fun l s hl h hi hc => ?_, fun k v s h hs hb hi ha hc => ?_, fun k v s h hs hb hi ha hc => ?_,
    fun k v s h hs hb hi ha hc => ?_, fun k v s h hs hb hc => ?_, fun s => ?_⟩
  · obtain ⟨hd, hf⟩ := h
    obtain ⟨regs, ras, active, e, hflag, hcount, hon⟩ :=
      activate_raiseLoss_eq { s with boot := { s.boot with armTach := true, armFail := true } } 3 .pumpTach (by decide)
    have hexec : exec .pumpTachWindowExpiry s = doneBoot s _ := if_neg (by simp [hd, ht, hf])
    rw [e] at hexec
    exact runs_of_doneBoot hexec ⟨rfl, hflag, hcount.trans (rd_inc16_congr _ rfl), hon⟩
  · have hexec := exec_i3cEnumerationDone hl h hi hc
    split at hexec
    next hany => exact runs_of_doneBoot hexec ⟨rfl, rfl, State.enumerated_iff s l, (if_pos hany).mpr ⟨rfl, rfl, rfl, rfl⟩⟩
    next hany =>
      obtain ⟨regs, ras, active, e, hflag, -, hon⟩ := activate_raiseLoss_eq { s.enumerated l with
        boot := { s.boot with i3cDone := true, armInlet := true, armFail := true } } 5 .inletAll (by decide)
      rw [e] at hexec
      exact runs_of_doneBoot hexec ⟨rfl, rfl, State.enumerated_iff s l, (if_neg hany).mpr ⟨hflag, rfl, hon⟩⟩
  · obtain ⟨plt, regs₀, ras, e, -⟩ := handshake_eq s k v
    obtain ⟨hq, lnk, regs, hexec, hst, hnone, htable, -⟩ := exec_plantArmDone_ready ⟨h, hs, hb, .inl hi⟩ ha hc e
    exact runs_of_doneBoot hexec ⟨⟨rfl, h.2⟩, rfl, rfl, hst, hnone, rfl, rfl, rfl, rfl, htable⟩
  · obtain ⟨plt, regs₀, ras, e, hnoRes, hsome, hnone⟩ := handshake_eq s k v
    obtain ⟨hq, lnk, regs, hexec, -, -, -, hrd⟩ := exec_plantArmDone_ready ⟨h, hs, hb, .inl hi⟩ ha hc e
    refine runs_of_doneBoot hexec ⟨hnoRes, hsome, fun hk hu => ?_⟩
    obtain ⟨hflag, hon⟩ := hnone hk hu
    refine ⟨?_, hon⟩
    rw [← hflag]
    exact congrArg (fun w : W32 => w.toNat.testBit 2) (hrd _ (by decide))
  · obtain ⟨plt, regs, ras, hq, bootMs, sch, hexec, hused, hdeficit⟩ :=
      exec_plantArmDone_loss ⟨h, hs, hb, .inl hi⟩ ha hc k v
    exact runs_of_doneBoot hexec ⟨⟨rfl, h.2⟩, rfl, rfl, rfl, rfl, rfl, rfl, rfl, rfl, hused, hdeficit,
      limpPlant_books { s with plt := plt, regs := regs, ras := ras },
      rfl, rfl, rfl, rfl, rfl, rfl, rfl, rfl, rfl, rfl⟩
  · obtain ⟨hq, bootMs, hexec⟩ := exec_plantArmDone_limp ⟨h, hs, hb, .inr (by rw [State.charter, hc]; rfl)⟩ hc k v
    exact runs_of_doneBoot hexec ⟨⟨rfl, h.2⟩, rfl, rfl, rfl, rfl, hc, rfl, rfl, rfl⟩
  · exact runs_of_doneBoot (rfl : execConfigRetry s = _) ⟨rfl, fun hl hr hm => by simp [crsNow, hl, hr, hm]⟩

end Sys2Proof.Machine

namespace Sys2Proof.Machine

/-! # Divergences, resynchronisation and heartbeats (R73 to R77) -/

/-- A row that answers by `done` runs. -/
theorem runs_of_done {i : Instr} {s t : State} {P : State → Prop} (h : exec i s = done s t)
    (hp : P { t with pending := s.pending, flash := s.flash, time := s.time, boot := s.boot, sb := s.sb,
                     freeIdx := s.freeIdx + 1 }) : Runs i s P :=
  ⟨_, h, hp⟩

/-! ## The order of the places -/

theorem eq_channel0_of_divRank {d : DivAt} (h : divRank d < 1) : d = .channel 0 := by
  cases d with
  | field k => simp [divRank] at h
  | channel n => exact congrArg _ (Fin.ext (Nat.lt_one_iff.1 h))

theorem pairwise_of_rising {α : Type} (l : List α) (k : α → Nat) (h : rising (l.map fun x => (k x, ())) = true) :
    l.Pairwise (fun x y => k x < k y) := by
  induction l with
  | nil => exact .nil
  | cons x r ih =>
    obtain ⟨hx, hr⟩ := (rising_cons (k x) () _).1 h
    exact .cons (fun y hy => hx _ (List.mem_map_of_mem hy)) (ih hr)

theorem wfPlaces_iff (l : List DivAt) : wfPlaces l = true ↔ l ≠ [] ∧ rising (l.map fun d => (divRank d, ())) = true := by
  simp [wfPlaces]

theorem map_at_diffsOf {p : List DivAt} {a b : List Nat} (ha : a.length = p.length) (hb : b.length = p.length) :
    (diffsOf p a b).map (·.at_) = p := by
  simp only [diffsOf, List.map_map]
  exact List.map_fst_zip (by simp [ha, hb])

/-- The differences of a well-formed row: one at each place, in the order of the places, each of two different values. -/
theorem diffsOf_of_wf {p : List DivAt} {a b : List Nat} (h : Instr.wf (.comparatorDivergence p a b) = true) :
    (diffsOf p a b).map (·.at_) = p ∧ (diffsOf p a b).Pairwise (fun d e => divRank d.at_ < divRank e.at_) ∧
      ∀ d ∈ diffsOf p a b, d.a ≠ d.b := by
  simp only [Instr.wf, Bool.and_eq_true, beq_iff_eq, List.all_eq_true, bne_iff_ne] at h
  obtain ⟨⟨⟨hp, ha⟩, hb⟩, hne⟩ := h
  have hat := map_at_diffsOf ha hb
  refine ⟨hat, ?_, hne⟩
  have hr := pairwise_of_rising p divRank ((wfPlaces_iff p).1 hp).2
  rwa [← hat, List.pairwise_map] at hr

/-- The place recorded is the first of those that differ. -/
theorem lowestDiv_spec (l : List DivAt) :
    (lowestDiv l = none ↔ l = []) ∧ ∀ w, lowestDiv l = some w → w ∈ l ∧ ∀ e ∈ l, divRank w ≤ divRank e := by
  induction l with
  | nil => simp [lowestDiv]
  | cons x r ih =>
    simp only [lowestDiv]
    cases hr : lowestDiv r with
    | none => simp [ih.1.1 hr]
    | some y =>
      obtain ⟨hy, hmin⟩ := ih.2 y hr
      grind

theorem exists_lowestDiv {l : List DivAt} (h : l ≠ []) :
    ∃ w, lowestDiv l = some w ∧ w ∈ l ∧ ∀ e ∈ l, divRank w ≤ divRank e := by
  cases hw : lowestDiv l with
  | none => exact absurd ((lowestDiv_spec l).1.1 hw) h
  | some w => exact ⟨w, rfl, (lowestDiv_spec l).2 w hw⟩

/-! ## The more restrictive values (R73) -/

/-- One difference narrows the values held. -/
def restrictAt (s : State) (d : Diff) (h : Held) : Held :=
  match d.at_ with | .channel n => restrictCh s h n d.a d.b | .field _ => h

theorem restrictive_eq (s : State) (ds : List Diff) : restrictive s ds = ds.foldr (restrictAt s) (agreed s) := rfl

/-- The clamp target of two values of channel 0 that differ. -/
def clampTarget (a b : Nat) : Nat := if a = 0 then b - 1 else if b = 0 then a - 1 else Nat.min a b - 1

theorem restrictAt_channel0 (s : State) {d : Diff} (h : Held) (hd : d.at_ = .channel 0) (hne : d.a ≠ d.b) :
    restrictAt s d h = { h with clamp := true, targetW := Nat.min h.targetW (clampTarget d.a d.b)
                                k := Nat.min h.k (clampK s (clampTarget d.a d.b)) } := by
  simp only [restrictAt, hd]
  exact if_neg (by omega)

theorem restrictAt_channel1 (s : State) {d : Diff} (h : Held) (hd : d.at_ = .channel 1) :
    restrictAt s d h = { h with targetW := Nat.min d.a d.b } := by
  simp only [restrictAt, hd]
  rfl

theorem restrictAt_channel2 (s : State) {d : Diff} (h : Held) (hd : d.at_ = .channel 2) :
    restrictAt s d h = { h with ceilMhz := Nat.min d.a d.b } := by
  simp only [restrictAt, hd]
  rfl

theorem restrictAt_channel3 (s : State) {d : Diff} (h : Held) (hd : d.at_ = .channel 3) :
    restrictAt s d h = { h with exhausted := d.a ||| d.b } := by
  simp only [restrictAt, hd]
  rfl

/-- Each value held is of its channels: another difference leaves it. -/
theorem restrictAt_other (s : State) (d : Diff) (h : Held) :
    (d.at_ ≠ .channel 0 → (restrictAt s d h).clamp = h.clamp ∧ (restrictAt s d h).k = h.k) ∧
    (d.at_ ≠ .channel 0 → d.at_ ≠ .channel 1 → (restrictAt s d h).targetW = h.targetW) ∧
    (d.at_ ≠ .channel 2 → (restrictAt s d h).ceilMhz = h.ceilMhz) ∧
    (d.at_ ≠ .channel 3 → (restrictAt s d h).exhausted = h.exhausted) := by
  cases hd : d.at_ with
  | field k => simp [restrictAt, hd]
  | channel n =>
    simp only [restrictAt, hd, restrictCh]
    split <;> grind

theorem foldr_keeps {α β γ : Type} (g : β → γ) (f : α → β → β) (b : β) (l : List α) (h : ∀ a ∈ l, ∀ x, g (f a x) = g x) :
    g (l.foldr f b) = g b := by
  induction l with
  | nil => rfl
  | cons a r ih =>
    exact (h a (List.mem_cons_self ..) _).trans (ih fun c hc => h c (List.mem_cons_of_mem _ hc))

section
variable {s : State} {on : List Diff} (hs : on.Pairwise fun d e => divRank d.at_ < divRank e.at_) {d : Diff} (hd : d ∈ on)
include hs hd

/-- What only the place of `d` narrows has the value that `d` gives it. -/
theorem restrictive_at {γ : Type} (g : Held → γ) (hg : ∀ e x, e.at_ ≠ d.at_ → g (restrictAt s e x) = g x) :
    ∃ x, g x = g (agreed s) ∧ g (restrictive s on) = g (restrictAt s d x) := by
  obtain ⟨l, r, rfl⟩ := List.append_of_mem hd
  obtain ⟨-, hr, hl⟩ := List.pairwise_append.1 hs
  refine ⟨r.foldr (restrictAt s) (agreed s), foldr_keeps g _ _ _ fun e he x => hg e x fun heq => ?_, ?_⟩
  · have := List.rel_of_pairwise_cons hr he
    rw [heq] at this
    exact absurd this (Nat.lt_irrefl _)
  · rw [restrictive_eq, List.foldr_append]
    refine foldr_keeps g _ _ _ fun e he x => hg e x fun heq => ?_
    have := hl e he d (List.mem_cons_self ..)
    rw [heq] at this
    exact absurd this (Nat.lt_irrefl _)

/-- The clamp's target comes after a held power target, and only lowers it. -/
theorem restrictive_targetW_le (hone : ∀ e ∈ on, e.a ≠ e.b) (h1 : divRank d.at_ ≤ 1) :
    ∃ x, (restrictive s on).targetW ≤ (restrictAt s d x).targetW := by
  obtain ⟨l, r, rfl⟩ := List.append_of_mem hd
  obtain ⟨-, -, hl⟩ := List.pairwise_append.1 hs
  refine ⟨r.foldr (restrictAt s) (agreed s), ?_⟩
  rw [restrictive_eq, List.foldr_append, List.foldr_cons]
  generalize restrictAt s d _ = x
  have h0 : ∀ e ∈ l, e.at_ = .channel 0 := fun e he =>
    eq_channel0_of_divRank (Nat.lt_of_lt_of_le (hl e he d (List.mem_cons_self ..)) h1)
  have hne : ∀ e ∈ l, e.a ≠ e.b := fun e he => hone e (List.mem_append_left _ he)
  clear hs hd hl hone
  induction l with
  | nil => exact Nat.le_refl _
  | cons e l ih =>
    rw [List.foldr_cons, restrictAt_channel0 s _ (h0 e (List.mem_cons_self ..)) (hne e (List.mem_cons_self ..))]
    exact Nat.le_trans (Nat.min_le_left ..)
      (ih (fun c hc => h0 c (List.mem_cons_of_mem _ hc)) fun c hc => hne c (List.mem_cons_of_mem _ hc))

end

/-- What channels 0 to 3 hold after the differences `on` of a tick, of places in their order (R73). -/
theorem restrictive_spec (s : State) (on : List Diff) (hs : on.Pairwise fun d e => divRank d.at_ < divRank e.at_)
    (hne : ∀ d ∈ on, d.a ≠ d.b) :
    (∀ d ∈ on, d.at_ = .channel 0 → (restrictive s on).clamp = true ∧
      (restrictive s on).k = Nat.min s.gov.a.k (clampK s (clampTarget d.a d.b)) ∧
      (restrictive s on).targetW ≤ clampTarget d.a d.b) ∧
    (∀ d ∈ on, d.at_ = .channel 1 → (restrictive s on).targetW ≤ Nat.min d.a d.b) ∧
    (∀ d ∈ on, d.at_ = .channel 2 → (restrictive s on).ceilMhz = Nat.min d.a d.b) ∧
    (∀ d ∈ on, d.at_ = .channel 3 → (restrictive s on).exhausted = (d.a ||| d.b)) ∧
    ((∀ d ∈ on, d.at_ ≠ .channel 0) → (restrictive s on).clamp = s.gov.a.clamp ∧ (restrictive s on).k = s.gov.a.k) ∧
    ((∀ d ∈ on, d.at_ ≠ .channel 0) → (∀ d ∈ on, d.at_ ≠ .channel 1) →
      (restrictive s on).targetW = s.gov.a.powerTargetW) ∧
    ((∀ d ∈ on, d.at_ ≠ .channel 2) → (restrictive s on).ceilMhz = s.gov.a.ceilMhz) ∧
    ((∀ d ∈ on, d.at_ ≠ .channel 3) → (restrictive s on).exhausted = flags8 (exhaustedNow s)) := by
  have other := restrictAt_other s
  refine ⟨fun d hd h0 => ⟨?_, ?_, ?_⟩, fun d hd h1 => ?_, fun d hd h2 => ?_, fun d hd h3 => ?_, fun h0 => ⟨?_, ?_⟩,
    fun h0 h1 => ?_, fun h2 => ?_, fun h3 => ?_⟩
  · obtain ⟨x, -, h⟩ := restrictive_at hs hd Held.clamp fun e x he => ((other e x).1 (h0 ▸ he)).1
    rw [h, restrictAt_channel0 s x h0 (hne d hd)]
  · obtain ⟨x, hx, h⟩ := restrictive_at hs hd Held.k fun e x he => ((other e x).1 (h0 ▸ he)).2
    rw [h, restrictAt_channel0 s x h0 (hne d hd)]
    exact congrArg (Nat.min · _) hx
  · obtain ⟨x, h⟩ := restrictive_targetW_le hs hd hne (by simp [h0, divRank])
    rw [restrictAt_channel0 s x h0 (hne d hd)] at h
    exact Nat.le_trans h (Nat.min_le_right ..)
  · obtain ⟨x, h⟩ := restrictive_targetW_le hs hd hne (by simp [h1, divRank])
    rwa [restrictAt_channel1 s x h1] at h
  · obtain ⟨x, -, h⟩ := restrictive_at hs hd Held.ceilMhz fun e x he => (other e x).2.2.1 (h2 ▸ he)
    rw [h, restrictAt_channel2 s x h2]
  · obtain ⟨x, -, h⟩ := restrictive_at hs hd Held.exhausted fun e x he => (other e x).2.2.2 (h3 ▸ he)
    rw [h, restrictAt_channel3 s x h3]
  · exact foldr_keeps Held.clamp _ _ _ fun d hd x => ((other d x).1 (h0 d hd)).1
  · exact foldr_keeps Held.k _ _ _ fun d hd x => ((other d x).1 (h0 d hd)).2
  · exact foldr_keeps Held.targetW _ _ _ fun d hd x => (other d x).2.1 (h0 d hd) (h1 d hd)
  · exact foldr_keeps Held.ceilMhz _ _ _ fun d hd x => (other d x).2.2.1 (h2 d hd)
  · exact foldr_keeps Held.exhausted _ _ _ fun d hd x => (other d x).2.2.2 (h3 d hd)

/-! ## What is counted and logged -/

/-- What register `a` of a register file holds. -/
def regAt (r : List (Nat × W32)) (a : Nat) : W32 := (look r a).getD (resetVal a)

theorem rdF_eq_regAt (s : State) (a lo len : Nat) : rdF s a lo len = fld (regAt s.regs a).toNat lo len := rfl

/-- An error's counter moves on by one, up to its end, and no other register changes (R344). -/
theorem inc16_eq (s : State) (a : Nat) : ∃ regs, inc16 s a = { s with regs := regs } ∧
    fld (regAt regs a).toNat 0 16 = Nat.min (rdF s a 0 16 + 1) 0xFFFF ∧ ∀ b, b ≠ a → regAt regs b = regAt s.regs b :=
  ⟨_, rfl, rdF_inc16_same s a, fun b h => rd_inc16_other s a b h⟩

/-- A chip error changes no register but its count and the log's status. -/
theorem regAt_chipErr (s : State) (code sub b i d : Nat) (a : Nat) (h : a < 0x00800000) :
    regAt (chipErr s code sub b i d).regs a = regAt s.regs a :=
  chipErr_rd s code sub b i d a (by omega) (by omega)

/-- A clamp that only the held values assert is counted and logged; nothing else is reported. -/
theorem noteHeldClamp_eq (s : State) : ∃ regs ras clampAt,
    noteHeldClamp s = { s with regs := regs, ras := ras, plt := { s.plt with clampAt := clampAt } } ∧
      ∀ a < 0x00030000, regAt regs a = regAt s.regs a := by
  unfold noteHeldClamp
  split
  · split
    · obtain ⟨regs₁, e₁, -, hother⟩ := inc16_eq s 0x000300AC
      have hrd := regAt_chipErr { s with regs := regs₁, plt := { s.plt with clampAt := s.time } } 0x45 0 2 0 0
      obtain ⟨regs, ras, e⟩ := chipErr_eq { s with regs := regs₁, plt := { s.plt with clampAt := s.time } } 0x45 0 2 0 0
      rw [e] at hrd
      rw [e₁]
      exact ⟨regs, ras, s.time, e, fun a ha => (hrd a (by omega)).trans (hother a (by omega))⟩
    · exact ⟨s.regs, s.ras, s.plt.clampAt, rfl, fun _ _ => rfl⟩
  · exact ⟨s.regs, s.ras, s.plt.clampAt, rfl, fun _ _ => rfl⟩

theorem comparatorLost_eq (s : State) : ∃ regs ras, comparatorLost s = { s with
    regs := regs, ras := ras
    gov := { s.gov with lost := true, limpPower := true, bHalted := true, resync := .none, held := none, injA := none,
                        injB := none } } :=
  chipErr_eq ..

/-- The governors' state once the divergences `on` are counted, the first of them at `w`, and a resynchronisation waits. -/
def govDiverged (s : State) (w : DivAt) (on : List Diff) : Gov :=
  { s.gov with lastDiverge := divWord w true, divTick := some s.gov.tickNo, resync := .waiting
               held := some (restrictive s on), injA := none, injB := none, resyncAt := s.time }

/-- What COMPARATOR_DIVERGENCE does before it asks how long ago the last resynchronisation ended. -/
def diverged (s : State) (w : DivAt) (on : List Diff) : State :=
  let t := inc16 s 0x00020044
  let t := { t with gov := { t.gov with lastDiverge := divWord w true, divTick := some s.gov.tickNo } }
  noteHeldClamp (startResync t (restrictive s on))

theorem startResync_eq (s : State) (h : Held) : ∃ regs, startResync s h = { s with
      regs := regs
      gov := { s.gov with resync := .waiting, held := some h, injA := none, injB := none, resyncAt := s.time } } ∧
    fld (regAt regs 0x00020048).toNat 0 16 = Nat.min (rdF s 0x00020048 0 16 + 1) 0xFFFF ∧
    ∀ b, b ≠ 0x00020048 → regAt regs b = regAt s.regs b := by
  obtain ⟨regs, e, h48, hother⟩ := inc16_eq s 0x00020048
  refine ⟨regs, ?_, h48, hother⟩
  rw [startResync, e]

theorem diverged_eq (s : State) (w : DivAt) (on : List Diff) : ∃ regs ras clampAt,
    diverged s w on = { s with
      regs := regs, ras := ras, gov := govDiverged s w on, plt := { s.plt with clampAt := clampAt } } ∧
    fld (regAt regs 0x00020044).toNat 0 16 = Nat.min (rdF s 0x00020044 0 16 + 1) 0xFFFF ∧
    fld (regAt regs 0x00020048).toNat 0 16 = Nat.min (rdF s 0x00020048 0 16 + 1) 0xFFFF := by
  obtain ⟨regs₁, e₁, h44, hother₁⟩ := inc16_eq s 0x00020044
  obtain ⟨regs₂, e₂, h48, hother₂⟩ := startResync_eq { s with
    regs := regs₁, gov := { s.gov with lastDiverge := divWord w true, divTick := some s.gov.tickNo } } (restrictive s on)
  obtain ⟨regs, ras, clampAt, e, hrd⟩ := noteHeldClamp_eq { s with regs := regs₂, gov := govDiverged s w on }
  refine ⟨regs, ras, clampAt, ?_, ?_, ?_⟩
  · rw [diverged, e₁]
    exact (congrArg noteHeldClamp e₂).trans e
  · rw [hrd _ (by decide), hother₂ _ (by decide), h44]
  · rw [hrd _ (by decide), h48, rdF_eq_regAt, hother₁ _ (by decide), rdF_eq_regAt]

/-- COMPARATOR_DIVERGENCE with something enabled that differs. -/
theorem exec_comparatorDivergence {p : List DivAt} {a b : List Nat} {s : State}
    (hw : Instr.wf (.comparatorDivergence p a b) = true) (hc : comparing s = true) {w : DivAt}
    (hl : lowestDiv (((diffsOf p a b).filter fun d => divOn s d.at_).map (·.at_)) = some w) :
    exec (.comparatorDivergence p a b) s =
      if s.gov.lastResyncEnd.any (fun t => s.time ≤ t + 10 * ms) then
        done s (comparatorLost (diverged s w ((diffsOf p a b).filter fun d => divOn s d.at_)))
      else done s (diverged s w ((diffsOf p a b).filter fun d => divOn s d.at_)) := by
  show execComparatorDivergence p a b s = _
  rw [execComparatorDivergence, if_pos hw]
  extract_lets on
  split
  next h => cases h.symm.trans hl
  next w' h =>
    cases h.symm.trans hl
    exact if_neg (by simp [hc])

/-- Of enabled places that differ there is a first. -/
theorem exists_lowestDiv_on {p : List DivAt} {a b : List Nat} {s : State}
    (hw : Instr.wf (.comparatorDivergence p a b) = true) (hp : ∃ d ∈ p, divOn s d = true) :
    ∃ d ∈ (diffsOf p a b).filter fun d => divOn s d.at_,
      lowestDiv (((diffsOf p a b).filter fun d => divOn s d.at_).map (·.at_)) = some d.at_ ∧
      ∀ e ∈ (diffsOf p a b).filter fun d => divOn s d.at_, divRank d.at_ ≤ divRank e.at_ := by
  obtain ⟨x, hx, hon⟩ := hp
  rw [← (diffsOf_of_wf hw).1, List.mem_map] at hx
  obtain ⟨d, hd, rfl⟩ := hx
  have hmem : d ∈ (diffsOf p a b).filter fun d => divOn s d.at_ := List.mem_filter.2 ⟨hd, hon⟩
  obtain ⟨w, hl, hw, hmin⟩ := exists_lowestDiv (List.ne_nil_of_mem (List.mem_map_of_mem (f := (·.at_)) hmem))
  obtain ⟨f, hf, rfl⟩ := List.mem_map.1 hw
  exact ⟨f, hf, hl, fun e he => hmin _ (List.mem_map_of_mem he)⟩

/-- What is latent and differs: channel 31 inside a heartbeat window is not (R76). -/
def latentAt (s : State) (ds : List DivAt) : List DivAt :=
  ds.filter fun d => !((s.gov.injA.isSome || s.gov.injB.isSome) && d == .channel 31)

theorem latentAt_ne_nil {s : State} {ds : List DivAt} (hw : Instr.wf (.latentDivergence ds) = true)
    (h : (∃ d ∈ ds, d ≠ .channel 31) ∨ s.gov.injA = none ∧ s.gov.injB = none) : latentAt s ds ≠ [] := by
  rcases h with ⟨d, hd, hne⟩ | ⟨ha, hb⟩
  · exact List.ne_nil_of_mem (List.mem_filter.2 ⟨hd, by simp [hne]⟩)
  · simpa [latentAt, ha, hb] using ((wfPlaces_iff ds).1 hw).1

/-- The governors' state once a latent divergence at `w` is counted (R74). -/
def govLatent (s : State) (w : DivAt) : Gov :=
  { s.gov with lastDiverge := divWord w false, divTick := some s.gov.tickNo
               thisEpochLatent := Nat.min 16 (s.gov.thisEpochLatent + 1) }

theorem exec_latentDivergence {ds : List DivAt} {s : State} (hw : Instr.wf (.latentDivergence ds) = true)
    (hc : comparing s = true) (hoff : ∀ d ∈ ds, divOn s d = false) {w : DivAt}
    (hl : lowestDiv (latentAt s ds) = some w) :
    exec (.latentDivergence ds) s = done s
      (if Nat.min 16 (s.gov.thisEpochLatent + 1) = 16 ∧ s.gov.thisEpochLatent ≠ 16 then
        startResync { inc16 s 0x00020040 with gov := govLatent s w } (agreed { inc16 s 0x00020040 with gov := govLatent s w })
      else { inc16 s 0x00020040 with gov := govLatent s w }) := by
  have hany : ds.any (divOn s) = false := List.any_eq_false.2 fun d hd => by simp [hoff d hd]
  show execLatentDivergence ds s = _
  rw [execLatentDivergence, if_pos hw]
  extract_lets hb
  split
  next h => cases h.symm.trans hl
  next w' h =>
    cases h.symm.trans hl
    exact if_neg (by simp [hc, hany])

/-- A latent divergence starts a resynchronisation when its epoch's count reaches 16. -/
theorem latent_sixteenth (n : Nat) : Nat.min 16 (n + 1) = 16 ∧ n ≠ 16 ↔ n = 15 ∨ 16 < n := by
  change min 16 (n + 1) = 16 ∧ n ≠ 16 ↔ n = 15 ∨ 16 < n
  omega

theorem resync_of_comparing {s : State} (h : comparing s = true) : s.gov.resync = .none := by
  simp only [comparing, Bool.and_eq_true, beq_iff_eq] at h
  obtain ⟨⟨⟨-, h⟩, -⟩, -⟩ := h
  exact h

/-- A mismatch of channel 31 inside a heartbeat window is that injection's flag (R76). -/
theorem exec_latentDivergence_heartbeat {s : State} (h : s.gov.injA ≠ none ∨ s.gov.injB ≠ none) :
    exec (.latentDivergence [.channel 31]) s = done s s := by
  have hinj : (s.gov.injA.isSome || s.gov.injB.isSome) = true := by
    simpa [Option.isSome_iff_ne_none] using h
  show execLatentDivergence _ s = _
  rw [execLatentDivergence, if_pos (by decide), hinj]
  rfl

/-- RESYNC_COMPLETE: a hold that stretched the clocks more than A does leaves its length in PLT_CLAMP_COUNT; without a hold no
register changes. -/
theorem exec_resyncComplete {s : State} (hr : s.gov.resync = .restarting) (ht : s.gov.resyncAt ≤ s.time) : ∃ regs,
    exec .resyncComplete s = done s { s with
      regs := regs, gov := { s.gov with resync := .none, held := none, lastResyncEnd := some s.time } } ∧
    (s.gov.held = none → regs = s.regs) := by
  have hexec : exec .resyncComplete s = _ := if_neg (by simp [hr, ht])
  rw [hexec]
  split
  next h =>
    refine ⟨_, rfl, fun hh => ?_⟩
    simp only [stretchK, hh] at h
    omega
  · exact ⟨s.regs, rfl, fun _ => rfl⟩

/-! ## The obligation -/

/-- Settles O11: each row by what it answers under its guard. -/
theorem comparatorEventsTakeEffect : Obligations.ComparatorEventsTakeEffect := by
  refine ⟨fun p a b s hw hc hp hend => ?_, fun p a b e s hw hc hp he ht => ?_, fun ds s hw hc hoff hds => ?_, fun s h => ?_,
    fun s hr ht => ?_, fun s hr ht ht' => ?_, fun s hr ht => ?_, fun g s hs hl hr ht => ?_, fun g e s hg ht => ?_,
    fun g e s hg ht => ?_⟩
  · obtain ⟨d, hd, hl, hmin⟩ := exists_lowestDiv_on hw hp
    obtain ⟨-, hsorted, hne⟩ := diffsOf_of_wf hw
    obtain ⟨regs, ras, clampAt, e, h44, h48⟩ := diverged_eq s d.at_ ((diffsOf p a b).filter fun d => divOn s d.at_)
    have hlate : s.gov.lastResyncEnd.any (fun t => s.time ≤ t + 10 * ms) = false := by
      cases hlast : s.gov.lastResyncEnd with
      | none => rfl
      | some t => exact decide_eq_false (Nat.not_le.2 (hend t hlast))
    have hexec := exec_comparatorDivergence hw hc hl
    rw [hlate, if_neg (by decide), e] at hexec
    exact runs_of_done hexec ⟨rfl, rfl, ⟨d, hd, hmin, rfl⟩, h44, h48, _, rfl, rfl,
      restrictive_spec s _ (hsorted.filter _) fun d hd => hne d (List.mem_of_mem_filter hd)⟩
  · obtain ⟨d, -, hl, -⟩ := exists_lowestDiv_on hw hp
    obtain ⟨regs, ras, clampAt, e₁, -⟩ := diverged_eq s d.at_ ((diffsOf p a b).filter fun d => divOn s d.at_)
    obtain ⟨regs', ras', e₂⟩ := comparatorLost_eq (diverged s d.at_ ((diffsOf p a b).filter fun d => divOn s d.at_))
    have hsoon : s.gov.lastResyncEnd.any (fun t => s.time ≤ t + 10 * ms) = true := by
      rw [he]
      exact decide_eq_true ht
    have hexec := exec_comparatorDivergence hw hc hl
    rw [if_pos hsoon, e₂, e₁] at hexec
    exact runs_of_done hexec ⟨rfl, rfl, rfl, rfl, rfl, rfl⟩
  · obtain ⟨w, hl, hmem, -⟩ := exists_lowestDiv (latentAt_ne_nil hw hds)
    obtain ⟨regs, e, hcount, -⟩ := inc16_eq s 0x00020040
    have hexec := exec_latentDivergence hw hc hoff hl
    have hw' : ∃ d ∈ ds, divWord w false = divWord d false := ⟨w, List.mem_of_mem_filter hmem, rfl⟩
    rw [e] at hexec
    split at hexec
    next h =>
      obtain ⟨regs', e', -, hother⟩ := startResync_eq { s with regs := regs, gov := govLatent s w }
        (agreed { s with regs := regs, gov := govLatent s w })
      rw [e'] at hexec
      exact runs_of_done hexec ⟨rfl, by rw [rdF_eq_regAt, hother _ (by decide), hcount], hw', rfl,
        iff_of_true rfl ((latent_sixteenth _).1 h)⟩
    next h =>
      have hr : s.gov.resync ≠ .waiting := by simp [resync_of_comparing hc]
      exact runs_of_done hexec ⟨rfl, hcount, hw', rfl, iff_of_false hr fun hn => h ((latent_sixteenth _).2 hn)⟩
  · exact runs_of_done (exec_latentDivergence_heartbeat h) rfl
  · exact runs_of_done (if_neg (by simp [hr, ht])) rfl
  · exact runs_of_done (if_neg (by simp [hr, ht, ht'])) rfl
  · obtain ⟨regs, hexec, hregs⟩ := exec_resyncComplete hr ht
    exact runs_of_done hexec ⟨rfl, rfl, hregs⟩
  · cases g
    · exact runs_of_done (if_neg (by simp [hs, hl, hr, ht, ms])) rfl
    · exact runs_of_done (if_neg (by simp [hs, hl, hr, ht, ms])) rfl
  · cases g
    · exact runs_of_done (if_neg (by simp [show s.gov.injA = some e from hg, ht])) ⟨rfl, rfl, rfl, rfl⟩
    · exact runs_of_done (if_neg (by simp [show s.gov.injB = some e from hg, ht])) ⟨rfl, rfl, rfl, rfl⟩
  · cases g
    · obtain ⟨regs, ras, e'⟩ := comparatorLost_eq { s with gov := { s.gov with injA := none, aOk := false } }
      refine runs_of_done ((if_neg (by simp [show s.gov.injA = some e from hg, ht])).trans (congrArg (done s) e')) ?_
      exact ⟨rfl, rfl, rfl, rfl⟩
    · obtain ⟨regs, ras, e'⟩ := comparatorLost_eq { s with gov := { s.gov with injB := none, bOk := false } }
      refine runs_of_done ((if_neg (by simp [show s.gov.injB = some e from hg, ht])).trans (congrArg (done s) e')) ?_
      exact ⟨rfl, rfl, rfl, rfl⟩

end Sys2Proof.Machine

namespace Sys2Proof.Machine

/-! # Epochs, ledgers, the telemetry window and snapshots (R58 to R67, R79, R81) -/

/-- A field of a register moves on by `n`, up to its end, and no other register changes (R344). -/
theorem incF_eq (s : State) (a lo len n : Nat) (h : lo + len ≤ 32) : ∃ regs, incF s a lo len n = { s with regs := regs } ∧
    fld (regAt regs a).toNat lo len = Nat.min (rdF s a lo len + n) (2 ^ len - 1) ∧
    ∀ b, b ≠ a → regAt regs b = regAt s.regs b := by
  refine ⟨_, rfl, (rdF_wrF s a lo len _ h).trans (Nat.mod_eq_of_lt ?_), fun b hb => rd_wrF_other s a b lo len _ hb⟩
  exact Nat.lt_of_le_of_lt (Nat.min_le_right ..) (Nat.sub_lt (by positivity) Nat.one_pos)

/-- A sum added up from the left. -/
theorem foldl_add_eq_sum {α M : Type} [AddMonoid M] (l : List α) (f : α → M) (a : M) :
    l.foldl (fun x y => x + f y) a = a + (l.map f).sum := by
  induction l generalizing a with
  | nil => simp
  | cons x r ih => simp [ih, add_assoc]

/-! ## What a tick leaves due -/

/-- From `s` to `t` only registers and the governors' books change, and the governors stand at the same tick. -/
def SettledFrom (s t : State) : Prop :=
  t = { s with regs := t.regs, gov := t.gov } ∧ t.gov.started = s.gov.started ∧ t.gov.tickNo = s.gov.tickNo

theorem SettledFrom.refl (s : State) : SettledFrom s s := ⟨rfl, rfl, rfl⟩

theorem SettledFrom.trans {s t u : State} (h : SettledFrom s t) (h' : SettledFrom t u) : SettledFrom s u := by
  obtain ⟨e, hs, ht⟩ := h
  obtain ⟨e', hs', ht'⟩ := h'
  exact ⟨e'.trans (congrArg (fun x : State => { x with regs := u.regs, gov := u.gov }) e), hs'.trans hs, ht'.trans ht⟩

theorem wrapLedgers_settled (s : State) : SettledFrom s (wrapLedgers s) := by
  unfold wrapLedgers
  split
  · exact ⟨rfl, rfl, rfl⟩
  · exact .refl s

theorem endEpoch_settled (s : State) : SettledFrom s (endEpoch s) := by
  unfold endEpoch
  split
  · exact ⟨rfl, rfl, rfl⟩
  · exact .refl s

/-! ## The rollover (R67) -/

/-- What the rollover reads and writes of a partition: budget, account, and the count of clipped carries. -/
structure PartBook where
  budget : Nat
  acct : PartAcct
  clips : Nat

/-- The book of partition `p`. -/
def bookOf (s : State) (p : Nat) : PartBook := ⟨budgetOf s p, s.acct p, rdF s (0x0002010C + 0x10 * p) 16 16⟩

/-- The carry before its limits, and its limit either way, in 1/65,536 LU. -/
def PartBook.raw (b : PartBook) : Int := (b.budget : Int) * 65536 + b.acct.carry - b.acct.spent
def PartBook.cap (b : PartBook) : Int := (b.budget / 4 : Nat) * 65536

/-- A book after a rollover. -/
def PartBook.roll (b : PartBook) : PartBook :=
  { b with
    acct := { b.acct with carry := max (-b.cap) (min b.cap b.raw), spent := b.acct.newSpent, newSpent := 0 }
    clips := if max (-b.cap) (min b.cap b.raw) = b.raw then b.clips else Nat.min (b.clips + 1) 65535 }

/-- The rollover's turn for partition `p`. -/
def rollTurn (u : State) (p : Nat) : State :=
  if p < u.charter.partCount then
    let a := u.acct p
    let raw := (budgetOf u p : Int) * 65536 + a.carry - a.spent
    let c : Int := (carryCap u p : Int) * 65536
    let k := max (-c) (min c raw)
    let u1 := if k = raw then u else incF u (0x0002010C + 0x10 * p) 16 16 1
    u1.setAcct p { a with carry := k, spent := a.newSpent, newSpent := 0 }
  else u

/-- The rollover is no longer due. -/
def rollEnd (t : State) : State := { t with gov := { t.gov with rollDue := false, rollTick := false } }

theorem rollover_of_due {s : State} (h : s.gov.rollTick = true) : rollover s = rollEnd (upTo 8 s rollTurn) := by
  rw [rollover, if_pos h]
  extract_lets t
  have ht : t = upTo 8 s rollTurn := rfl
  clear_value t
  rw [← ht, rollEnd]

/-- A turn replaces its partition's account, and moves on its count of clipped carries. -/
theorem rollTurn_eq (u : State) (p : Nat) (h : p < u.charter.partCount) : ∃ regs,
    rollTurn u p = { u with
      regs := regs, gov := { u.gov with parts := u.gov.parts.put {} p (bookOf u p).roll.acct } } ∧
    fld (regAt regs (0x0002010C + 0x10 * p)).toNat 16 16 = (bookOf u p).roll.clips ∧
    ∀ b, b ≠ 0x0002010C + 0x10 * p → regAt regs b = regAt u.regs b := by
  rw [rollTurn, if_pos h]
  extract_lets a raw c k u1
  by_cases hk : k = raw
  · rw [show u1 = u from if_pos hk]
    exact ⟨u.regs, rfl, (if_pos hk).symm, fun _ _ => rfl⟩
  · obtain ⟨regs, e, hfield, hother⟩ := incF_eq u (0x0002010C + 0x10 * p) 16 16 1 (by decide)
    rw [show u1 = _ from (if_neg hk).trans e]
    exact ⟨regs, rfl, hfield.trans (if_neg hk).symm, hother⟩

theorem rollTurn_of_le {u : State} {p : Nat} (h : u.charter.partCount ≤ p) : rollTurn u p = u := if_neg (by omega)

theorem rollTurn_settled (u : State) (p : Nat) :
    rollTurn u p = { u with regs := (rollTurn u p).regs, gov := { u.gov with parts := (rollTurn u p).gov.parts } } := by
  by_cases h : p < u.charter.partCount
  · obtain ⟨regs, e, -⟩ := rollTurn_eq u p h
    rw [e]
  · rw [rollTurn_of_le (by omega)]

theorem rollTurn_charter (u : State) (p : Nat) : (rollTurn u p).charter = u.charter :=
  (congrArg State.charter (rollTurn_settled u p) :)

theorem upTo_rollTurn (n : Nat) (s : State) : upTo n s rollTurn =
    { s with regs := (upTo n s rollTurn).regs, gov := { s.gov with parts := (upTo n s rollTurn).gov.parts } } :=
  upTo_induct (fun u : State => u = { s with regs := u.regs, gov := { s.gov with parts := u.gov.parts } }) _ _ _ rfl
    fun u p hu => (rollTurn_settled u p).trans (congrArg (fun x : State => { x with
      regs := (rollTurn u p).regs, gov := { x.gov with parts := (rollTurn u p).gov.parts } }) hu)

theorem bookOf_eq {t : State} {p : Nat} {b : PartBook} (hb : budgetOf t p = b.budget) (ha : t.acct p = b.acct)
    (hc : fld (regAt t.regs (0x0002010C + 0x10 * p)).toNat 16 16 = b.clips) : bookOf t p = b := by
  rw [bookOf, hb, ha, rdF_eq_regAt, hc]

theorem bookOf_rollTurn (u : State) (p j : Nat) : bookOf (rollTurn u p) j =
    if j = p ∧ p < u.charter.partCount then (bookOf u j).roll else bookOf u j := by
  by_cases h : p < u.charter.partCount
  · obtain ⟨regs, e, hfield, hother⟩ := rollTurn_eq u p h
    rw [e]
    by_cases hj : j = p
    · subst hj
      rw [if_pos ⟨rfl, h⟩]
      exact bookOf_eq rfl (Tbl.get_put_same ..) hfield
    · rw [if_neg fun hp => hj hp.1]
      refine bookOf_eq rfl (Tbl.get_put_other _ _ _ _ _ hj) ?_
      rw [hother _ (by omega)]
      rfl
  · rw [rollTurn_of_le (by omega), if_neg fun hp => h hp.2]

/-- After the turns of the partitions below `n`, the book of each of them that the Charter lists is rolled. -/
theorem bookOf_upTo_rollTurn (n : Nat) (s : State) (j : Nat) : bookOf (upTo n s rollTurn) j =
    if j < n ∧ j < s.charter.partCount then (bookOf s j).roll else bookOf s j := by
  have h := upTo_at_index (fun u j => (u.charter.partCount, bookOf u j))
    (fun p b => (b.1, if p < b.1 then b.2.roll else b.2)) rollTurn
    (fun u p => by simp only [rollTurn_charter, bookOf_rollTurn, true_and])
    (fun u p j hj => by simp only [rollTurn_charter, bookOf_rollTurn, hj, false_and, if_false]) n s j
  have h2 := congrArg Prod.snd h
  dsimp only at h2
  rw [h2]
  by_cases hj : j < n <;> simp [hj]

theorem rollover_eq {s : State} (h : s.gov.rollTick = true) : ∃ regs parts,
    rollover s = { s with
      regs := regs, gov := { s.gov with parts := parts, rollDue := false, rollTick := false } } ∧
    ∀ p, bookOf { s with regs := regs, gov := { s.gov with parts := parts } } p =
      if p < 8 ∧ p < s.charter.partCount then (bookOf s p).roll else bookOf s p := by
  have hbook := bookOf_upTo_rollTurn 8 s
  rw [rollover_of_due h]
  have e := upTo_rollTurn 8 s
  generalize upTo 8 s rollTurn = t at e hbook
  exact ⟨t.regs, t.gov.parts, congrArg rollEnd e, e ▸ hbook⟩

theorem rollover_settled (s : State) : SettledFrom s (rollover s) := by
  cases h : s.gov.rollTick with
  | false =>
    rw [rollover, if_neg (by simp [h])]
    exact .refl s
  | true =>
    obtain ⟨regs, parts, e, -⟩ := rollover_eq h
    rw [e]
    exact ⟨rfl, rfl, rfl⟩

theorem settleTick_settled (s : State) : SettledFrom s (settleTick s) :=
  ((wrapLedgers_settled s).trans (rollover_settled _)).trans (endEpoch_settled _)

/-! ## The telemetry window (R60, R61) -/

/-- T moves an eighth of the way to E_tel / E_est, rounded to nearest, within its limits. -/
theorem trimNext_nearest (t tel est : Nat) (h : 0 < est) : ∃ n : Nat,
    trimNext t tel est = Nat.max 0x3334 (Nat.min 0x5000 n) ∧
      2 * ((8 * est * n : Nat) - (7 * t * est + 16384 * tel : Nat) : Int).natAbs ≤ 8 * est := by
  rw [trimNext, if_neg (by omega)]
  extract_lets num den q r n
  refine ⟨n, rfl, ?_⟩
  have hnum : den * q + r = num := Nat.div_add_mod num den
  have hr : r < den := Nat.mod_lt _ (by omega)
  have hn : n = q ∧ 2 * r ≤ den ∨ n = q + 1 ∧ den ≤ 2 * r := by
    simp only [n]
    split
    · omega
    · split
      · omega
      · split
        · omega
        · omega
  change 2 * ((den * n : Nat) - (num : Nat) : Int).natAbs ≤ den
  rcases hn with ⟨e, h2⟩ | ⟨e, h2⟩
  · rw [e]
    omega
  · rw [e, Nat.mul_succ]
    omega

/-- The regulators that the Charter names. -/
def namedRegs (s : State) : List Nat := (List.range 8).filter (fun n => s.charter.regAddr.getD n 0 != 0)

/-- A regulator named gave no telemetry in the window. -/
def telMissing (s : State) (tel : List (Option Nat)) : Bool := (namedRegs s).any (fun n => (tel.getD n none).isNone)

/-- The energy of the window that the named regulators report. -/
def telEnergy (s : State) (tel : List (Option Nat)) : Nat := ((namedRegs s).map (fun n => (tel.getD n none).getD 0)).sum

/-- The governors' books at a window's end, before its residual: the counts start again. -/
def windowClosed (g : Gov) : Gov :=
  { g with winTick := 0, winEst := 0, winLed := 0, winFeed := 0
           workW := (g.winLed.toNat + 327680) / 655360, feedW := (g.winFeed + 10485760) / 20971520 }

/-- The governors' books at the end of the telemetry window `tel`. -/
def windowGov (s : State) (tel : List (Option Nat)) : Gov :=
  if namedRegs s = [] then { windowClosed s.gov with residual := 0, frozen := false }
  else if telMissing s tel then { windowClosed s.gov with residual := 0, frozen := true }
  else { windowClosed s.gov with
    residual := ((telEnergy s tel : Int) - s.gov.winLed) * 16384000 + s.gov.carried, carried := 0, frozen := false
    trim := trimNext s.gov.trim (telEnergy s tel) s.gov.winEst }

theorem exec_telemetryWindowEnd {s : State} {tel : List (Option Nat)} (hl : tel.length = 8) (hs : s.gov.started = true)
    (ht : 1000 ≤ s.gov.winTick) (ref : BitVec 14) :
    exec (.telemetryWindowEnd ⟨tel, ref⟩) s = done s { s with
      gov := windowGov s tel
      plt := { s.plt with
        refCode := ref.zeroExtend 16, refBad := refOff ref, refOkAt := if refOff ref then s.time else s.plt.refOkAt
        noTel := (namedRegs s).filter (fun n => (tel.getD n none).isNone) } } := by
  have hsum : (namedRegs s).foldl (fun a n => a + (tel.getD n none).getD 0) 0 = telEnergy s tel := by
    rw [foldl_add_eq_sum, Nat.zero_add, telEnergy]
  rw [windowGov, ← hsum]
  exact (if_neg (by simp [hl])).trans (if_neg (by simp [hs]; omega))

/-- At a window's end its counts start again; the work ledger stands. -/
theorem windowGov_counts (s : State) (tel : List (Option Nat)) :
    (windowGov s tel).winTick = 0 ∧ (windowGov s tel).winEst = 0 ∧ (windowGov s tel).winLed = 0 ∧
      (windowGov s tel).winFeed = 0 ∧ (windowGov s tel).work = s.gov.work := by
  unfold windowGov
  split
  · exact ⟨rfl, rfl, rfl, rfl, rfl⟩
  · split
    · exact ⟨rfl, rfl, rfl, rfl, rfl⟩
    · exact ⟨rfl, rfl, rfl, rfl, rfl⟩

theorem windowGov_of_unnamed {s : State} (h : namedRegs s = []) (tel : List (Option Nat)) :
    windowGov s tel = { windowClosed s.gov with residual := 0, frozen := false } := if_pos h

theorem windowGov_of_missing {s : State} {tel : List (Option Nat)} (h : namedRegs s ≠ []) (hm : telMissing s tel = true) :
    windowGov s tel = { windowClosed s.gov with residual := 0, frozen := true } := (if_neg h).trans (if_pos hm)

theorem windowGov_of_complete {s : State} {tel : List (Option Nat)} (h : namedRegs s ≠ []) (hm : telMissing s tel = false) :
    windowGov s tel = { windowClosed s.gov with
      residual := ((telEnergy s tel : Int) - s.gov.winLed) * 16384000 + s.gov.carried, carried := 0, frozen := false
      trim := trimNext s.gov.trim (telEnergy s tel) s.gov.winEst } :=
  (if_neg h).trans (if_neg (by simp [hm]))

/-! ## Snapshots (R79) -/

/-- The registers of a snapshot that are of the whole chip. -/
def snapHead (s : State) : State :=
  let g := s.gov
  let t := wr s 0x00020204 (BitVec.ofNat 32 g.epoch)
  let t := wr64 t 0x00020208 (if g.started then g.tickNo * 1000 else s.time)
  let t := wr64 t 0x00020210 (g.work % 2 ^ 48)
  let t := wr64 t 0x00020218 (g.feed % 2 ^ 48)
  wr t 0x00020220 (BitVec.ofNat 32 ((g.work + 2 ^ 48 - g.epochStart) % 2 ^ 48))

/-- The registers of a snapshot of `s` that are of partition `p`. -/
def snapTurn (s u : State) (p : Nat) : State :=
  wr (wr u (0x00020240 + 8 * p) (BitVec.ofInt 32 ((s.acct p).spent / 65536)))
    (0x00020244 + 8 * p) (BitVec.ofInt 32 ((s.acct p).carry / 65536))

/-- The capture is made. -/
def snapEnd (t : State) : State := { t with gov := { t.gov with snapReq := false, snapValid := true } }

theorem snapCapture_eq (s : State) : snapCapture s = snapEnd (upTo 8 (snapHead s) (snapTurn s)) := by
  unfold snapCapture
  extract_lets g t₁ t₂ t₃ t₄ t₅ t
  have ht : t = upTo 8 (snapHead s) (snapTurn s) := rfl
  clear_value t
  rw [← ht, snapEnd]

theorem wr_only_regs {s u : State} (h : u = { s with regs := u.regs }) (a : Nat) (v : W32) :
    wr u a v = { s with regs := (wr u a v).regs } :=
  (congrArg (fun x : State => { x with regs := (wr u a v).regs }) h :)

theorem wr64_only_regs {s u : State} (h : u = { s with regs := u.regs }) (a v : Nat) :
    wr64 u a v = { s with regs := (wr64 u a v).regs } :=
  wr_only_regs (wr_only_regs h _ _) _ _

theorem snapped_only_regs (n : Nat) (s : State) :
    upTo n (snapHead s) (snapTurn s) = { s with regs := (upTo n (snapHead s) (snapTurn s)).regs } :=
  upTo_induct (fun u : State => u = { s with regs := u.regs }) _ _ _
    (wr_only_regs (wr64_only_regs (wr64_only_regs (wr64_only_regs (wr_only_regs rfl _ _) _ _) _ _) _ _) _ _)
    fun _ _ hu => wr_only_regs (wr_only_regs hu _ _) _ _

theorem rd_snapped_head (n : Nat) (s : State) (a : Nat) (h : a < 0x00020240) :
    rd (upTo n (snapHead s) (snapTurn s)) a = rd (snapHead s) a :=
  upTo_keeps (fun u => rd u a) _ _ _ fun u p => by
    rw [snapTurn, rd_wr, rd_wr, if_neg (by omega), if_neg (by omega)]

theorem rd_snapped_part (n : Nat) (s : State) (p : Nat) (h : p < n) :
    rd (upTo n (snapHead s) (snapTurn s)) (0x00020240 + 8 * p) = BitVec.ofInt 32 ((s.acct p).spent / 65536) ∧
    rd (upTo n (snapHead s) (snapTurn s)) (0x00020244 + 8 * p) = BitVec.ofInt 32 ((s.acct p).carry / 65536) := by
  have hp := upTo_at_index (fun u p => (rd u (0x00020240 + 8 * p), rd u (0x00020244 + 8 * p)))
    (fun p _ => (BitVec.ofInt 32 ((s.acct p).spent / 65536), BitVec.ofInt 32 ((s.acct p).carry / 65536))) (snapTurn s)
    (fun u p => by
      simp only [snapTurn, rd_wr, if_true]
      rw [if_neg (by omega)])
    (fun u p j hj => by
      simp only [snapTurn, rd_wr]
      rw [if_neg (by omega), if_neg (by omega), if_neg (by omega), if_neg (by omega)])
    n (snapHead s) p
  rw [if_pos h] at hp
  exact Prod.mk.inj hp

/-- A 64-bit value in a pair of registers. -/
theorem rd64_of_halves {s : State} {lo hi v : Nat} (hlo : rd s lo = BitVec.ofNat 32 v)
    (hhi : rd s hi = BitVec.ofNat 32 (v / 2 ^ 32)) : rd64 s lo hi = v % 2 ^ 64 := by
  rw [rd64, hlo, hhi, BitVec.toNat_ofNat, BitVec.toNat_ofNat]
  omega

/-- The chip's part of a snapshot with the governors running. -/
theorem rd_snapHead {s : State} (h : s.gov.started = true) :
    rd (snapHead s) 0x00020204 = BitVec.ofNat 32 s.gov.epoch ∧
    rd64 (snapHead s) 0x00020208 0x0002020C = (s.gov.tickNo * 1000) % 2 ^ 64 ∧
    rd64 (snapHead s) 0x00020210 0x00020214 = s.gov.work % 2 ^ 48 ∧
    rd64 (snapHead s) 0x00020218 0x0002021C = s.gov.feed % 2 ^ 48 := by
  refine ⟨?_, ?_, ?_, ?_⟩
  · simp [snapHead, wr64]
  · exact rd64_of_halves (by simp [snapHead, wr64, h]) (by simp [snapHead, wr64, h])
  · exact (rd64_of_halves (v := s.gov.work % 2 ^ 48) (by simp [snapHead, wr64]) (by simp [snapHead, wr64])).trans (by omega)
  · exact (rd64_of_halves (v := s.gov.feed % 2 ^ 48) (by simp [snapHead, wr64]) (by simp [snapHead, wr64])).trans (by omega)

theorem snapCapture_settled (s : State) : SettledFrom s (snapCapture s) := by
  have e := snapped_only_regs 8 s
  rw [snapCapture_eq]
  generalize upTo 8 (snapHead s) (snapTurn s) = t at e
  rw [e]
  exact ⟨rfl, rfl, rfl⟩

theorem settle_settled (s : State) : SettledFrom s (settle s) := by
  unfold settle
  extract_lets t
  have h : SettledFrom s t := settleTick_settled s
  split
  · exact h.trans (snapCapture_settled t)
  · exact h

/-- A snapshot is of the values as they stand, and changes nothing but its registers and its flags (R79). -/
theorem snapCapture_spec {s : State} (h : s.gov.started = true) : ∃ regs,
    snapCapture s = { s with regs := regs, gov := { s.gov with snapReq := false, snapValid := true } } ∧
    rd { s with regs := regs } 0x00020204 = BitVec.ofNat 32 s.gov.epoch ∧
    rd64 { s with regs := regs } 0x00020208 0x0002020C = (s.gov.tickNo * 1000) % 2 ^ 64 ∧
    rd64 { s with regs := regs } 0x00020210 0x00020214 = s.gov.work % 2 ^ 48 ∧
    rd64 { s with regs := regs } 0x00020218 0x0002021C = s.gov.feed % 2 ^ 48 ∧
    ∀ p < 8, rd { s with regs := regs } (0x00020240 + 8 * p) = BitVec.ofInt 32 ((s.acct p).spent / 65536) ∧
      rd { s with regs := regs } (0x00020244 + 8 * p) = BitVec.ofInt 32 ((s.acct p).carry / 65536) := by
  have e := snapped_only_regs 8 s
  have hlow := rd_snapped_head 8 s
  have hpart := rd_snapped_part 8 s
  obtain ⟨hepoch, htime, hwork, hfeed⟩ := rd_snapHead h
  rw [snapCapture_eq]
  generalize upTo 8 (snapHead s) (snapTurn s) = t at e hlow hpart
  refine ⟨t.regs, congrArg snapEnd e, ?_⟩
  rw [← e]
  have hlow64 (lo hi : Nat) (hlo : lo < 0x00020240) (hhi : hi < 0x00020240) : rd64 t lo hi = rd64 (snapHead s) lo hi := by
    rw [rd64, rd64, hlow lo hlo, hlow hi hhi]
  exact ⟨(hlow _ (by decide)).trans hepoch, (hlow64 _ _ (by decide) (by decide)).trans htime,
    (hlow64 _ _ (by decide) (by decide)).trans hwork, (hlow64 _ _ (by decide) (by decide)).trans hfeed, hpart⟩

/-- GOV_SNAP_CAPTURE at a tick boundary after the request. -/
theorem exec_govSnapCapture {s : State} (hr : s.gov.snapReq = true) (hs : s.gov.started = true)
    (ht : s.gov.snapAt < s.gov.tickNo * 1000) : exec .govSnapCapture s = done s (snapCapture (settleTick s)) :=
  if_pos (by simp [snapDue, hr, hs, ht])

/-! ## The obligation -/

/-- Settles O10: each row by what it answers under its guard. -/
theorem epochAndLedgerEventsTakeEffect : Obligations.EpochAndLedgerEventsTakeEffect := by
  refine ⟨fun s h hs ht => ?_, fun s h => ?_, fun s h hp => ?_, fun s h => ?_, fun tel ref s hl hs ht => ?_, fun s => ?_,
    fun s hr hs ht => ?_⟩
  · obtain ⟨hd, hf⟩ := h
    exact runs_of_done (if_neg (by simp [hd, hf, hs, ht, ms])) ⟨rfl, rfl, rfl, rfl, rfl⟩
  · exact runs_of_done (congrArg (done s) (if_pos h)) ⟨rfl, rfl, rfl, rfl, rfl, rfl, rfl, rfl, rfl, rfl⟩
  · obtain ⟨regs, parts, e, hbook⟩ := rollover_eq h
    refine runs_of_done (congrArg (done s) e) ⟨rfl, rfl, rfl, rfl, rfl, fun p hlt => ?_, fun p hle => ?_⟩
    · have hb := hbook p
      rw [if_pos ⟨by omega, hlt⟩] at hb
      have hacct := congrArg PartBook.acct hb
      exact ⟨congrArg PartAcct.carry hacct, congrArg PartAcct.spent hacct, congrArg PartBook.clips hb⟩
    · have hb := hbook p
      rw [if_neg (by omega)] at hb
      exact congrArg PartBook.acct hb
  · exact runs_of_done (congrArg (done s) (if_pos h)) ⟨rfl, rdB_wrF _ _ _ (by decide)⟩
  · obtain ⟨h1, h2, h3, h4, hwork⟩ := windowGov_counts s tel
    refine runs_of_done (exec_telemetryWindowEnd hl hs ht ref) ⟨rfl, h1, h2, h3, h4, hwork, fun hn => ?_, fun hn hm => ?_,
      fun hn hm => ?_⟩
    · rw [windowGov_of_unnamed hn]
      exact ⟨rfl, rfl, rfl⟩
    · rw [windowGov_of_missing hn hm]
      exact ⟨rfl, rfl, rfl, rfl⟩
    · rw [windowGov_of_complete hn hm]
      exact ⟨rfl, rfl, rfl, fun h0 => if_pos h0, trimNext_nearest _ _ _⟩
  · refine runs_of_done (t := snapRequestOp s) rfl ⟨fun h => ?_, fun h => ?_⟩
    · rw [snapRequestOp, if_neg (by simp [h])]
      rfl
    · rw [snapRequestOp, if_pos h]
      rfl
  · obtain ⟨e, hs', ht'⟩ := settleTick_settled s
    obtain ⟨regs, hcap, hepoch, htime, hwork, hfeed, hpart⟩ := snapCapture_spec (s := settleTick s) (hs'.trans hs)
    have hexec := (exec_govSnapCapture hr hs ht).trans (congrArg (done s) hcap)
    rw [ht'] at htime
    unfold Runs
    rw [hexec]
    clear hexec hcap
    generalize settleTick s = u at *
    obtain ⟨regs₀, gov, rfl⟩ : ∃ regs₀ gov, u = { s with regs := regs₀, gov := gov } := ⟨_, _, e⟩
    exact ⟨_, rfl, rfl, (congrArg BitVec.toNat hepoch).trans (BitVec.toNat_ofNat ..), htime, hwork, hfeed, hpart⟩

end Sys2Proof.Machine

namespace Sys2Proof.Machine

/-! # The governor tick (R59, R62, R65, R84, R91, R97)

## What the clocks and the scheduler's part of a tick leave alone -/

/-- The state without what the core clocks, the scheduler, the monitors and the reports of a tick change: chip time, registers,
cores, scheduler, trackers, error logs and monitors. -/
def State.apart (s : State) : State :=
  { s with time := 0, regs := [], cores := {}, sch := {}, syn := { s.syn with trackers := {} }, ras := {}, mon := {} }

theorem gov_of_apart {s t : State} (h : t.apart = s.apart) : t.gov = s.gov := (congrArg State.gov h :)
theorem plt_of_apart {s t : State} (h : t.apart = s.apart) : t.plt = s.plt := (congrArg State.plt h :)
theorem boot_of_apart {s t : State} (h : t.apart = s.apart) : t.boot = s.boot := (congrArg State.boot h :)

theorem State.apart_update (s : State) (time regs cores sch ras mon) :
    ({ s with time := time, regs := regs, cores := cores, sch := sch, ras := ras, mon := mon } : State).apart = s.apart := rfl

section
variable (s : State)

theorem inc16_apart (a) : (inc16 s a).apart = s.apart := rfl
theorem State.setCore_apart (c x) : (s.setCore c x).apart = s.apart := rfl
theorem State.setFnS_apart (f x) : (s.setFnS f x).apart = s.apart := rfl
theorem State.setPartS_apart (p x) : (s.setPartS p x).apart = s.apart := rfl
theorem setTracker_apart (t k) : (setTracker s t k).apart = s.apart := rfl

theorem chipErr_apart (code sub block inst detail) : (chipErr s code sub block inst detail).apart = s.apart := by
  obtain ⟨regs, ras, e⟩ := chipErr_eq s code sub block inst detail
  rw [e]
  rfl

theorem monEvent_apart (ev inst n) : (monEvent s ev inst n).apart = s.apart := by
  obtain ⟨m, e⟩ := monEvent_eq s ev inst n
  rw [e]
  rfl

theorem monSample_apart (level src inst v) : (monSample s level src inst v).apart = s.apart := by
  obtain ⟨m, e⟩ := monSample_eq s level src inst v
  rw [e]
  rfl

/-! ### Clocks -/

theorem tickCore_apart (n c) : (tickCore n s c).apart = s.apart := by
  unfold tickCore
  grind [State.setCore_apart, State.setFnS_apart, monEvent_apart]

theorem advance_apart (n : Nat) : (advance s n).apart = s.apart := by
  have h : (upTo 32 s (tickCore n)).apart = s.apart := upTo_keeps State.apart _ _ _ fun _ _ => tickCore_apart ..
  unfold advance
  grind [State.apart]

/-! ### Slices -/

theorem reloadTrackers_apart (p ok) : (reloadTrackers s p ok).apart = s.apart :=
  foldl_keeps State.apart _ _ _ (fun t k => by grind [setTracker_apart])

theorem switchTrackers_apart (p f) : (switchTrackers s p f).apart = s.apart := by
  unfold switchTrackers
  rw [reloadTrackers_apart, upTo_keeps State.apart _ _ _ fun t k => by grind [setTracker_apart]]

theorem preemptFn_apart (p f) : (preemptFn s p f).apart = s.apart :=
  foldl_keeps State.apart _ _ _ (fun t k => by grind [State.setCore_apart])

theorem closeWindows_apart (p f) : (closeWindows s p f).apart = s.apart :=
  foldl_keeps State.apart _ _ _ (fun t k => by grind [State.setCore_apart])

theorem endSlice_apart (p) : (endSlice s p).apart = s.apart := by
  unfold endSlice
  grind [closeWindows_apart]

theorem grantTo_apart (p f) : (grantTo s p f).apart = s.apart := by
  have h (y : FnSched) : (endSlice (s.setFnS f y) p).apart = s.apart := endSlice_apart ..
  unfold grantTo
  grind [State.setPartS_apart, preemptFn_apart, switchTrackers_apart]

theorem grantBest_apart (p) : (grantBest s p).apart = s.apart := by
  unfold grantBest
  grind [grantTo_apart, State.setPartS_apart, endSlice_apart]

theorem takeOver_apart (p f) : (takeOver s p f).apart = s.apart := by
  unfold takeOver
  grind [grantTo_apart, State.setPartS_apart]

theorem regrant_apart (p) : (regrant s p).apart = s.apart := by
  unfold regrant
  grind [takeOver_apart, grantBest_apart]

/-! ### Tenants, engines and monitors -/

theorem accountPart_apart (i p) : (accountPart s i p).apart = s.apart := by
  unfold accountPart
  grind [State.setFnS_apart]

theorem closeTick_apart (i c) : (closeTick i s c).apart = s.apart := rfl

theorem deficits_apart (p) : (deficits s p).apart = s.apart := by
  unfold deficits
  extract_lets c ten act w wa we lim s1
  have h1 : s1.apart = s.apart := foldl_keeps State.apart _ _ _ fun _ _ => State.setFnS_apart ..
  grind [State.setPartS_apart]

theorem levelSamples_apart : (levelSamples s).apart = s.apart := by
  unfold levelSamples
  split
  · rfl
  · rw [upTo_keeps State.apart _ _ _ fun t k => by grind [monSample_apart],
      upTo_keeps State.apart _ _ _ fun t k => by grind [monSample_apart], monSample_apart, monSample_apart]

theorem idleFlits_apart : (idleFlits s).apart = s.apart := by
  unfold idleFlits
  split
  · rfl
  · exact upTo_keeps State.apart _ _ _ (fun t k => by grind [monEvent_apart])

/-- The inlet's times are noted, and nothing else changes. -/
theorem trackInlet_eq : ∃ above below,
    trackInlet s = { s with plt := { s.plt with overSince := above, underSince := below } } := by
  unfold trackInlet
  split
  · exact ⟨_, _, rfl⟩
  · exact ⟨_, _, rfl⟩

end

/-! ## Ledgers and charges (R59, R62, R65) -/

/-- The energy of a tick, 1/65,536 LU. -/
def tickEnergy (s : State) (i : TickIn) : Nat := ((List.range 32).map (coreE s.charter i)).sum + i.uncore

/-- The feed sample's product; a negative one counts zero. -/
def feedProduct (i : TickIn) : Nat := if i.feedI.toInt < 0 then 0 else i.feedV.toNat * i.feedI.toNat

/-- The tick's energy with the remainder carried in, in 1/16,384,000 of 1/65,536 LU. -/
def exactWork (g : Gov) (energy : Nat) : Int :=
  (g.workRem : Int) + (energy * g.trim * 1000 : Nat) + residualShare g.residual g.winTick

/-- The governors' books after the energy and the feed product of a tick, with the accounts that its charges leave. -/
def ledgerGov (g : Gov) (energy product : Nat) (parts : Tbl PartAcct) : Gov :=
  let incr := (exactWork g energy).toNat / 16384000
  let wu := g.workFrac + incr
  let fu := g.feedRem + product
  { g with
    tickNo := g.tickNo + 1
    work := g.work + wu / 65536, workFrac := wu % 65536, workRem := (exactWork g energy).toNat % 16384000
    carried := if exactWork g energy < 0 then g.carried + exactWork g energy else g.carried
    feed := g.feed + fu / 2 ^ 21, feedRem := fu % 2 ^ 21
    wrapDue := 2 ^ 48 ≤ g.work + wu / 65536 || 2 ^ 48 ≤ g.feed + fu / 2 ^ 21
    winTick := g.winTick + 1, winEst := g.winEst + energy, winLed := g.winLed + incr, winFeed := g.winFeed + product
    adv := g.adv + incr, lastWork := incr, rollTick := g.rollDue, parts := parts }

section
variable (g : Gov) (energy product : Nat) (parts : Tbl PartAcct)

/-- The work ledger takes the whole units of the energy; the remainder is carried. -/
theorem ledgerGov_work :
    (0 ≤ exactWork g energy → (ledgerGov g energy product parts).workRem < 16384000 ∧
      ((ledgerGov g energy product parts).lastWork : Int) * 16384000 + (ledgerGov g energy product parts).workRem =
        exactWork g energy) ∧
    (ledgerGov g energy product parts).work * 65536 + (ledgerGov g energy product parts).workFrac =
      g.work * 65536 + g.workFrac + (ledgerGov g energy product parts).lastWork := by
  simp only [ledgerGov]
  omega

/-- The feed ledger takes the sample's product. -/
theorem ledgerGov_feed :
    (ledgerGov g energy product parts).feed * 2 ^ 21 + (ledgerGov g energy product parts).feedRem =
      g.feed * 2 ^ 21 + g.feedRem + product := by
  simp only [ledgerGov]
  omega

end

/-- What `f` gives is spread over the partitions, and the first takes `x` besides. -/
theorem sum_range_first (n : Nat) (h : 1 ≤ n) (f : Nat → Int) (x : Int) :
    ((List.range n).map (fun p => f p + if p = 0 then x else 0)).sum = ((List.range n).map f).sum + x := by
  obtain ⟨m, rfl⟩ := Nat.exists_eq_add_of_le' h
  simp [List.range_succ_eq_map, Function.comp_def]
  ring

theorem upTo_add_eq_sum {M : Type} [AddMonoid M] (n : Nat) (f : Nat → M) :
    upTo n 0 (fun a p => a + f p) = ((List.range n).map f).sum := by
  rw [upTo, foldl_add_eq_sum, zero_add]

/-- The charges change the partitions' accounts only. -/
theorem chargeParts_only_parts (s : State) (i : TickIn) (incr : Nat) :
    chargeParts s i incr = { s with gov := { s.gov with parts := (chargeParts s i incr).gov.parts } } := by
  unfold chargeParts
  extract_lets n coreSum part total shared share shares
  exact upTo_induct (fun u : State => u = { s with gov := { s.gov with parts := u.gov.parts } }) _ _ _ rfl fun u p hu => by
    rw [State.setAcct, hu]

/-- The charges of all partitions sum to the increment. -/
theorem chargeParts_sum (s : State) (i : TickIn) (incr : Nat) (h : 1 ≤ s.charter.partCount) :
    ((List.range s.charter.partCount).map (fun p => ((chargeParts s i incr).acct p).lastCharge)).sum = incr := by
  unfold chargeParts
  extract_lets n coreSum part total shared share shares
  have htotal : (total : Int) = ((List.range n).map (fun p => (part p : Int))).sum := by
    rw [show total = ((List.range n).map part).sum from upTo_add_eq_sum n part, Nat.cast_list_sum, List.map_map]
    rfl
  have hshares : shares = ((List.range n).map share).sum := upTo_add_eq_sum n share
  calc _ = ((List.range n).map (fun p => (part p + share p) + if p = 0 then shared - shares else 0)).sum :=
        congrArg List.sum (List.map_congr_left fun p hp => ?_)
    _ = total + shares + (shared - shares) := by
        rw [sum_range_first n h, List.sum_map_add, ← htotal, ← hshares]
    _ = incr := by
        simp only [shared]
        ring
  refine (upTo_at_index (fun u p => (u.acct p).lastCharge)
    (fun p _ => (part p + share p) + if p = 0 then shared - shares else 0) _ (fun u p => ?_) (fun u p j hj => ?_) n s p).trans
    (if_pos (List.mem_range.1 hp))
  · rw [acct_setAcct, if_pos rfl]
    split <;> rfl
  · rw [acct_setAcct, if_neg hj]

/-- The charges of a tick replace the partitions' accounts, and sum to the increment. -/
theorem chargeParts_spec (s : State) (i : TickIn) (incr : Nat) : ∃ parts : Tbl PartAcct,
    chargeParts s i incr = { s with gov := { s.gov with parts := parts } } ∧
    (1 ≤ s.charter.partCount →
      ((List.range s.charter.partCount).map (fun p => (parts.get {} p).lastCharge)).sum = incr) :=
  ⟨_, chargeParts_only_parts s i incr, chargeParts_sum s i incr⟩

/-! ## Epochs and loops (R64, R68, R91, R97) -/

/-- The books `g` once the epoch's end is judged; `idle` says that no partition could use more of it. -/
def epochGov (g : Gov) (idle : Bool) : Gov :=
  let full : Bool := 65536 * 65536 ≤ g.adv
  let early := !full && 4096 * 65536 ≤ g.adv && idle
  { g with endDue := full || early, earlyDue := early }

/-- The epoch ends after 65,536 LU; an early close needs 4,096. -/
theorem epochGov_ends (g : Gov) (idle : Bool) :
    (65536 * 65536 ≤ g.adv → (epochGov g idle).endDue = true ∧ (epochGov g idle).earlyDue = false) ∧
    ((epochGov g idle).endDue = true → 4096 * 65536 ≤ g.adv) := by
  simp only [epochGov, Bool.or_eq_true, Bool.and_eq_true, decide_eq_true_eq]
  refine ⟨fun h => ⟨.inl h, by simp [h]⟩, ?_⟩
  rintro (h | ⟨⟨-, h⟩, -⟩)
  · omega
  · exact h

/-- Governor A after its tick in state `u`. -/
def loopA (i : TickIn) (u : State) : GovLoop := (govTick u u.gov.a (feedPower i.feedV i.feedI)).1

/-- The governors after their tick in state `u`. -/
def loopGov (i : TickIn) (u : State) : Gov :=
  { u.gov with
    a := loopA i u
    b := if u.gov.bHalted then u.gov.b else (govTick u u.gov.b (feedPower i.feedV i.feedI)).1
    held := u.gov.held.map (fun h => restrict u h (loopA i u) (flags8 (exhaustedNow u))) }

/-- The second sample in a row above the cap asserts the clamp. -/
theorem govTick_clamp {s : State} {g : GovLoop} {p : Int} (hs : s.plt.active.contains .feedAdc = false)
    (hp : (capW s : Int) * oneW < p) (ho : 1 ≤ g.overCnt) : (govTick s g p).1.clamp = true := by
  have ho2 : Nat.min 2 (g.overCnt + 1) = 2 := Nat.min_eq_left (by omega)
  simp only [govTick, hs, Bool.false_eq_true, if_false, if_pos hp, ho2]
  cases g.clamp <;> rfl

/-- The setpoint's frame: 0b1010, then its low 12 bits (R84). -/
theorem resFrame_fields (c : Nat) : (resFrame c).toNat / 4096 = 10 ∧ (resFrame c).toNat % 4096 = c % 4096 := by
  rw [resFrame, BitVec.toNat_ofNat]
  omega

/-- A tick on the settled state `s`: the ledgers, then the loops in the state `u` that the scheduler's part leaves. -/
theorem tickBody_spec (i : TickIn) (s : State) : ∃ (u : State) (parts : Tbl PartAcct) (idle : Bool) (plt : Plant),
    u.boot = s.boot ∧ u.plt = s.plt ∧ u.gov = epochGov (ledgerGov s.gov (tickEnergy s i) (feedProduct i) parts) idle ∧
    (1 ≤ s.charter.partCount →
      ((List.range s.charter.partCount).map (fun p => (parts.get {} p).lastCharge)).sum = u.gov.lastWork) ∧
    (tickBody i s).apart = ({ s with gov := loopGov i u, plt := plt } : State).apart ∧
    plt.setpoint = (if s.boot.fatal.isSome then s.plt.setpoint else (2048 + roundW (loopA i u).u).toNat) ∧
    plt.frame = if s.boot.fatal.isSome then s.plt.frame else resFrame (2048 + roundW (loopA i u).u).toNat := by
  unfold tickBody
  -- the clocks, then the ledgers and the charges
  extract_lets +onlyGivenNames g target s1 s2 eSum d exact neg exactN incr wu work fe fu feed adv g2 s3
  have h2 : s2.apart = s.apart := (State.apart_update ..).trans (advance_apart ..)
  have hg2 : g2 = s.gov := gov_of_apart h2
  have hc2 : s2.charter = s.charter := congrArg Boot.charter (boot_of_apart h2)
  have hE : eSum = tickEnergy s i := by
    rw [tickEnergy, ← hc2, ← upTo_add_eq_sum]
  clear_value g2 s2 eSum
  subst hg2 hE
  obtain ⟨parts, hs3, hsum⟩ : ∃ parts, s3 = { s2 with gov := ledgerGov s.gov (tickEnergy s i) (feedProduct i) parts } ∧
      (1 ≤ s2.charter.partCount →
        ((List.range s2.charter.partCount).map (fun p => (parts.get {} p).lastCharge)).sum =
          (ledgerGov s.gov (tickEnergy s i) (feedProduct i) parts).lastWork) :=
    chargeParts_spec _ _ _
  rw [hc2] at hsum
  have hg3 : s3.gov = ledgerGov s.gov (tickEnergy s i) (feedProduct i) parts := (congrArg State.gov hs3 :)
  have hadv : s3.gov.adv = adv := (congrArg Gov.adv hg3 :)
  have h3 : s3.apart = ({ s with gov := s3.gov } : State).apart := by
    rw [hg3, hs3]
    exact congrArg (fun x : State => { x with gov := ledgerGov s.gov (tickEnergy s i) (feedProduct i) parts }) h2
  clear_value s3 adv
  subst hadv
  -- the epoch's end, then tenants and engines
  extract_lets +onlyGivenNames full early g3 s4 s5 s6
  obtain ⟨idle, hg4⟩ : ∃ idle, s4.gov = epochGov s3.gov idle := ⟨_, rfl⟩
  have h4 : s4.apart = ({ s with gov := s4.gov } : State).apart := congrArg (fun x : State => { x with gov := s4.gov }) h3
  have h6 : s6.apart = s4.apart :=
    (upTo_keeps State.apart _ _ _ fun _ _ => closeTick_apart ..).trans
      (upTo_keeps State.apart _ _ _ fun _ _ => (deficits_apart ..).trans (accountPart_apart ..))
  have hg6 : s6.gov = epochGov (ledgerGov s.gov (tickEnergy s i) (feedProduct i) parts) idle := by
    rw [gov_of_apart h6, hg4, hg3]
  have hu : s6.apart = ({ s with gov := s6.gov } : State).apart := by
    rw [gov_of_apart h6]
    exact h6.trans h4
  have hb6 : s6.boot = s.boot := (boot_of_apart hu :)
  have hp6 : s6.plt = s.plt := (plt_of_apart hu :)
  clear_value s6
  -- the loops, then what is reported, regranted and noted
  extract_lets p b g4 plt4
  split
  next a asserted heq =>
  extract_lets held set s7 s8 s9
  have ha : loopA i s6 = a := congrArg Prod.fst heq
  have hg7 : s7.gov = loopGov i s6 := by
    rw [loopGov, ha]
  have h9 : s9.apart = s7.apart := by
    refine (upTo_keeps State.apart _ _ _ fun _ _ => regrant_apart ..).trans ?_
    simp only [s8]
    split
    · rw [chipErr_apart, inc16_apart]
    · rfl
  have hlast : (idleFlits (levelSamples s9)).apart = s7.apart := by
    rw [idleFlits_apart, levelSamples_apart, h9]
  obtain ⟨above, below, e⟩ := trackInlet_eq (idleFlits (levelSamples s9))
  have hplt : (trackInlet (idleFlits (levelSamples s9))).apart =
      ({ s7 with plt := { s7.plt with overSince := above, underSince := below } } : State).apart := by
    rw [e]
    exact congrArg (fun x : State => { x with plt := { x.plt with overSince := above, underSince := below } }) hlast
  refine ⟨s6, parts, idle, { s7.plt with overSince := above, underSince := below }, hb6, hp6, hg6, fun h => ?_, ?_, ?_, ?_⟩
  · rw [hsum h, hg6]
    rfl
  · rw [hplt, ← hg7]
    exact congrArg (fun x : State => { x with
      gov := s7.gov, plt := { s7.plt with overSince := above, underSince := below } }) hu
  · rw [ha, ← hb6, ← hp6]
  · rw [ha, ← hb6, ← hp6]

/-! ## The obligation -/

theorem exec_governorTick {i : TickIn} {s : State} (hl : i.est.length = 32) (hs : s.gov.started = true)
    (hr : s.boot.refclk = true) (hp : s.boot.pwrgood = true) :
    exec (.governorTick i) s = doneTime s (tickBody i (settle s)) :=
  (if_neg (by simp [hl])).trans (if_neg (by simp [hs, hr, hp]))

theorem syn_of_apart {s t : State} (h : t.apart = s.apart) : t.syn = { s.syn with trackers := t.syn.trackers } :=
  (congrArg (fun x : State => { x.syn with trackers := t.syn.trackers }) h :)

theorem capW_congr {s t : State} (hb : t.boot = s.boot) (hl : t.gov.limpPower = s.gov.limpPower)
    (hf : t.gov.feedCap = s.gov.feedCap) : capW t = capW s := by
  rw [capW, capW, State.charter, State.charter, hb, hl, hf]

/-- Settles O9: the tick on the settled state, by `tickBody_spec`. -/
theorem governorTickAdvancesLedgersAndCharges : Obligations.GovernorTickAdvancesLedgersAndCharges := by
  intro i s hl hs hr hp
  refine ⟨_, exec_governorTick hl hs hr hp, ?_⟩
  obtain ⟨e, -, -⟩ := settle_settled s
  generalize settle s = u at e
  obtain ⟨regs, gov, rfl⟩ : ∃ regs gov, u = { s with regs := regs, gov := gov } := ⟨_, _, e⟩
  clear e
  obtain ⟨v, parts, idle, plt, hboot, hplt, hgov, hcharges, hapart, hset, hframe⟩ :=
    tickBody_spec i { s with regs := regs, gov := gov }
  have htime := congrArg State.time (tickBody_frame i { s with regs := regs, gov := gov })
  generalize tickBody i { s with regs := regs, gov := gov } = t at hapart htime
  intro u energy exact
  have hbooks : t.gov = loopGov i v := gov_of_apart hapart
  have hplant : t.plt = plt := plt_of_apart hapart
  have hparts : t.gov.parts = parts := by
    rw [hbooks, loopGov, hgov]
    rfl
  have hover : v.gov.a.overCnt = gov.a.overCnt := by
    rw [hgov]
    rfl
  have hcap : capW v = capW u := capW_congr hboot (by rw [hgov]; rfl) (by rw [hgov]; rfl)
  have hfields : t.gov = { epochGov (ledgerGov gov energy (feedProduct i) parts) idle with
      a := t.gov.a, b := t.gov.b, held := t.gov.held } := by
    rw [hbooks, loopGov, hgov]
    rfl
  obtain ⟨hwork, hunits⟩ := ledgerGov_work gov energy (feedProduct i) parts
  obtain ⟨hfull, hearly⟩ := epochGov_ends (ledgerGov gov energy (feedProduct i) parts) idle
  refine ⟨htime, ?_, fun h => ?_, ?_, ?_, fun h => ?_, fun h => ?_, fun h => ?_, fun hadc hover' hcnt => ?_, fun hf => ?_,
    fun hf => ?_, ?_, ?_, ?_, ?_, ?_, ?_, ?_, rfl, rfl, rfl, rfl⟩
  · exact (congrArg Gov.tickNo hfields :)
  · change t.gov.workRem < _ ∧ (t.gov.lastWork : Int) * _ + t.gov.workRem = _
    rw [hfields]
    exact hwork h
  · change t.gov.work * _ + t.gov.workFrac = _ + t.gov.lastWork
    rw [hfields]
    exact hunits
  · change t.gov.feed * _ + t.gov.feedRem = _
    rw [hfields]
    exact ledgerGov_feed gov energy (feedProduct i) parts
  · change ((List.range _).map (fun p => (t.gov.parts.get {} p).lastCharge)).sum = t.gov.lastWork
    rw [hparts, hbooks]
    exact hcharges h
  · change t.gov.endDue = true ∧ t.gov.earlyDue = false
    rw [hfields] at h ⊢
    exact hfull h
  · change _ ≤ t.gov.adv
    rw [hfields] at h ⊢
    exact hearly h
  · change t.gov.a.clamp = true
    rw [hbooks]
    exact govTick_clamp (by rw [hplt]; exact hadc) (by rw [hcap]; exact hover') (by rw [hover]; exact hcnt)
  · change t.plt.setpoint = (2048 + roundW t.gov.a.u).toNat ∧ t.plt.frame.toNat / 4096 = 10 ∧
      t.plt.frame.toNat % 4096 = t.plt.setpoint % 4096
    rw [if_neg (by simp [hf])] at hset hframe
    rw [hplant, hbooks, hset, hframe]
    exact ⟨rfl, resFrame_fields _⟩
  · rw [if_pos (Option.isSome_iff_ne_none.2 hf)] at hset hframe
    exact ⟨(congrArg Plant.setpoint hplant).trans hset, (congrArg Plant.frame hplant).trans hframe⟩
  · exact (syn_of_apart hapart :)
  · exact (congrArg State.mem hapart :)
  · exact (congrArg State.poison hapart :)
  · exact (congrArg State.hq hapart :)
  · exact (congrArg State.lnk hapart :)
  · exact (congrArg State.trc hapart :)
  · exact (congrArg State.sketch hapart :)

end Sys2Proof.Machine

namespace Sys2Proof.Machine

/-! # The plant's loops (R87 to R101) -/

/-! ## A loop's output (R90) -/

theorem limit_mem {hlo hhi : Int} (h : hlo ≤ hhi) (v rlo rhi : Int) :
    hlo ≤ limit v rlo rhi hlo hhi ∧ limit v rlo rhi hlo hhi ≤ hhi :=
  ⟨le_max_left .., max_le h (min_le_left ..)⟩

/-- Whatever the error, the integral and the gains, the hardware's limits hold the output. -/
theorem loopStep_mem {hlo hhi : Int} (h : hlo ≤ hhi) (g : Gains) (kpMax kiMax one err integ : Int) :
    hlo ≤ (loopStep g kpMax kiMax one err integ hlo hhi).1 ∧ (loopStep g kpMax kiMax one err integ hlo hhi).1 ≤ hhi :=
  limit_mem h ..

/-! ## The clamp's release (R98) -/

/-- A step of the clamp's stretch ratio: the loops by `f`, the instant noted. -/
def clampStep (s : State) (f : GovLoop → GovLoop) : State :=
  { bothLoops s f with plt := { s.plt with kStepAt := s.time } }

theorem noteClamp_clampStep (s : State) (f : GovLoop → GovLoop) :
    ∃ regs, noteClamp (clampStep s f) = { clampStep s f with regs := regs } := by
  unfold noteClamp
  split
  · exact ⟨_, rfl⟩
  · exact ⟨_, rfl⟩

theorem exec_clampRelease {s : State} (hp : plantRuns s = true) (hc : s.gov.a.clamp = true) (he : s.gov.a.excess = 0)
    (hr : 200 ≤ s.gov.a.relCnt) : exec .clampRelease s =
      done s (noteClamp (clampStep s fun g => { g with clamp := false, relCnt := 0, k := Nat.min 16 (g.k + 1) })) :=
  if_neg (by simp [hp, hc, he, hr])

theorem exec_clampKStep {s : State} (hp : plantRuns s = true) (hc : s.gov.a.clamp = false) (hk : s.gov.a.k < 16)
    (ht : s.plt.kStepAt + 10000 ≤ s.time) : exec .clampKStep s =
      done s (noteClamp (clampStep s fun g => { g with k := Nat.min 16 (g.k + 1) })) :=
  if_neg (by simp [hp, hc, hk, ht])

/-! ## Reconciliation (R101) -/

theorem setFld_mod_low (w lo len v : Nat) : setFld w lo len v % 2 ^ lo = w % 2 ^ lo := by
  have h : 2 ^ lo * fld w lo len ≤ w := by
    rw [fld, Nat.shiftRight_eq_div_pow]
    exact (Nat.mul_le_mul_left _ (Nat.mod_le ..)).trans (Nat.mul_div_le ..)
  rw [setFld, Nat.add_mul_mod_self_right, Nat.mul_comm, Nat.sub_mul_mod h]

/-- A field written leaves the bits below it. -/
theorem rdF_wrF_below (s : State) (a lo len v : Nat) (h : lo + len ≤ 32) :
    rdF (wrF s a lo len v) a 0 lo = rdF s a 0 lo := by
  simp only [rdF, wrF, rd_wr, if_true, fld, Nat.shiftRight_zero]
  rw [BitVec.toNat_ofNat, Nat.mod_eq_of_lt (setFld_lt _ _ _ _ (rd s a).isLt h), setFld_mod_low]

/-- The energy that the reservoir's voltage shows, as the device computes it (R101). -/
def State.resEnergy (s : State) : Nat :=
  eVolt s.charter.usableLu s.plt.resV s.plt.vFull.toNat s.plt.vEmpty.toNat

theorem reconcile_eq (s : State) : ∃ regs,
    reconcile s = { s with
      regs := regs, plt := { s.plt with coulomb := s.resEnergy, dueAt := none, lastRec := s.time } } ∧
    rdF { s with regs := regs } 0x0003002C 0 16 = Nat.min (rdF s 0x0003002C 0 16 + 1) 65535 := by
  unfold reconcile
  extract_lets +onlyGivenNames e diff full s1 s2 s3
  have h2 : rdF s2 0x0003002C 0 16 = Nat.min (rdF s 0x0003002C 0 16 + 1) 65535 :=
    (rdF_wrF_below s1 0x0003002C 16 16 _ (by decide)).trans (rdF_inc16_same s 0x0003002C)
  obtain ⟨regs, e3, h3⟩ : ∃ regs, s3 = { s with regs := regs } ∧
      rdF { s with regs := regs } 0x0003002C 0 16 = rdF s2 0x0003002C 0 16 := by
    simp only [s3]
    split
    · exact ⟨_, rfl, rdF_wrF_other s2 0x00030000 0x0003002C 3 1 1 0 16 (by decide)⟩
    · exact ⟨_, rfl, rfl⟩
  exact ⟨regs, by rw [e3]; rfl, h3.trans h2⟩

/-! ## The reservoir's loop (R90) -/

/-- A governor's reservoir loop, one period. -/
def reservoirTurn (s : State) (g : GovLoop) : GovLoop :=
  let r := loopStep (gainsOf s 1) (kpMax 1) (kiMax 1) (2 ^ 32) ((s.charter.socTarget * 65536 : Nat) - (soc16 s : Int)) g.resInt 0
    ((s.plt.lim1.vote * 2 ^ 32 : Nat))
  { g with cReq := r.1 / 65536, resInt := r.2 }

theorem reservoirTurn_cReq (s : State) (g : GovLoop) :
    0 ≤ (reservoirTurn s g).cReq ∧ (reservoirTurn s g).cReq ≤ (s.plt.lim1.vote : Int) * 65536 := by
  simp only [reservoirTurn]
  have h := loopStep_mem (Int.natCast_nonneg (s.plt.lim1.vote * 2 ^ 32)) (gainsOf s 1) (kpMax 1) (kiMax 1) (2 ^ 32)
    ((s.charter.socTarget * 65536 : Nat) - (soc16 s : Int)) g.resInt
  push_cast at h ⊢
  omega

/-- The reservoir's loop before a reconciliation: the request, and the energy that a handshake makes known. -/
def reservoirRun (s : State) : State :=
  { bothLoops s (reservoirTurn s) with plt := { s.plt with eVolt := if s.plt.convOk then s.resEnergy else 0 } }

theorem exec_reservoirLoop {s : State} (hp : plantRuns s = true) (hu : s.charter.usableLu ≠ 0) :
    exec .reservoirLoop s = done s (
      if s.plt.dueAt.isSome && s.plt.convOk && 10000 ≤ s.plt.quiet && !s.plt.active.contains .resAdc then
        reconcile (reservoirRun s)
      else reservoirRun s) :=
  if_neg (by simp [hp, hu])

theorem exec_reconcileDue {s : State} (hp : plantRuns s = true) (hu : s.charter.usableLu ≠ 0) (hd : s.plt.dueAt = none)
    (hdue : s.plt.convOk = true ∧ 31840 * s.plt.vFull.toNat ≤ 100000 * s.plt.resV ∨
      s.plt.lastRec + 600000000000 ≤ s.time) :
    exec .reconcileDue s = done s { s with plt := { s.plt with dueAt := some s.time } } := by
  refine if_neg ?_
  rcases hdue with ⟨hc, hv⟩ | ht
  · simp [hp, hu, hd, hc, hv]
  · simp [hp, hu, hd, ms, ht]

/-- A time noted at `d` is `n` ns past. -/
theorem any_elapsed {o : Option Nat} {d n now : Nat} (h : o = some d) (ht : d + n ≤ now) :
    o.any (fun t => t + n ≤ now) = true := by
  rw [h]
  exact decide_eq_true ht

theorem exec_reconcileSkip {s : State} {d : Nat} (hd : s.plt.dueAt = some d) (ht : d + 60000000000 ≤ s.time) :
    exec .reconcileSkip s = done s { inc16 s 0x00030030 with
      plt := { (inc16 s 0x00030030).plt with dueAt := none, lastRec := s.time } } := by
  have hms : 60000 * ms = 60000000000 := rfl
  rw [← hms] at ht
  exact if_neg (by simp [any_elapsed hd ht])

/-! ## The coulomb count (R100) -/

/-- The count after a sample, within 0 and the reservoir's usable energy. -/
def coulombNext (s : State) (v i : BitVec 12) : Nat :=
  (max 0 (min ((s.charter.usableLu * 65536 : Nat) : Int) ((s.plt.coulomb : Int) - (v.toNat : Int) * i.toInt * 10))).toNat

theorem coulombNext_eq (s : State) (v i : BitVec 12) : (coulombNext s v i : Int) =
    max 0 (min ((s.charter.usableLu : Int) * 65536) ((s.plt.coulomb : Int) - (v.toNat : Int) * i.toInt * 10)) := by
  rw [coulombNext, Int.toNat_of_nonneg (le_max_left ..), Nat.cast_mul, Nat.cast_ofNat]

theorem exec_reservoirAdcSample {s : State} (hp : plantRuns s = true) (hu : s.charter.usableLu ≠ 0) (v i : BitVec 12) :
    exec (.reservoirAdcSample v i) s = done s { s with plt := { s.plt with
      resV := v.toNat, resI := i.toInt
      resOver := if resOverrange v i then s.plt.resOver + 1 else 0
      coulomb := if s.plt.active.contains .resAdc then s.plt.coulomb else coulombNext s v i
      convOff := if powerOff s v i then some (s.plt.convOff.getD s.time) else none
      quiet := if i.toInt.natAbs * 200 < 4096 then s.plt.quiet + 1 else 0 } } :=
  if_neg (by simp [hp, hu])

/-! ## The obligation -/

/-- Settles O13: each row by what it answers under its guard. -/
theorem clampAndReservoirRowsTakeEffect : Obligations.ClampAndReservoirRowsTakeEffect := by
  refine ⟨fun s hp hc he hr => ?_, fun s hp hc hk ht => ?_, fun s hp hu => ?_, fun s hp hu hd hdue => ?_,
    fun d s hd ht => ?_, fun v i s hp hu => ?_⟩
  · obtain ⟨regs, e⟩ := noteClamp_clampStep s _
    exact runs_of_done ((exec_clampRelease hp hc he hr).trans (congrArg (done s) e)) ⟨rfl, rfl, rfl⟩
  · obtain ⟨regs, e⟩ := noteClamp_clampStep s _
    exact runs_of_done ((exec_clampKStep hp hc hk ht).trans (congrArg (done s) e))
      ⟨rfl, congrArg (fun k => { s.gov.a with k := k }) (Nat.min_eq_right hk), rfl⟩
  · have hexec := exec_reservoirLoop hp hu
    obtain ⟨hlo, hhi⟩ := reservoirTurn_cReq s s.gov.a
    split at hexec
    next h =>
      obtain ⟨regs, e, hcount⟩ := reconcile_eq (reservoirRun s)
      rw [e] at hexec
      exact runs_of_done hexec ⟨rfl, hlo, hhi, (if_pos (by simpa [and_assoc] using h)).mpr ⟨rfl, rfl, rfl, hcount⟩⟩
    next h =>
      exact runs_of_done hexec ⟨rfl, hlo, hhi, (if_neg (by simpa [and_assoc] using h)).mpr ⟨rfl, rfl, rfl⟩⟩
  · exact runs_of_done (exec_reconcileDue hp hu hd hdue) rfl
  · obtain ⟨regs, e, hcount, -⟩ := inc16_eq s 0x00030030
    have hexec := exec_reconcileSkip hd ht
    rw [e] at hexec
    exact runs_of_done hexec ⟨rfl, hcount⟩
  · refine runs_of_done (exec_reservoirAdcSample hp hu v i) ⟨rfl, rfl, rfl, fun ha => ?_, fun ha => if_pos ha⟩
    exact (congrArg Nat.cast (if_neg (by simpa using ha))).trans (coulombNext_eq s v i)

end Sys2Proof.Machine

namespace Sys2Proof.Machine

/-! # Pump, valve, voltage and sensors (R87, R89, R90, R95) -/

/-! ## Pump and valve (R90) -/

/-- A governor's pump loop, one period with the error `err`. -/
def pumpTurn (s : State) (err : Int) (g : GovLoop) : GovLoop :=
  let r := loopStep (gainsOf s 2) (kpMax 2) (kiMax 2) (2 ^ 20) err g.pumpInt ((s.plt.lim4.vote * 1048576 : Nat)) 104857600
  { g with pumpDuty := r.1, pumpInt := r.2 }

theorem pumpTurn_duty {s : State} (h : s.plt.lim4.vote ≤ 100) (err : Int) (g : GovLoop) :
    (s.plt.lim4.vote : Int) * 1048576 ≤ (pumpTurn s err g).pumpDuty ∧
      (pumpTurn s err g).pumpDuty ≤ 100 * 1048576 := by
  have hle : ((s.plt.lim4.vote * 1048576 : Nat) : Int) ≤ 104857600 := by omega
  obtain ⟨hlo, hhi⟩ := loopStep_mem hle (gainsOf s 2) (kpMax 2) (kiMax 2) (2 ^ 20) err g.pumpInt
  rw [Nat.cast_mul] at hlo
  exact ⟨hlo, hhi⟩

theorem exec_pumpLoop {s : State} (hp : plantRuns s = true) (hl : s.charter.isLimp = false) (ht : roleTemps s 2 ≠ [])
    (rpm : W16) : ∃ err, exec (.pumpLoop rpm) s =
      done s (bothLoops { s with plt := { s.plt with rpm := rpm } } (pumpTurn s err)) := by
  obtain ⟨x, r, hr⟩ := List.exists_cons_of_ne_nil ht
  refine ⟨r.foldl max x - s.charter.outletTarget * 16, ?_⟩
  change execPumpLoop rpm s = _
  simp only [execPumpLoop, hp, hr, hl]
  rfl

/-- A governor's valve loop, one period. -/
def valveTurn (s : State) (g : GovLoop) : GovLoop :=
  let r := loopStep (gainsOf s 3) (kpMax 3) (kiMax 3) (2 ^ 20) (320 - inletUse s) g.valveInt 0
    (if s.charter.valveMode = 0 ∨ s.charter.isLimp then 0 else 104857600)
  { g with valveDuty := r.1, valveInt := r.2 }

theorem valveTurn_duty (s : State) (g : GovLoop) :
    0 ≤ (valveTurn s g).valveDuty ∧ (valveTurn s g).valveDuty ≤ 100 * 1048576 ∧
      (s.charter.valveMode = 0 → (valveTurn s g).valveDuty = 0) := by
  have h (hi : Int) (h0 : 0 ≤ hi) :=
    loopStep_mem h0 (gainsOf s 3) (kpMax 3) (kiMax 3) (2 ^ 20) (320 - inletUse s) g.valveInt
  simp only [valveTurn]
  split
  · have := h 0 (by decide)
    omega
  next hm =>
    have := h 104857600 (by decide)
    exact ⟨this.1, this.2, fun h0 => absurd (.inl h0) hm⟩

/-! ## Regulators (R89, R90) -/

/-- Regulator `n`'s unacknowledged frames in a row after one more frame. -/
def nakNext (g : GovLoop) (n : Nat) (ack : Bool) : Nat := if ack then 0 else g.nak.get 0 n + 1

/-- A governor's loop of regulator `n`, one period: its frame acknowledged or not. -/
def voltTurn (s : State) (n : Nat) (slack : Int) (ack : Bool) (g : GovLoop) : GovLoop :=
  let g1 := { g with nak := g.nak.put 0 n (nakNext g n ack) }
  if 3 ≤ nakNext g n ack then g1
  else
    let r := loopStep (gainsOf s 4) (kpMax 4) (kiMax 4) 65536 (slack - 8) (g.voltInt.get 0 n) (-50 * 65536) (50 * 65536)
    { g1 with trim := g.trim.put 0 n r.1, voltInt := g.voltInt.put 0 n r.2 }

section
variable (s : State) (n : Nat) (slack : Int) (ack : Bool) (g : GovLoop)

theorem voltTurn_nak : (voltTurn s n slack ack g).nak.get 0 n = nakNext g n ack := by
  simp only [voltTurn]
  split
  · exact Tbl.get_put_same ..
  · exact Tbl.get_put_same ..

/-- From the third unacknowledged frame in a row the trims are held. -/
theorem voltTurn_held (h : 3 ≤ (voltTurn s n slack ack g).nak.get 0 n) : (voltTurn s n slack ack g).trim = g.trim := by
  rw [voltTurn_nak] at h
  simp only [voltTurn, if_pos h]

/-- Before, the regulator's trim lies within 50 mV. -/
theorem voltTurn_trim (h : (voltTurn s n slack ack g).nak.get 0 n < 3) :
    -50 * 65536 ≤ (voltTurn s n slack ack g).trim.get 0 n ∧ (voltTurn s n slack ack g).trim.get 0 n ≤ 50 * 65536 := by
  rw [voltTurn_nak] at h
  simp only [voltTurn, if_neg (Nat.not_le.2 h), Tbl.get_put_same]
  exact loopStep_mem (by decide) ..

theorem voltTurn_trim_other {m : Nat} (h : m ≠ n) : (voltTurn s n slack ack g).trim.get 0 m = g.trim.get 0 m := by
  simp only [voltTurn]
  split
  · rfl
  · exact Tbl.get_put_other _ _ _ _ _ h

end

theorem exec_voltageLoop {s : State} {n : Fin 8} (hp : plantRuns s = true) (hn : s.charter.regAddr.getD n 0 ≠ 0)
    (slack : Int) (ack : Bool) : exec (.voltageLoop n slack ack) s =
      done s { bothLoops s (voltTurn s n slack ack) with plt := { s.plt with
        avsOk := s.plt.avsOk.put false n ack
        active := if ack then s.plt.active.filter (· != .avsbus n) else s.plt.active } } :=
  if_neg (not_or.2 ⟨by simp [hp], hn⟩)

/-! ## Temperature sensors (R87) -/

/-- A sensor once it was polled for the reading `r`; `lost` says that a loss of it is in effect. -/
def Sensor.polled (x : Sensor) (lost : Bool) (r : Option Int) : Sensor :=
  if x.enumerated then
    match r with
    | some v => { x with temp := v, fails := 0, valid := x.valid || !lost }
    | none => { x with fails := x.fails + 1, valid := x.valid && x.fails + 1 < 3 }
  else x

theorem Sensor.polled_spec (x : Sensor) (lost : Bool) (r : Option Int) :
    (x.enumerated = false → x.polled lost r = x) ∧
    (∀ v, x.enumerated = true → r = some v →
      (x.polled lost r).temp = v ∧ (x.polled lost r).fails = 0 ∧ (x.polled lost r).valid = (x.valid || !lost)) ∧
    (x.enumerated = true → r = none →
      (x.polled lost r).temp = x.temp ∧ (x.polled lost r).fails = x.fails + 1 ∧
      (2 ≤ x.fails → (x.polled lost r).valid = false)) := by
  refine ⟨fun he => ?_, fun v he hr => ?_, fun he hr => ?_⟩
  · simp [polled, he]
  · simp [polled, he, hr]
  · simp only [polled, he, hr, if_true, true_and]
    intro h2
    rw [decide_eq_false (by omega), Bool.and_false]

/-- SENSOR_POLL's turn for sensor `i`. -/
def pollTurn (s : State) (r : List (Option Int)) (t : Tbl Sensor) (i : Nat) : Tbl Sensor :=
  let x := t.get {} i
  if !x.enumerated then t
  else match r.getD i none with
    | some v => t.put {} i { x with temp := v, fails := 0, valid := x.valid || !lossOn s (.temp (Fin.ofNat 8 i)) }
    | none => t.put {} i { x with fails := x.fails + 1, valid := x.valid && x.fails + 1 < 3 }

theorem pollTurn_same (s : State) (r : List (Option Int)) (t : Tbl Sensor) (i : Nat) :
    (pollTurn s r t i).get {} i = (t.get {} i).polled (lossOn s (.temp (Fin.ofNat 8 i))) (r.getD i none) := by
  simp only [pollTurn, Sensor.polled]
  cases (t.get {} i).enumerated with
  | false => rfl
  | true =>
    cases r.getD i none with
    | some v => simp
    | none => simp

theorem pollTurn_other (s : State) (r : List (Option Int)) (t : Tbl Sensor) (i j : Nat) (h : j ≠ i) :
    (pollTurn s r t i).get {} j = t.get {} j := by
  simp only [pollTurn]
  split
  · rfl
  · split
    · exact Tbl.get_put_other _ _ _ _ _ h
    · exact Tbl.get_put_other _ _ _ _ _ h

theorem get_upTo_pollTurn (s : State) (r : List (Option Int)) {n : Nat} (h : n < 8) :
    (upTo 8 s.plt.sensors (pollTurn s r)).get {} n =
      (s.plt.sensors.get {} n).polled (lossOn s (.temp (Fin.ofNat 8 n))) (r.getD n none) :=
  (upTo_at_index (fun (t : Tbl Sensor) i => t.get {} i)
    (fun i x => x.polled (lossOn s (.temp (Fin.ofNat 8 i))) (r.getD i none)) (pollTurn s r)
    (pollTurn_same s r) (pollTurn_other s r) 8 s.plt.sensors n).trans (if_pos h)

theorem exec_sensorPoll {s : State} {r : List (Option Int)} (hr : r.length = 8) (hp : plantRuns s = true) :
    exec (.sensorPoll r) s =
      done s (trackInlet { s with plt := { s.plt with sensors := upTo 8 s.plt.sensors (pollTurn s r) } }) :=
  (if_neg (by simp [hr])).trans (if_neg (by simp [hp]))

/-! ## The inlet's rating (R95) -/

theorem exec_inletOver {s : State} {d : Nat} (ho : s.plt.inletOver = false) (hd : s.plt.overSince = some d)
    (ht : d + 10000000000 ≤ s.time) :
    exec .inletOver s = done s { s with plt := { s.plt with inletOver := true } } := by
  have hms : 10000 * ms = 10000000000 := rfl
  rw [← hms] at ht
  exact if_neg (by simp [ho, any_elapsed hd ht])

theorem exec_inletOverClear {s : State} {d : Nat} (ho : s.plt.inletOver = true) (hd : s.plt.underSince = some d)
    (ht : d + 10000000000 ≤ s.time) :
    exec .inletOverClear s = done s { s with plt := { s.plt with inletOver := false } } := by
  have hms : 10000 * ms = 10000000000 := rfl
  rw [← hms] at ht
  exact if_neg (by simp [ho, any_elapsed hd ht])

/-! ## The obligation -/

/-- Settles O14: each row by what its turn leaves. -/
theorem coolantVoltageAndSensorRowsTakeEffect : Obligations.CoolantVoltageAndSensorRowsTakeEffect := by
  refine ⟨fun rpm s hp hl ht hv => ?_, fun s hp => ?_, fun n slack ack s hp hn => ?_, fun r s hr hp => ?_,
    fun d s ho hd ht => runs_of_done (exec_inletOver ho hd ht) rfl,
    fun d s ho hd ht => runs_of_done (exec_inletOverClear ho hd ht) rfl⟩
  · obtain ⟨err, hexec⟩ := exec_pumpLoop hp hl ht rpm
    exact runs_of_done hexec ⟨rfl, pumpTurn_duty hv err s.gov.a⟩
  · have hexec : exec .valveLoop s = done s (bothLoops s (valveTurn s)) := if_neg (by simp [hp])
    exact runs_of_done hexec ⟨rfl, valveTurn_duty s s.gov.a⟩
  · exact runs_of_done (exec_voltageLoop hp hn slack ack) ⟨rfl, voltTurn_nak .., voltTurn_trim s n slack ack s.gov.a,
      voltTurn_held s n slack ack s.gov.a, fun m hm => voltTurn_trim_other _ _ _ _ _ (Fin.val_ne_of_ne hm)⟩
  · have hexec := exec_sensorPoll hr hp
    have hget (n : Nat) (hn : n < 8) := get_upTo_pollTurn s r hn
    generalize upTo 8 s.plt.sensors (pollTurn s r) = sensors at hexec hget
    obtain ⟨above, below, e⟩ := trackInlet_eq { s with plt := { s.plt with sensors := sensors } }
    rw [e] at hexec
    refine runs_of_done hexec ⟨rfl, fun n hn => ?_⟩
    have hspec := Sensor.polled_spec (s.plt.sensors.get {} n) (lossOn s (.temp (Fin.ofNat 8 n))) (r.getD n none)
    rw [← hget n hn] at hspec
    exact hspec

end Sys2Proof.Machine

namespace Sys2Proof.Machine

/-! # Droop and junctions (R93, R94) -/

/-! ## Droop (R93) -/

/-- A counter of 32 bits moves on by `n`. -/
theorem inc32_eq (s : State) (a n : Nat) : ∃ regs, inc32 s a n = { s with regs := regs } ∧
    rd { s with regs := regs } a = rd s a + BitVec.ofNat 32 n := by
  refine ⟨_, rfl, (rd_wr s a a _).trans ?_⟩
  rw [if_pos rfl, BitVec.ofNat_add, BitVec.ofNat_toNat, BitVec.setWidth_eq]

theorem exec_droopStretch {s : State} {c : CoreId} (h : s.plt.droop.get false c = false) :
    exec (.droopStretch c) s = done s { inc32 s 0x000300B4 1 with
      plt := { (inc32 s 0x000300B4 1).plt with droop := (inc32 s 0x000300B4 1).plt.droop.put false c true } } :=
  if_neg (by simp [h])

/-! ## The junctions' readings (R94) -/

/-- A junction at 110 C or above. -/
def scorching (j : Option Int) : Bool := j.any (fun x => 1760 ≤ x)

/-- Core `c`'s junction read, and noted when it changed class. -/
def junctionNoted (now : Nat) (j : Option Int) (t : State) (c : Nat) : State :=
  let t1 := { t with plt := { t.plt with junction := t.plt.junction.put (some 0) c j } }
  if jClass t1 c ≠ jClass t c then { t1 with plt := { t1.plt with jStep := t1.plt.jStep.put 0 c now } } else t1

theorem junctionNoted_eq (now : Nat) (j : Option Int) (t : State) (c : Nat) : ∃ jStep, junctionNoted now j t c =
    { t with plt := { t.plt with junction := t.plt.junction.put (some 0) c j, jStep := jStep } } := by
  unfold junctionNoted
  extract_lets t1
  split
  · exact ⟨_, rfl⟩
  · exact ⟨_, rfl⟩

/-- JUNCTION_READ's turn for core `c`. -/
def junctionTurn (now : Nat) (r : List (Option Int)) (t : State) (c : Nat) : State :=
  let t2 := junctionNoted now (r.getD c none) t c
  if scorching (r.getD c none) then
    { t2 with plt := { t2.plt with jCeil := t2.plt.jCeil.put 1800 c (Nat.min 400 (t2.plt.jCeil.get 1800 c)) } }
  else t2

theorem junctionTurn_eq (now : Nat) (r : List (Option Int)) (t : State) (c : Nat) : ∃ jStep jCeil,
    junctionTurn now r t c = { t with plt := { t.plt with
      junction := t.plt.junction.put (some 0) c (r.getD c none), jStep := jStep, jCeil := jCeil } } ∧
    (jCeil.get 1800 c = if scorching (r.getD c none) then Nat.min 400 (t.plt.jCeil.get 1800 c) else t.plt.jCeil.get 1800 c) ∧
    ∀ d, d ≠ c → jCeil.get 1800 d = t.plt.jCeil.get 1800 d := by
  obtain ⟨jStep, e⟩ := junctionNoted_eq now (r.getD c none) t c
  rw [junctionTurn, e]
  split
  · exact ⟨jStep, _, rfl, Tbl.get_put_same .., fun d hd => Tbl.get_put_other _ _ _ _ _ hd⟩
  · exact ⟨jStep, _, rfl, rfl, fun d _ => rfl⟩

section
variable (now : Nat) (r : List (Option Int)) (t : State)

theorem junctionTurn_only_plt (c : Nat) : junctionTurn now r t c = { t with plt := (junctionTurn now r t c).plt } := by
  obtain ⟨jStep, jCeil, e, -⟩ := junctionTurn_eq now r t c
  rw [e]

theorem junctionTurn_junction (c d : Nat) : (junctionTurn now r t c).plt.junction.get (some 0) d =
    if d = c then r.getD c none else t.plt.junction.get (some 0) d := by
  obtain ⟨jStep, jCeil, e, -⟩ := junctionTurn_eq now r t c
  rw [e]
  exact Tbl.get_put ..

theorem junctionTurn_jCeil_same (c : Nat) : (junctionTurn now r t c).plt.jCeil.get 1800 c =
    if scorching (r.getD c none) then Nat.min 400 (t.plt.jCeil.get 1800 c) else t.plt.jCeil.get 1800 c := by
  obtain ⟨jStep, jCeil, e, h, -⟩ := junctionTurn_eq now r t c
  rw [e]
  exact h

theorem junctionTurn_jCeil_other (c d : Nat) (hd : d ≠ c) :
    (junctionTurn now r t c).plt.jCeil.get 1800 d = t.plt.jCeil.get 1800 d := by
  obtain ⟨jStep, jCeil, e, -, h⟩ := junctionTurn_eq now r t c
  rw [e]
  exact h d hd

end

/-- The 32 turns change the plant only: each core's reading, and its ceiling where that is 110 C or above. -/
theorem junctions_eq (now : Nat) (r : List (Option Int)) (s : State) : ∃ plt,
    upTo 32 s (junctionTurn now r) = { s with plt := plt } ∧
    ∀ c < 32, plt.junction.get (some 0) c = r.getD c none ∧ plt.jCeil.get 1800 c =
      if scorching (r.getD c none) then Nat.min 400 (s.plt.jCeil.get 1800 c) else s.plt.jCeil.get 1800 c := by
  refine ⟨_, upTo_induct (fun u : State => u = { s with plt := u.plt }) _ _ _ rfl fun u c hu => ?_, fun c hc => ⟨?_, ?_⟩⟩
  · rw [junctionTurn_only_plt, hu]
  · exact (upTo_at_index (fun (u : State) c => u.plt.junction.get (some 0) c) (fun c _ => r.getD c none) _
      (fun u c => (junctionTurn_junction now r u c c).trans (if_pos rfl))
      (fun u c d hd => (junctionTurn_junction now r u c d).trans (if_neg hd)) 32 s c).trans (if_pos hc)
  · exact (upTo_at_index (fun (u : State) c => u.plt.jCeil.get 1800 c)
      (fun c mhz => if scorching (r.getD c none) then Nat.min 400 mhz else mhz) _
      (junctionTurn_jCeil_same now r) (junctionTurn_jCeil_other now r) 32 s c).trans (if_pos hc)

theorem exec_junctionRead {s : State} {r : List (Option Int)} (hr : r.length = 32) (hp : plantRuns s = true) :
    exec (.junctionRead r) s = done s (upTo 32 s (junctionTurn s.time r)) :=
  (if_neg (by simp [hr])).trans (if_neg (by simp [hp]))

/-! ## The ceilings (R94) -/

/-- A step of core `c`'s ceiling to `mhz`. -/
def junctionStep (s : State) (c : CoreId) (mhz : Nat) : State :=
  { s with plt := { s.plt with jCeil := s.plt.jCeil.put 1800 c mhz, jStep := s.plt.jStep.put 0 c s.time } }

theorem exec_junctionCeilingStep_hot {s : State} {c : CoreId} (hp : plantRuns s = true) (hc : jClass s c = 2)
    (ht : s.plt.jStep.get 0 c + 100000 ≤ s.time) : exec (.junctionCeilingStep c) s =
      done s (junctionStep s c (Nat.max 400 (s.plt.jCeil.get 1800 c - 100))) :=
  (if_neg (by simp [hp])).trans (if_pos ⟨hc, ht⟩)

theorem exec_junctionCeilingStep_cool {s : State} {c : CoreId} (hp : plantRuns s = true) (hc : jClass s c = 0)
    (ht : s.plt.jStep.get 0 c + 1000000 ≤ s.time) : exec (.junctionCeilingStep c) s =
      done s (junctionStep s c (Nat.min 1800 (s.plt.jCeil.get 1800 c + 100))) :=
  (if_neg (by simp [hp])).trans ((if_neg (by simp [hc])).trans (if_pos ⟨hc, ht⟩))

theorem junctionStep_jCeil (s : State) (c : CoreId) (mhz : Nat) :
    (junctionStep s c mhz).plt.jCeil.get 1800 c = mhz ∧
      ∀ d : CoreId, d ≠ c → (junctionStep s c mhz).plt.jCeil.get 1800 d = s.plt.jCeil.get 1800 d :=
  ⟨Tbl.get_put_same .., fun _ hd => Tbl.get_put_other _ _ _ _ _ (Fin.val_ne_of_ne hd)⟩

/-! ## The obligation -/

/-- Settles O15: each row by what it answers under its guard. -/
theorem droopAndJunctionRowsTakeEffect : Obligations.DroopAndJunctionRowsTakeEffect := by
  refine ⟨fun c s h => ?_, fun c s => ?_, fun r s hr hp => ?_, fun c s hp hc ht => ?_, fun c s hp hc ht => ?_⟩
  · obtain ⟨regs, e, hcount⟩ := inc32_eq s 0x000300B4 1
    have hexec := exec_droopStretch h
    rw [e] at hexec
    refine runs_of_done hexec ⟨rfl, hcount, fun d => (Tbl.get_put ..).trans ?_⟩
    by_cases hd : d = c
    · simp [hd]
    · simp [hd, Fin.val_ne_of_ne hd]
  · refine runs_of_done (rfl : execDroopRelease c s = _) ⟨rfl, fun d => (Tbl.get_put ..).trans ?_⟩
    by_cases hd : d = c
    · simp [hd]
    · simp [hd, Fin.val_ne_of_ne hd]
  · obtain ⟨plt, e, hspec⟩ := junctions_eq s.time r s
    exact runs_of_done ((exec_junctionRead hr hp).trans (congrArg (done s) e)) ⟨rfl, hspec⟩
  · exact runs_of_done (exec_junctionCeilingStep_hot hp hc ht) ⟨rfl, junctionStep_jCeil ..⟩
  · exact runs_of_done (exec_junctionCeilingStep_cool hp hc ht) ⟨rfl, junctionStep_jCeil ..⟩

end Sys2Proof.Machine

namespace Sys2Proof.Machine

/-! # Losses of the plant (R102) -/

/-! ## A loss raised -/

theorem lossBit_lt (l : Loss) : lossBit l < 32 := by
  cases l <;> simp [lossBit]

/-- A raised loss: its flag stands, it is counted, and nothing but registers and the error log changes. -/
theorem raiseLoss_spec (s : State) (b : Nat) (h : b < 32) : ∃ regs ras,
    raiseLoss s b = { s with regs := regs, ras := ras } ∧ rdB { s with regs := regs } 0x00030004 b = true ∧
      rdF { s with regs := regs } 0x00030008 0 16 = Nat.min (rdF s 0x00030008 0 16 + 1) 0xFFFF := by
  have hflag := raiseLoss_flag s b h
  have hcount : rdF (raiseLoss s b) 0x00030008 0 16 = _ :=
    (congrArg (fun w : W32 => fld w.toNat 0 16) (raiseLoss_count s b)).trans (rdF_inc16_same s 0x00030008)
  obtain ⟨regs, ras, e⟩ := raiseLoss_eq s b
  rw [e] at hflag hcount
  exact ⟨regs, ras, e, hflag, hcount⟩

/-- The answer to a loss that is not in effect. -/
theorem activate_new {s : State} {l : Loss} (h : lossOn s l = false) :
    activate s l = { s with plt := { s.plt with active := s.plt.active ++ [l] } } := by
  rw [lossOn] at h
  rw [activate, h]
  rfl

/-- What a loss of the feed's ADC notes, and the inlet's times, are of the plant; the responses stand. -/
theorem trackInlet_noted_eq (l : Loss) (t : State) (now : Nat) : ∃ plt,
    trackInlet (if l = .feedAdc then { t with plt := { t.plt with refOkAt := now } } else t) = { t with plt := plt } ∧
      plt.active = t.plt.active := by
  split
  · obtain ⟨above, below, e⟩ := trackInlet_eq { t with plt := { t.plt with refOkAt := now } }
    exact ⟨_, e, rfl⟩
  · obtain ⟨above, below, e⟩ := trackInlet_eq t
    exact ⟨_, e, rfl⟩

theorem exec_sensorLost {s : State} {l : Loss} (hp : plantRuns s = true) (hl : lossOn s l = false)
    (hs : lossSeen s l = true) : ∃ plt regs ras,
      exec (.sensorLost l) s = done s { s with plt := plt, regs := regs, ras := ras } ∧
      plt.active = s.plt.active ++ [l] ∧ rdB { s with regs := regs } 0x00030004 (lossBit l) = true ∧
      rdF { s with regs := regs } 0x00030008 0 16 = Nat.min (rdF s 0x00030008 0 16 + 1) 0xFFFF := by
  obtain ⟨regs, ras, e, hflag, hcount⟩ := raiseLoss_spec s (lossBit l) (lossBit_lt l)
  have hexec : exec (.sensorLost l) s = done s (trackInlet (if l = .feedAdc then
      { activate (raiseLoss s (lossBit l)) l with
        plt := { (activate (raiseLoss s (lossBit l)) l).plt with refOkAt := s.time } }
      else activate (raiseLoss s (lossBit l)) l)) := if_neg (by simp [hp, hl, hs])
  have ha : activate (raiseLoss s (lossBit l)) l =
      { s with regs := regs, ras := ras, plt := { s.plt with active := s.plt.active ++ [l] } } := by
    rw [e]
    exact activate_new hl
  obtain ⟨plt, ht, hactive⟩ := trackInlet_noted_eq l
    { s with regs := regs, ras := ras, plt := { s.plt with active := s.plt.active ++ [l] } } s.time
  rw [ha, ht] at hexec
  exact ⟨plt, regs, ras, hexec, hactive, hflag, hcount⟩

/-! ## The flow's gate -/

/-- A gate of `n` pulses is bad: none came, or less than 1 l/min while the pump runs at its minimum or above. -/
abbrev badGate (s : State) (n : Nat) : Prop :=
  n = 0 ∨ n * 60000 / s.charter.flowPpl < 1000 ∧ ((s.plt.lim4.vote * 1048576 : Nat) : Int) ≤ pumpEffect s

theorem exec_flowGate {s : State} (hp : plantRuns s = true) (hf : s.charter.flowPpl ≠ 0) (n : Nat) :
    exec (.flowGate n) s = done s { s with plt := { s.plt with
      mlMin := n * 60000 / s.charter.flowPpl
      badGates := if badGate s n then s.plt.badGates + 1 else 0
      goodGates := if badGate s n then 0 else s.plt.goodGates + 1 } } :=
  if_neg (by simp [hp, hf])

/-! ## A response ended -/

theorem exec_lossResponseEnd {s : State} {l : Loss} (hl : lossOn s l = true) (ho : lossOver s l = true) :
    ∃ plt, exec (.lossResponseEnd l) s = done s { s with plt := plt } ∧ plt.active = s.plt.active.filter (· != l) := by
  have hexec : exec (.lossResponseEnd l) s = done s (trackInlet _) := if_neg (by simp [hl, ho])
  split at hexec
  next n =>
    obtain ⟨above, below, e⟩ := trackInlet_eq { s with plt := { s.plt with
      active := s.plt.active.filter (· != .temp n)
      sensors := s.plt.sensors.put {} n { s.plt.sensors.get {} n with valid := true } } }
    exact ⟨_, hexec.trans (congrArg (done s) e), rfl⟩
  next =>
    obtain ⟨above, below, e⟩ := trackInlet_eq { s with plt := { s.plt with active := s.plt.active.filter (· != l) } }
    exact ⟨_, hexec.trans (congrArg (done s) e), rfl⟩

theorem contains_filter_ne (l : List Loss) (a b : Loss) :
    (l.filter (· != a)).contains b = (decide (b ≠ a) && l.contains b) := by
  rw [Bool.eq_iff_iff]
  simp [and_comm]

/-! ## The obligation -/

/-- Settles O16: each row by what it answers under its guard. -/
theorem plantLossesAreRaisedAndEnded : Obligations.PlantLossesAreRaisedAndEnded := by
  refine ⟨fun l s hp hl hs => ?_, fun n s hp hf => ?_, fun l s hl ho => ?_, fun s => ?_⟩
  · obtain ⟨plt, regs, ras, hexec, hspec⟩ := exec_sensorLost hp hl hs
    exact runs_of_done hexec ⟨rfl, hspec⟩
  · refine runs_of_done (exec_flowGate hp hf n) ⟨rfl, fun h0 => ?_, fun h0 hml => ?_, fun h0 hml => ?_⟩
    · have hbad : badGate s n := .inl h0
      exact ⟨if_pos hbad, if_pos hbad⟩
    · have hgood : ¬ badGate s n := not_or.2 ⟨h0, fun h => absurd h.1 (Nat.not_lt.2 hml)⟩
      exact ⟨if_neg hgood, if_neg hgood⟩
    · split
      next hpump =>
        have hbad : badGate s n := .inr ⟨hml, hpump⟩
        exact ⟨if_pos hbad, if_pos hbad⟩
      next hpump =>
        have hgood : ¬ badGate s n := not_or.2 ⟨h0, fun h => hpump h.2⟩
        exact ⟨if_neg hgood, if_neg hgood⟩
  · obtain ⟨plt, hexec, hactive⟩ := exec_lossResponseEnd hl ho
    have hcontains (k : Loss) : plt.active.contains k = (decide (k ≠ l) && s.plt.active.contains k) := by
      rw [hactive, contains_filter_ne]
    refine runs_of_done hexec ⟨rfl, ?_, fun k hk => ?_⟩
    · exact (hcontains l).trans (by simp)
    · exact (hcontains k).trans (by simp [hk, lossOn])
  · exact runs_of_done (if_pos (.inr rfl)) rfl

end Sys2Proof.Machine

/-! # The slots of a clause engine -/

namespace Sys2Proof.Machine

/-! ## The state that a command answers with -/

/-- `t` as the answer of a command that ran on `s`: what every command leaves as it was is that of `s`. -/
def State.answering (t s : State) : State :=
  { t with pending := s.pending, flash := s.flash, time := s.time, boot := s.boot, sb := s.sb, freeIdx := s.freeIdx + 1 }

theorem runs_of_answering {i : Instr} {s t : State} {P : State → Prop} (h : exec i s = done s t) (hp : P (t.answering s)) :
    Runs i s P := runs_of_done h hp

section
variable (t s : State)

@[simp] theorem State.answering_time : (t.answering s).time = s.time := rfl
@[simp] theorem State.answering_boot : (t.answering s).boot = s.boot := rfl
@[simp] theorem State.answering_flash : (t.answering s).flash = s.flash := rfl
@[simp] theorem State.answering_pending : (t.answering s).pending = s.pending := rfl
@[simp] theorem State.answering_regs : (t.answering s).regs = t.regs := rfl
@[simp] theorem State.answering_mem : (t.answering s).mem = t.mem := rfl
@[simp] theorem State.answering_syn : (t.answering s).syn = t.syn := rfl
@[simp] theorem State.answering_hq : (t.answering s).hq = t.hq := rfl
@[simp] theorem State.answering_lnk : (t.answering s).lnk = t.lnk := rfl
@[simp] theorem State.answering_cores : (t.answering s).cores = t.cores := rfl
@[simp] theorem State.answering_core (k : Nat) : (t.answering s).core k = t.core k := rfl
@[simp] theorem State.answering_eng (k : Nat) (z : CE) : (t.answering s).eng k z = t.eng k z := rfl
@[simp] theorem State.answering_te (k : Nat) : (t.answering s).te k = t.te k := rfl
@[simp] theorem State.answering_pun (k p : Nat) : (t.answering s).pun k p = t.pun k p := rfl
@[simp] theorem State.answering_conj (x n : Nat) : (t.answering s).conj x n = t.conj x n := rfl
@[simp] theorem State.answering_wire (n : Nat) : (t.answering s).wire n = t.wire n := rfl
@[simp] theorem State.answering_group (x g : Nat) : (t.answering s).group x g = t.group x g := rfl
@[simp] theorem State.answering_ctx (x : Nat) : (t.answering s).ctx x = t.ctx x := rfl
@[simp] theorem State.answering_queue (f q : Nat) : (t.answering s).queue f q = t.queue f q := rfl
@[simp] theorem State.answering_flt (f : Nat) : (t.answering s).flt f = t.flt f := rfl
@[simp] theorem State.answering_rd (a : Nat) : rd (t.answering s) a = rd t a := rfl
@[simp] theorem State.answering_rdF (a l n : Nat) : rdF (t.answering s) a l n = rdF t a l n := rfl

end

/-! ## Setting one engine -/

/-- `t` is `s` with engine `e` of core `c` set to `y`, up to the layout of the table of cores. -/
def EngSet (s t : State) (c : Nat) (e : CE) (y : ClEng) : Prop :=
  t = { s with cores := t.cores } ∧ t.core c = (s.core c).setEng e y ∧ ∀ k, k ≠ c → t.core k = s.core k

theorem Core.setEng_setEng (x : Core) (e : CE) (y z : ClEng) : (x.setEng e y).setEng e z = x.setEng e z := by
  cases e <;> rfl

theorem Core.setEng_self (x : Core) (e : CE) : x.setEng e (x.eng e) = x := by cases e <;> rfl

theorem EngSet.eng {s t : State} {c : Nat} {e : CE} {y : ClEng} (h : EngSet s t c e y) : t.eng c e = y := by
  obtain ⟨-, hc, -⟩ := h
  simp [eng_eq, hc]

theorem EngSet.self (s : State) (c : Nat) (e : CE) : EngSet s s c e (s.eng c e) :=
  ⟨rfl, by rw [eng_eq, Core.setEng_self], fun _ _ => rfl⟩

theorem EngSet.setEng {s t : State} {c : Nat} {e : CE} {y : ClEng} (h : EngSet s t c e y) (z : ClEng) :
    EngSet s (t.setEng c e z) c e z := by
  obtain ⟨ht, hc, ho⟩ := h
  refine ⟨?_, ?_, fun k hk => ?_⟩
  · rw [ht]; rfl
  · rw [State.setEng, core_setCore, if_pos rfl, hc, Core.setEng_setEng]
  · rw [State.setEng, core_setCore, if_neg hk, ho k hk]

theorem engSet_setEng (s : State) (c : Nat) (e : CE) (y : ClEng) : EngSet s (s.setEng c e y) c e y :=
  (EngSet.self s c e).setEng y

theorem EngSet.onlyEngine {s t : State} {c : Nat} {e : CE} {y : ClEng} (h : EngSet s t c e y) :
    OnlyEngine s t.ticked c e := by
  have hy : t.ticked.eng c e = y := h.eng
  obtain ⟨ht, hc, ho⟩ := h
  exact ⟨by rw [ht]; rfl, by rw [hy]; exact hc, ho⟩

/-- A command that sets one engine answers, and changes nothing else. -/
theorem EngSet.done {s t : State} {c : Nat} {e : CE} {y : ClEng} (h : EngSet s t c e y) : done s t = .next t.ticked := by
  obtain ⟨ht, -, -⟩ := h
  rw [ht]; rfl

/-! ## The end of an execution (R113, R118, R120) -/

/-- Generator `n` after an execution of clause `k`. -/
def ClEng.stepped (y : ClEng) (k : Clause) (t : Tbl Agu) (n : Nat) : Tbl Agu :=
  if bit k.agstep n && !y.aguSet.contains n then t.put {} n (t.get {} n).advance else t

/-- The engine after the end of an execution: what `finishExec` makes of it. -/
def ClEng.endExec (y : ClEng) : ClEng :=
  match y.clause with
  | none => y
  | some k =>
    let y1 := { y with ag := (List.range 8).foldl (y.stepped k) y.ag, aguSet := [], done := y.done + 1 }
    if y.done + 1 < k.execs then { y1 with next := y.now + k.interval }
    else { y1 with
      clause := none, done := 0, waitOk := false, unchecked := false, taken := false, branch := none
      pc := y.branch.getD (k.addr + k.len), next := y.now + (if y.taken then 3 else 1), ending := k.isEnd }

theorem EngSet.finishExec {s t : State} {c : Nat} {e : CE} {y : ClEng} (h : EngSet s t c e y) :
    EngSet s (finishExec t c e) c e y.endExec := by
  have hy := h.eng
  simp only [Machine.finishExec, hy, ClEng.endExec]
  cases hk : y.clause with
  | none => simpa [hk] using h
  | some k =>
    simp only
    split
    · exact h.setEng _
    · exact h.setEng _

/-- The engine after a slot has acted. -/
def ClEng.acted (y : ClEng) : ClEng := if y.issuing.isEmpty then y.endExec else y

theorem EngSet.slotDone {s t : State} {c : Nat} {e : CE} {y : ClEng} (h : EngSet s t c e y) :
    EngSet s (slotDone t c e) c e y.acted := by
  simp only [Machine.slotDone, h.eng, ClEng.acted]
  split
  · exact h.finishExec
  · exact h

section
variable (y : ClEng)

@[simp] theorem ClEng.endExec_scal : y.endExec.scal = y.scal := by unfold endExec; split <;> [rfl; (dsimp only; split <;> rfl)]
@[simp] theorem ClEng.endExec_lc : y.endExec.lc = y.lc := by unfold endExec; split <;> [rfl; (dsimp only; split <;> rfl)]
@[simp] theorem ClEng.endExec_issuing : y.endExec.issuing = y.issuing := by
  unfold endExec; split <;> [rfl; (dsimp only; split <;> rfl)]
@[simp] theorem ClEng.endExec_inflight : y.endExec.inflight = y.inflight := by
  unfold endExec; split <;> [rfl; (dsimp only; split <;> rfl)]

@[simp] theorem ClEng.acted_scal : y.acted.scal = y.scal := by unfold acted; split <;> simp
@[simp] theorem ClEng.acted_lc : y.acted.lc = y.lc := by unfold acted; split <;> simp
@[simp] theorem ClEng.acted_issuing : y.acted.issuing = y.issuing := by unfold acted; split <;> simp
@[simp] theorem ClEng.acted_inflight : y.acted.inflight = y.inflight := by unfold acted; split <;> simp

end

theorem ClEng.acted_of_nil {y : ClEng} (h : y.issuing = []) : y.acted = y.endExec := by simp [acted, h]

theorem ClEng.acted_of_ne {y : ClEng} (h : y.issuing ≠ []) : y.acted = y := by simp [acted, h]

/-- The execution that ends was not the last: the clause goes on. -/
theorem ClEng.endExec_of_lt {y : ClEng} {k : Clause} (hk : y.clause = some k) (h : y.done + 1 < k.execs) :
    y.endExec = { y with ag := (List.range 8).foldl (y.stepped k) y.ag, aguSet := [], done := y.done + 1,
                         next := y.now + k.interval } := by
  simp [endExec, hk, h]

/-- The last execution ends: the clause is over. -/
theorem ClEng.endExec_of_le {y : ClEng} {k : Clause} (hk : y.clause = some k) (h : k.execs ≤ y.done + 1) :
    y.endExec = { y with
      ag := (List.range 8).foldl (y.stepped k) y.ag, aguSet := []
      clause := none, done := 0, waitOk := false, unchecked := false, taken := false, branch := none
      pc := y.branch.getD (k.addr + k.len), next := y.now + (if y.taken then 3 else 1), ending := k.isEnd } := by
  simp [endExec, hk, Nat.not_lt.2 h]

theorem ClEng.endExec_ag {y : ClEng} {k : Clause} (hk : y.clause = some k) :
    y.endExec.ag = (List.range 8).foldl (y.stepped k) y.ag := by
  rcases Nat.lt_or_ge (y.done + 1) k.execs with h | h
  · rw [endExec_of_lt hk h]
  · rw [endExec_of_le hk h]

/-- One generator's step leaves every other generator. -/
theorem ClEng.stepped_get (y : ClEng) (k : Clause) (t : Tbl Agu) (m n : Nat) :
    (y.stepped k t m).get {} n
      = if n = m ∧ bit k.agstep m = true ∧ m ∉ y.aguSet then (t.get {} m).advance else t.get {} n := by
  unfold stepped
  by_cases h : bit k.agstep m = true ∧ m ∉ y.aguSet
  · rw [if_pos (by simpa using h), Tbl.get_put]; simp [h]
  · rw [if_neg (by simpa using h)]; simp [h]

/-- After the steps of the generators of `l`, each once, a generator of `l` has taken its own and no other has. -/
theorem ClEng.foldl_stepped_get (y : ClEng) (k : Clause) (l : List Nat) (hl : l.Nodup) (t : Tbl Agu) (n : Nat) :
    (l.foldl (y.stepped k) t).get {} n
      = if n ∈ l ∧ bit k.agstep n = true ∧ n ∉ y.aguSet then (t.get {} n).advance else t.get {} n := by
  induction l generalizing t with
  | nil => simp
  | cons m r ih =>
    obtain ⟨hm, hr⟩ := List.nodup_cons.1 hl
    rw [List.foldl_cons, ih hr, y.stepped_get]
    by_cases hn : n = m
    · subst hn; simp [hm]
    · simp [hn]

/-- R118 to R120: at the end of an execution the generators that agstep names and no AGU slot wrote advance. -/
theorem ClEng.endExec_gen {y : ClEng} {k : Clause} (hk : y.clause = some k) {n : Nat} (hn : n < 8) :
    y.endExec.gen n = if bit k.agstep n = true ∧ n ∉ y.aguSet then (y.gen n).advance else y.gen n := by
  show y.endExec.ag.get {} n = _
  rw [endExec_ag hk, y.foldl_stepped_get k _ List.nodup_range]
  simp only [List.mem_range, hn, true_and]
  rfl

/-! ## A row of the clause engines -/

/-- The engine whose head slot is taken to act. -/
def ClEng.pop (y : ClEng) : ClEng := { y with issuing := y.issuing.tail }

theorem State.heads.headSlot {s : State} {c : Nat} {e : CE} {ty : SlotTy} {op i : Nat} {w : W64} (h : s.heads c e ty op i w) :
    headSlot s c e ty op = some ((s.eng c e).pop, i, w.toNat) := by
  obtain ⟨hh, hty, hop, hck⟩ := h
  obtain ⟨r, hr⟩ : ∃ r, (s.eng c e).issuing = (i, w) :: r := by
    cases hl : (s.eng c e).issuing with
    | nil => simp [hl] at hh
    | cons a r => simp only [hl, List.head?_cons, Option.some.injEq] at hh; exact ⟨r, by rw [hh]⟩
  simp [Machine.headSlot, hr, hty, hop, hck, ClEng.pop]

/-- A row whose slot acts on its engine by `act`: the execution goes on, and nothing but the engine changes. -/
theorem runs_of_slotRow {ins : Instr} {s : State} {c : Nat} {e : CE} {ty : SlotTy} {op i : Nat} {w : W64}
    {act : ClEng → Nat → Nat → ClEng} {P : State → Prop} (hi : exec ins s = slotRow c e ty op s act)
    (h : s.heads c e ty op i w)
    (hp : ∀ t, OnlyEngine s t c e → t.eng c e = (act (s.eng c e).pop i w.toNat).acted → P t) : Runs ins s P := by
  have hs := (engSet_setEng s c e (act (s.eng c e).pop i w.toNat)).slotDone
  refine ⟨_, ?_, hp _ hs.onlyEngine hs.eng⟩
  rw [hi, slotRow, h.headSlot]
  exact hs.done

/-! ## SCALAR, AGU and CTRL slots -/

theorem runs_of_scalarRow {ins : Instr} {s : State} {c : Nat} {e : CE} {op lat i : Nat} {w : W64} {x : W64}
    {v : ClEng → Nat → W64} (hi : exec ins s = scalarRow c e op lat s v) (hv : v (s.eng c e).pop w.toNat = x)
    (h : s.heads c e .scalar op i w) : Runs ins s (fun t =>
      OnlyEngine s t c e ∧ (t.eng c e).issuing = (s.eng c e).issuing.tail ∧
      (t.eng c e).scal = (s.eng c e).scal ∧ (t.eng c e).lc = (s.eng c e).lc ∧
      (t.eng c e).inflight = insLand (s.eng c e).inflight
        ⟨(s.eng c e).now + lat, (s.eng c e).now, i, .scal (fld w.toNat 8 5) x⟩) :=
  runs_of_slotRow hi h fun t ho ht => by
    subst hv
    refine ⟨ho, ?_⟩
    rw [ht]
    simp [ClEng.fly, ClEng.pop]

/-- Settles O17: each row is a scalar row with its own value and latency. -/
theorem clauseScalarRowsLandResults : Obligations.ClauseScalarRowsLandResults := by
  unfold Obligations.ClauseScalarRowsLandResults
  simp only [List.forall_mem_cons, List.not_mem_nil, false_implies, implies_true, and_true]
  refine ⟨?_, ?_, ?_, ?_, ?_, ?_, ?_, ?_, ?_, ?_, ?_, ?_⟩ <;> intro c e i w s h <;> exact runs_of_scalarRow rfl rfl h

theorem runs_of_aguRow {ins : Instr} {s : State} {c : Nat} {e : CE} {op i : Nat} {w : W64} {x : Agu}
    {v : ClEng → Nat → Agu → Agu} (hi : exec ins s = aguRow c e op s v)
    (hv : v (s.eng c e).pop w.toNat ((s.eng c e).gen (fld w.toNat 8 3)) = x) (h : s.heads c e .agu op i w) :
    Runs ins s (fun t =>
      OnlyEngine s t c e ∧ (t.eng c e).scal = (s.eng c e).scal ∧ (t.eng c e).lc = (s.eng c e).lc ∧
      (t.eng c e).inflight = insLand (s.eng c e).inflight ⟨(s.eng c e).now + 2, (s.eng c e).now, i,
        .gen (fld w.toNat 8 3) op x⟩ ∧
      ((s.eng c e).issuing.length ≠ 1 → fld w.toNat 8 3 ∈ (t.eng c e).aguSet ∧ (t.eng c e).ag = (s.eng c e).ag)) :=
  runs_of_slotRow hi h fun t ho ht => by
    subst hv
    refine ⟨ho, ?_⟩
    rw [ht]
    refine ⟨by simp [ClEng.fly, ClEng.pop], by simp [ClEng.fly, ClEng.pop], by simp [ClEng.fly, ClEng.pop]; rfl,
      fun hlen => ?_⟩
    have hne : (s.eng c e).issuing.tail ≠ [] := by
      intro hnil
      have hh := h.1
      cases hl : (s.eng c e).issuing with
      | nil => simp [hl] at hh
      | cons a r => simp [hl] at hnil; simp [hl, hnil] at hlen
    rw [ClEng.acted_of_ne (by exact hne)]
    simp [sAg, ClEng.fly, ClEng.pop]

/-- Settles O19: each row is a row of the address generators with its own fields. -/
theorem clauseAguRowsLandGenerators : Obligations.ClauseAguRowsLandGenerators := by
  unfold Obligations.ClauseAguRowsLandGenerators
  simp only [List.forall_mem_cons, List.not_mem_nil, false_implies, implies_true, and_true]
  refine ⟨?_, ?_, ?_, ?_, ?_, ?_, ?_⟩ <;> intro c e i w s h
  · exact runs_of_aguRow (show exec _ _ = execAgLin c e s from rfl) rfl h
  · exact runs_of_aguRow (show exec _ _ = execAgNoun c e s from rfl) rfl h
  · exact runs_of_aguRow (show exec _ _ = execAgIdx c e s from rfl) rfl h
  · exact runs_of_aguRow (show exec _ _ = execAgStep0 c e s from rfl) rfl h
  · exact runs_of_aguRow (show exec _ _ = execAgStep1 c e s from rfl) rfl h
  · exact runs_of_aguRow (show exec _ _ = execAgAdd c e s from rfl) rfl h
  · exact runs_of_aguRow (show exec _ _ = execAgReset c e s from rfl) rfl h

/-- What a CTRL slot with word `w` does with the last execution of clause `k`, the branch taken where `b` says so. -/
def CtrlGoes (s t : State) (c : Nat) (e : CE) (k : Clause) (w : W64) (b : Bool) : Prop :=
  (t.eng c e).pc = (if b then wrapA (((s.eng c e).pc : Int) + 8 * sgn (fld w.toNat 32 32) 32) else k.addr + k.len) ∧
  (t.eng c e).next = (s.eng c e).now + (if b then 3 else 1) ∧ (t.eng c e).clause = none ∧ (t.eng c e).ending = k.isEnd ∧
  OnlyEngine s t c e ∧ (t.eng c e).scal = (s.eng c e).scal

/-- A CTRL row that closes clause `k`, branches where `b` says so and leaves the results `l` in flight. -/
theorem runs_of_ctrlRow {ins : Instr} {s : State} {c : Nat} {e : CE} {op i : Nat} {w : W64} {k : Clause} {b : Bool}
    {l : List Land} {act : ClEng → Nat → Nat → ClEng} (hc : s.closes c e k) (hi : exec ins s = slotRow c e .ctrl op s act)
    (hact : act (s.eng c e).pop i w.toNat = { (s.eng c e).pop with inflight := l }.branchIf b w.toNat)
    (h : s.heads c e .ctrl op i w) :
    Runs ins s (fun t => CtrlGoes s t c e k w b ∧ (t.eng c e).inflight = l) :=
  runs_of_slotRow hi h fun t ho ht => by
    obtain ⟨hlen, hk, hdone, hbr, htk⟩ := hc
    have htail : (s.eng c e).issuing.tail = [] := List.length_eq_zero_iff.1 (by simp [hlen])
    rw [hact] at ht
    have hnil : ({ (s.eng c e).pop with inflight := l }.branchIf b w.toNat).issuing = [] := by
      cases b <;> exact htail
    have hcl : ({ (s.eng c e).pop with inflight := l }.branchIf b w.toNat).clause = some k := by
      cases b <;> exact hk
    have hd : k.execs ≤ ({ (s.eng c e).pop with inflight := l }.branchIf b w.toNat).done + 1 := by
      cases b <;> exact hdone
    rw [ClEng.acted_of_nil hnil, ClEng.endExec_of_le hcl hd] at ht
    refine ⟨⟨?_, ?_, ?_, ?_, ho, ?_⟩, ?_⟩ <;> rw [ht] <;> cases b <;>
      simp [ClEng.branchIf, ClEng.branchTo, ClEng.pop, hbr, htk]

/-- The last slot of an execution has acted: the execution ends. -/
theorem runs_of_last_slot {ins : Instr} {s : State} {c : Nat} {e : CE} {ty : SlotTy} {op i : Nat} {w : W64}
    {act : ClEng → Nat → Nat → ClEng} {P : State → Prop} (hi : exec ins s = slotRow c e ty op s act)
    (h : s.heads c e ty op i w) (hlen : (s.eng c e).issuing.length = 1)
    (hact : (act (s.eng c e).pop i w.toNat).issuing = (s.eng c e).issuing.tail)
    (hp : ∀ t, OnlyEngine s t c e → t.eng c e = (act (s.eng c e).pop i w.toNat).endExec → P t) : Runs ins s P := by
  have htail : (s.eng c e).issuing.tail = [] := List.length_eq_zero_iff.1 (by simp [hlen])
  exact runs_of_slotRow hi h fun t ho ht => hp t ho (by rw [ht, ClEng.acted_of_nil (hact.trans htail)])

/-- R118 to R120 of a MOVI that is the last slot of its execution. -/
theorem runs_movi_last {s : State} {c : CoreId} {e : CE} {i : Nat} {w : W64} {k : Clause} (h : s.heads c e .scalar 9 i w)
    (hlen : (s.eng c e).issuing.length = 1) (hk : (s.eng c e).clause = some k) : Runs (.movi c e) s (fun t =>
      let y := s.eng c e
      (∀ n < 8, (t.eng c e).gen n
        = if bit k.agstep n = true ∧ n ∉ y.aguSet then (y.gen n).advance else y.gen n) ∧
      (y.done + 1 < k.execs → (t.eng c e).clause = some k ∧ (t.eng c e).done = y.done + 1 ∧
        (t.eng c e).next = y.now + k.interval ∧ (t.eng c e).pc = y.pc) ∧
      (k.execs ≤ y.done + 1 → (t.eng c e).clause = none ∧ (t.eng c e).done = 0 ∧ (t.eng c e).ending = k.isEnd ∧
        (t.eng c e).next = y.now + (if y.taken then 3 else 1) ∧ (t.eng c e).pc = y.branch.getD (k.addr + k.len))) := by
  refine runs_of_last_slot (show exec _ _ = slotRow c e .scalar 9 s _ from rfl) h hlen rfl fun t _ ht => ?_
  refine ⟨fun n hn => ?_, fun hlt => ?_, fun hle => ?_⟩
  · rw [ht, ClEng.endExec_gen (k := k) (by exact hk) hn]; rfl
  · rw [ht, ClEng.endExec_of_lt (k := k) (by exact hk) (by exact hlt)]; exact ⟨hk, rfl, rfl, rfl⟩
  · rw [ht, ClEng.endExec_of_le (k := k) (by exact hk) (by exact hle)]; exact ⟨rfl, rfl, rfl, rfl, rfl⟩

/-- Settles O20: every CTRL row is one row with its own branch; the end of an execution is that of `endExec`. -/
theorem clauseControlRowsBranchAndExecutionsEnd : Obligations.ClauseControlRowsBranchAndExecutionsEnd := by
  unfold Obligations.ClauseControlRowsBranchAndExecutionsEnd
  refine ⟨fun c e i w k s hc => ?_, fun c e i w k s h hlen hk => runs_movi_last h hlen hk⟩
  exact ⟨fun h => runs_of_ctrlRow (b := true) hc rfl rfl h, fun h => runs_of_ctrlRow hc rfl rfl h,
    fun h => runs_of_ctrlRow hc rfl rfl h, fun h => runs_of_ctrlRow hc rfl rfl h,
    fun h => runs_of_ctrlRow (b := false) hc rfl rfl h⟩

end Sys2Proof.Machine

namespace Sys2Proof.Machine

/-! # The local store -/

/-! ## Monitors -/

theorem foldl_mon {β : Type} (f : State → β → State) (h : ∀ t i, ∃ m, f t i = { t with mon := m }) (l : List β) (s : State) :
    ∃ m, l.foldl f s = { s with mon := m } := by
  induction l generalizing s with
  | nil => exact ⟨s.mon, rfl⟩
  | cons b r ih =>
    obtain ⟨m, hm⟩ := h s b
    obtain ⟨n, hn⟩ := ih (f s b)
    exact ⟨n, by rw [List.foldl_cons, hn, hm]⟩

theorem memEvents_eq (s : State) (a n : Nat) (w : Bool) : ∃ m, memEvents s a n w = { s with mon := m } := by
  unfold memEvents
  split
  · exact ⟨s.mon, rfl⟩
  · refine foldl_mon _ (fun t i => ?_) _ s
    dsimp only
    split
    · exact monEvent_eq ..
    · split
      · exact monEvent_eq ..
      · exact ⟨t.mon, rfl⟩

theorem readSamples_eq (s : State) (a n : Nat) : ∃ m, readSamples s a n = { s with mon := m } := by
  unfold readSamples
  split
  · exact ⟨s.mon, rfl⟩
  · refine foldl_mon _ (fun t i => ?_) _ s
    dsimp only
    split
    · exact monSample_eq ..
    · split
      · exact monSample_eq ..
      · exact ⟨t.mon, rfl⟩

/-! ## Accesses outside HBM3E: their granules are never checked (R201) -/

theorem le_of_mem_granulesOf {a n g : Nat} (h : g ∈ granulesOf a n) : a < g + 32 := by
  unfold granulesOf at h
  split at h
  · simp at h
  · obtain ⟨i, -, rfl⟩ := List.mem_map.1 h
    unfold granLen
    split <;> omega

theorem checkGranule_of_not_hbm (s : State) {g : Nat} (h : isHbm g = false) : checkGranule s g = s := by
  simp [checkGranule, neverWritten, h]

theorem isHbm_of_le {g : Nat} (h : 0x3000000000 ≤ g) : isHbm g = false := by
  simp only [isHbm, decide_eq_false_iff_not]; omega

theorem foldl_checkGranule_of_local (s : State) {a n : Nat} (ha : 0x4100000000 ≤ a) (l : List Nat)
    (hl : ∀ g ∈ l, g ∈ granulesOf a n) : l.foldl checkGranule s = s := by
  induction l with
  | nil => rfl
  | cons g r ih =>
    have hg := le_of_mem_granulesOf (hl g (by simp))
    rw [List.foldl_cons, checkGranule_of_not_hbm s (isHbm_of_le (by omega))]
    exact ih fun x hx => hl x (by simp [hx])

theorem le_of_lsAddr {s : State} {c x off n pa : Nat} (h : lsAddr s c x off n = some pa) : 0x4100000000 ≤ pa := by
  simp only [lsAddr] at h
  split at h
  · cases h; omega
  · cases h

/-- A read of the local store without poison: the bytes, and nothing but monitors changes. -/
theorem readPa_of_local {s : State} {a n : Nat} (ha : 0x4100000000 ≤ a) (hp : poisoned s a n = false) :
    ∃ m, readPa s a n = ({ s with mon := m }, some (memBytes s a n)) := by
  obtain ⟨m, hm⟩ := memEvents_eq s a n false
  obtain ⟨k, hk⟩ := readSamples_eq { s with mon := m } a n
  refine ⟨k, ?_⟩
  have hp' : poisoned { s with mon := k } a n = false := hp
  simp only [readPa, checkRead, foldl_checkGranule_of_local s ha _ (fun _ h => h), hm, hk, hp']
  rfl

/-! ## LDS and STS -/

theorem EngSet.mon {s t : State} {c : Nat} {e : CE} {y : ClEng} (h : EngSet s t c e y) (m) :
    EngSet { s with mon := m } { t with mon := m } c e y := by
  obtain ⟨ht, hc, ho⟩ := h
  exact ⟨by rw [ht], hc, ho⟩

theorem EngSet.lsAddr {s t : State} {c : Nat} {e : CE} {y : ClEng} (h : EngSet s t c e y) (k x a n : Nat) :
    lsAddr t k x a n = lsAddr s k x a n := by
  rw [h.1]; rfl

theorem EngSet.poisoned {s t : State} {c : Nat} {e : CE} {y : ClEng} (h : EngSet s t c e y) (a n : Nat) :
    poisoned t a n = poisoned s a n := by
  rw [h.1]; rfl

theorem EngSet.memBytes {s t : State} {c : Nat} {e : CE} {y : ClEng} (h : EngSet s t c e y) (a n : Nat) :
    memBytes t a n = memBytes s a n := by
  rw [h.1]; rfl

/-- No write of the local store is in flight: LDS has nothing to wait for. -/
theorem EngSet.landLs {s t : State} {c : Nat} {e : CE} {y : ClEng} (h : EngSet s t c e y)
    (hl : ∀ l ∈ y.inflight, l.isLs = false) (n : Nat) : EngSet s (landLs t c e n) c e y := by
  have hnone : y.inflight.filter (fun l => l.isLs && l.at_ ≤ n) = [] := List.filter_eq_nil_iff.2 fun l hm => by simp [hl l hm]
  have hall : y.inflight.filter (fun l => !(l.isLs && l.at_ ≤ n)) = y.inflight :=
    List.filter_eq_self.2 fun l hm => by simp [hl l hm]
  simp only [Machine.landLs, h.eng, hnone, hall, List.foldl_nil]
  exact h.setEng _

theorem readSp_of_readPa {s t : State} {c x a n pa : Nat} {b : List Byte} (ha : lsAddr s c x a n = some pa)
    (h : readPa s pa n = (t, some b)) : readSp s (.ls c x) a n = (t, .inl b) := by
  simp only [readSp, ha, h]

/-- LDS with what it reads: the result is in flight. -/
theorem execLds_of_read {c : CoreId} {e : CE} {i : Nat} {w : W64} {s t : State} {b : List Byte}
    (h : s.heads c e .scalar 11 i w)
    (hr : readSp (landLs (s.setEng c e (s.eng c e).pop) c e ((s.eng c e).now + 2)) (.ls c (s.eng c e).ctx)
      ((s.eng c e).sc (fld w.toNat 13 5) + sImm64 w.toNat).toNat 8 = (t, .inl b)) :
    execLds c e s = done s (slotDone (t.setEng c e ((t.eng c e).fly
      ⟨(s.eng c e).now + 14, (s.eng c e).now, i, .scal (fld w.toNat 8 5) (BitVec.ofNat 64 (leNat b))⟩)) c e) := by
  have hs := h.headSlot
  unfold execLds
  split <;> rename_i heq <;> cases hs.symm.trans heq
  extract_lets s1
  split <;> rename_i heq <;> cases heq.symm.trans hr
  rfl

theorem runs_lds {c : CoreId} {e : CE} {i pa : Nat} {w : W64} {s : State} (h : s.heads c e .scalar 11 i w)
    (hl : ∀ l ∈ (s.eng c e).inflight, l.isLs = false)
    (ha : lsAddr s c (s.eng c e).ctx ((s.eng c e).sc (fld w.toNat 13 5) + sImm64 w.toNat).toNat 8 = some pa)
    (hp : poisoned s pa 8 = false) : Runs (.lds c e) s (fun t =>
      t = { s.ticked with cores := t.cores, mon := t.mon } ∧ (t.eng c e).scal = (s.eng c e).scal ∧
      (t.eng c e).inflight = insLand (s.eng c e).inflight ⟨(s.eng c e).now + 14, (s.eng c e).now, i,
        .scal (fld w.toNat 8 5) (BitVec.ofNat 64 (leNat (memBytes s pa 8)))⟩) := by
  have h1 := (engSet_setEng s c e (s.eng c e).pop).landLs hl ((s.eng c e).now + 2)
  obtain ⟨m, hm⟩ := readPa_of_local (le_of_lsAddr ha) ((h1.poisoned pa 8).trans hp)
  have h2 := h1.mon m
  rw [h1.memBytes] at hm
  have hread := execLds_of_read h (readSp_of_readPa ((h1.lsAddr ..).trans ha) hm)
  rw [h2.eng] at hread
  have h3 := (h2.setEng ((s.eng c e).pop.fly ⟨(s.eng c e).now + 14, (s.eng c e).now, i,
    .scal (fld w.toNat 8 5) (BitVec.ofNat 64 (leNat (memBytes s pa 8)))⟩)).slotDone
  refine runs_of_answering hread ⟨?_, ?_, ?_⟩
  · rw [h3.1]; rfl
  · rw [State.answering_eng, h3.eng]; simp [ClEng.fly, ClEng.pop]
  · rw [State.answering_eng, h3.eng]; simp [ClEng.fly, ClEng.pop]

/-- Settles O18: STS is a row of its engine alone; LDS finds no write to wait for. -/
theorem clauseLocalStoreRowsTakeEffect : Obligations.ClauseLocalStoreRowsTakeEffect := by
  unfold Obligations.ClauseLocalStoreRowsTakeEffect
  refine ⟨fun c e i w s h => ?_, fun c e i pa w s h hl ha hp => runs_lds h hl ha hp⟩
  refine runs_of_slotRow (show exec _ _ = slotRow c e .scalar 12 s _ from rfl) h fun t ho ht => ⟨ho, ?_⟩
  rw [ht]
  simp [ClEng.fly, ClEng.pop]
  rfl

end Sys2Proof.Machine

namespace Sys2Proof.Machine

/-! # Waits of the SYNC slot -/

/-! ## The row of a wait (R114) -/

section
variable {s : State} {c : Nat} {e : CE} {k : Clause} {op : Nat} {w : W64} {reg : ClEng → Nat → State × Obj × Bool}
  {t : State} {o : Obj}

/-- The wait is satisfied: the clause may issue. -/
theorem waitRow_of_true (h : s.waitsOn c e k op w) (hr : reg (s.eng c e) w.toNat = (t, o, true)) :
    waitRow c e op s reg = done s (t.setEng c e { t.eng c e with waitOk := true }) := by
  obtain ⟨hk, hw, hop, hl, hst, hok, hd, hi, ha, hdump, hck⟩ := h
  simp only [waitRow, hk, hw, hop, hl, hst, hok, hd, hi, ha, hdump, hck, hr]
  simp

/-- The wait is registered: the engine is held. -/
theorem waitRow_of_false (h : s.waitsOn c e k op w) (hr : reg (s.eng c e) w.toNat = (t, o, false)) :
    waitRow c e op s reg = done s (t.setEng c e { t.eng c e with
      waiting := some (o, BitVec.ofNat 32 (sImm w.toNat)), st := .held }) := by
  obtain ⟨hk, hw, hop, hl, hst, hok, hd, hi, ha, hdump, hck⟩ := h
  simp only [waitRow, hk, hw, hop, hl, hst, hok, hd, hi, ha, hdump, hck, hr]
  simp

end

@[simp] theorem setWaiters_core (s : State) (l : List Waiter) (c : Nat) : (Syn.setWaiters s l).core c = s.core c := rfl
@[simp] theorem setWaiters_eng (s : State) (l : List Waiter) (c : Nat) (e : CE) : (Syn.setWaiters s l).eng c e = s.eng c e := rfl

/-! ## Waits on a conjunction (R254, R255, R259) -/

/-- A wait on a value that has been reached goes on at once, and takes a pending short flag with it. -/
theorem waitConj_of_le {s : State} {x n : Nat} {v : W32} (h : v ≤ (s.conj x n).value) (eng : BitVec 7) (p : Nat) (r : CmdRef) :
    ∃ t, waitConj s x n v eng p r = (t, true) ∧ (∀ k z, t.eng k z = s.eng k z) ∧ t.syn.waiters = s.syn.waiters ∧
      (t.conj x n).shortPending = false := by
  by_cases hs : (s.conj x n).shortPending = true
  · exact ⟨(modCmd s r (fun c => { c with short := true })).setConj x n { s.conj x n with shortPending := false },
      by simp only [waitConj, if_pos h, if_pos hs], fun _ _ => rfl, rfl, by simp⟩
  · refine ⟨s, by simp [waitConj, h, hs], fun k z => rfl, rfl, by simpa using hs⟩

theorem waitConj_of_not_le {s : State} {x n : Nat} {v : W32} (h : ¬ v ≤ (s.conj x n).value) (eng : BitVec 7) (p : Nat)
    (r : CmdRef) : waitConj s x n v eng p r = (Syn.setWaiters s (s.syn.waiters ++
      [{ obj := .conj x n, target := v, eng := eng, punnet := p, ctx := x, since := s.time }]), false) := by
  simp [waitConj, h]

theorem exec_wait (c : CoreId) (e : CE) (s : State) : exec (.wait c e) s = waitRow c e 2 s (fun y w =>
    let r := waitConj s y.ctx (fld w 8 9) (BitVec.ofNat 32 (fld w 32 32)) (engId c (CE.eng e)) 0 y.cmd
    (r.1, .conj y.ctx (fld w 8 9), r.2)) := rfl

theorem runs_wait {c : CoreId} {e : CE} {k : Clause} {w : W64} {s : State} (h : s.waitsOn c e k 2 w) :
    Runs (.wait c e) s (fun t =>
      let y := s.eng c e
      let n := fld w.toNat 8 9
      let v := BitVec.ofNat 32 (fld w.toNat 32 32)
      (v ≤ (s.conj y.ctx n).value → t.eng c e = { y with waitOk := true } ∧ t.syn.waiters = s.syn.waiters ∧
        (t.conj y.ctx n).shortPending = false) ∧
      (¬ v ≤ (s.conj y.ctx n).value → t = { s.ticked with syn := t.syn, cores := t.cores } ∧
        t.eng c e = { y with waiting := some (.conj y.ctx n, v), st := .held } ∧
        t.syn.waiters = s.syn.waiters ++ [{ obj := .conj y.ctx n, target := v, eng := engId c (CE.eng e), punnet := 0,
                                            ctx := y.ctx, since := s.time }])) := by
  by_cases hv : BitVec.ofNat 32 (fld w.toNat 32 32) ≤ (s.conj (s.eng c e).ctx (fld w.toNat 8 9)).value
  · obtain ⟨t, ht, heng, hwait, hshort⟩ := waitConj_of_le hv (engId c (CE.eng e)) 0 (s.eng c e).cmd
    refine runs_of_answering ((exec_wait c e s).trans (waitRow_of_true h (by simp only [ht]; rfl)))
      ⟨fun _ => ⟨by simp [heng], by simpa using hwait, hshort⟩, fun hn => absurd hv hn⟩
  · have ht := waitConj_of_not_le hv (engId c (CE.eng e)) 0 (s.eng c e).cmd
    have he := (exec_wait c e s).trans (waitRow_of_false (o := .conj (s.eng c e).ctx (fld w.toNat 8 9)) h
      (congrArg (fun r => (r.1, Obj.conj (s.eng c e).ctx (fld w.toNat 8 9), r.2)) ht))
    refine runs_of_answering he ⟨fun hn => absurd hn hv, fun _ => ⟨rfl, ?_, rfl⟩⟩
    simp [sImm]

/-! ## Waits on a barrier (R267) -/

/-- A wait on a wire of another context is counted and goes on. -/
theorem waitBar_of_foreign {s : State} {x n : Nat} (h : ¬ ((s.wire n).valid = true ∧ (s.wire n).ctx.toNat = x))
    (arr : Option (Obj × W32)) (eng : BitVec 7) (p : Nat) :
    waitBar s (.wire n) x arr eng p = (inc16 s 0x0040082C, true) := by
  have h' : ((s.wire n).valid && (s.wire n).ctx.toNat == x) = false := by simpa using h
  simp [waitBar, h']

/-- A barrier that a stream of context `x` may wait on: a group, or a wire of its own. -/
def Obj.mine (o : Obj) (s : State) (x : Nat) : Prop :=
  ∀ n, o = .wire n → (s.wire n).valid = true ∧ (s.wire n).ctx.toNat = x

section
variable {s : State} {o : Obj} {x : Nat} {arr : Option (Obj × W32)} (h : o.mine s x) (eng : BitVec 7) (p : Nat)
include h

theorem waitBar_of_lt {g : W32} (ha : arr = some (o, g)) (hg : g < genOf s o) : waitBar s o x arr eng p = (s, true) := by
  subst ha
  cases o <;> simp_all [waitBar, Obj.mine]

theorem waitBar_of_not_lt {g : W32} (ha : arr = some (o, g)) (hg : ¬ g < genOf s o) :
    waitBar s o x arr eng p = (Syn.setWaiters s (s.syn.waiters ++
      [{ obj := o, target := 0, eng := eng, punnet := p, ctx := x, since := s.time, bseen := g }]), false) := by
  subst ha
  cases o <;> simp_all [waitBar, Obj.mine]

theorem waitBar_of_no_arrival (ha : ∀ g, arr ≠ some (o, g)) :
    waitBar s o x arr eng p = (Syn.setWaiters s (s.syn.waiters ++
      [{ obj := o, target := 0, eng := eng, punnet := p, ctx := x, since := s.time, anyNext := true,
         bseen := genOf s o }]), false) := by
  cases arr with
  | none => cases o <;> simp_all [waitBar, Obj.mine]
  | some a =>
    have hq : a.1 ≠ o := fun hq => ha a.2 (by rw [← hq])
    cases o <;> simp_all [waitBar, Obj.mine]

end

/-- What a stream of context `x` waits on by a wait of wires, or of groups where `grp` says so. -/
def barObj (grp : Bool) (x n : Nat) : Obj := if grp then .group x n else .wire n

theorem barObj_mine {grp : Bool} {s : State} {x n : Nat} :
    (barObj grp x n).mine s x ↔ grp = true ∨ (s.wire n).valid = true ∧ (s.wire n).ctx.toNat = x := by
  cases grp <;> simp [barObj, Obj.mine]

/-- Both barrier waits are one row. -/
theorem exec_barWait {grp : Bool} {c : CoreId} {e : CE} {s : State} (h : arrivalDue (s.eng c e) = false) :
    exec (if grp then .gbWait c e else .bwWait c e) s
      = waitRow c e (if grp then 6 else 4) s (barWait c e s (fun y w => barObj grp y.ctx (sBar w))) := by
  cases grp
  · show execBwWait c e s = _
    simp only [execBwWait, h]
    rfl
  · show execGbWait c e s = _
    simp only [execGbWait, h]
    rfl

section
variable {grp : Bool} {c : CoreId} {e : CE} {k : Clause} {w : W64} {s : State}
  (h : s.waitsOn c e k (if grp then 6 else 4) w) (hd : arrivalDue (s.eng c e) = false) {P : State → Prop} {t : State}
include h hd

theorem runs_barWait_true
    (hr : waitBar s (barObj grp (s.eng c e).ctx (fld w.toNat 17 6)) (s.eng c e).ctx (s.eng c e).arrival (engId c (CE.eng e)) 0
      = (t, true)) (hp : P ((t.setEng c e { t.eng c e with waitOk := true }).answering s)) :
    Runs (if grp then .gbWait c e else .bwWait c e) s P :=
  runs_of_answering ((exec_barWait hd).trans (waitRow_of_true
    (o := barObj grp (s.eng c e).ctx (fld w.toNat 17 6)) h (by simp only [barWait, sBar, hr]))) hp

theorem runs_barWait_false
    (hr : waitBar s (barObj grp (s.eng c e).ctx (fld w.toNat 17 6)) (s.eng c e).ctx (s.eng c e).arrival (engId c (CE.eng e)) 0
      = (t, false)) (hp : P ((t.setEng c e { t.eng c e with
        waiting := some (barObj grp (s.eng c e).ctx (fld w.toNat 17 6), BitVec.ofNat 32 (sImm w.toNat)), st := .held }).answering s)) :
    Runs (if grp then .gbWait c e else .bwWait c e) s P :=
  runs_of_answering ((exec_barWait hd).trans (waitRow_of_false
    (o := barObj grp (s.eng c e).ctx (fld w.toNat 17 6)) h (by simp only [barWait, sBar, hr]))) hp

end

/-- R267: a barrier wait passes, goes on or is registered as `waitBar` answers. -/
theorem runs_barWait {grp : Bool} {c : CoreId} {e : CE} {k : Clause} {w : W64} {s : State} {o : Obj} {n : Nat}
    (hn : n = fld w.toNat 17 6) (ho : o = barObj grp (s.eng c e).ctx n)
    (h : s.waitsOn c e k (if grp then 6 else 4) w) (hd : arrivalDue (s.eng c e) = false) :
    Runs (if grp then .gbWait c e else .bwWait c e) s (fun t =>
      let y := s.eng c e
      let mine := grp = true ∨ ((s.wire n).valid = true ∧ (s.wire n).ctx.toNat = y.ctx)
      (¬ mine → (t.eng c e).waitOk = true ∧ rdF t 0x0040082C 0 16 = Nat.min (rdF s 0x0040082C 0 16 + 1) 0xFFFF) ∧
      (∀ g, mine → y.arrival = some (o, g) → g < genOf s o → (t.eng c e).waitOk = true ∧ t.syn = s.syn ∧ t.regs = s.regs) ∧
      (∀ g, mine → y.arrival = some (o, g) → ¬ g < genOf s o → (t.eng c e).st = .held ∧
        t.syn.waiters = s.syn.waiters ++ [{ obj := o, target := 0, eng := engId c (CE.eng e), punnet := 0, ctx := y.ctx,
                                            since := s.time, bseen := g }]) ∧
      (mine → (∀ g, y.arrival ≠ some (o, g)) → (t.eng c e).st = .held ∧
        t.syn.waiters = s.syn.waiters ++ [{ obj := o, target := 0, eng := engId c (CE.eng e), punnet := 0, ctx := y.ctx,
                                            since := s.time, anyNext := true, bseen := genOf s o }])) := by
  subst hn ho
  have hmine := barObj_mine (grp := grp) (s := s) (x := (s.eng c e).ctx) (n := fld w.toNat 17 6)
  by_cases hm : (barObj grp (s.eng c e).ctx (fld w.toNat 17 6)).mine s (s.eng c e).ctx
  · by_cases hsome : ∃ g, (s.eng c e).arrival = some (barObj grp (s.eng c e).ctx (fld w.toNat 17 6), g)
    · obtain ⟨g, hg⟩ := hsome
      have hsame : ∀ g', (s.eng c e).arrival = some (barObj grp (s.eng c e).ctx (fld w.toNat 17 6), g') → g' = g := by
        intro g' hg'; simpa [hg] using hg'.symm
      by_cases hlt : g < genOf s (barObj grp (s.eng c e).ctx (fld w.toNat 17 6))
      · refine runs_barWait_true h hd (waitBar_of_lt hm _ _ hg hlt)
          ⟨fun hn => absurd (hmine.1 hm) hn, fun _ _ _ _ => ⟨by simp, by simp, by simp⟩, fun g' _ hg' hn => ?_, fun _ hn => absurd hg (hn g)⟩
        exact absurd (hsame g' hg' ▸ hlt) hn
      · refine runs_barWait_false h hd (waitBar_of_not_lt hm _ _ hg hlt)
          ⟨fun hn => absurd (hmine.1 hm) hn, fun g' _ hg' hn => ?_, fun g' _ hg' _ => ?_, fun _ hn => absurd hg (hn g)⟩
        · exact absurd (hsame g' hg' ▸ hn) hlt
        · rw [hsame g' hg']; exact ⟨by simp, rfl⟩
    · have hno : ∀ g, (s.eng c e).arrival ≠ some (barObj grp (s.eng c e).ctx (fld w.toNat 17 6), g) := fun g hg => hsome ⟨g, hg⟩
      exact runs_barWait_false h hd (waitBar_of_no_arrival hm _ _ hno)
        ⟨fun hn => absurd (hmine.1 hm) hn, fun g _ hg => absurd hg (hno g), fun g _ hg => absurd hg (hno g),
         fun _ _ => ⟨by simp, rfl⟩⟩
  · have hno := mt hmine.2 hm
    obtain ⟨hg, hw⟩ := not_or.1 hno
    have ho : barObj grp (s.eng c e).ctx (fld w.toNat 17 6) = .wire (fld w.toNat 17 6) := if_neg hg
    exact runs_barWait_true h hd ((congrArg (waitBar s · _ _ _ _) ho).trans (waitBar_of_foreign hw _ _ _))
      ⟨fun _ => ⟨by simp, rdF_inc16_same s _⟩, fun _ hm' => absurd hm' hno, fun _ hm' => absurd hm' hno, fun hm' => absurd hm' hno⟩

/-- Settles O22: the wait's row goes on or registers as `waitConj` and `waitBar` answer. -/
theorem clauseWaitIsSatisfiedOrRegistered : Obligations.ClauseWaitIsSatisfiedOrRegistered := by
  unfold Obligations.ClauseWaitIsSatisfiedOrRegistered
  exact ⟨fun c e k w s h => runs_wait h, fun grp c e k w s h hd => runs_barWait rfl rfl h hd⟩

end Sys2Proof.Machine


/-! # What synchronisation leaves unchanged

A release operation, a wait that ends and an arrival reach an engine's wait, arrival and releases, a punnet's hold and
arrival, an L1 (R227), registers, monitors and the unit itself, and nothing else. -/

namespace Sys2Proof.Machine

def ClEng.calm (y : ClEng) : ClEng :=
  { y with waitOk := false, waiting := none, st := .idle, arrival := none, releases := [], gbHeld := false }

def Te.calm (t : Te) : Te := { t with pun := {}, l1 := [], reqs := [] }

def Core.calm (x : Core) : Core := { x with mx := x.mx.calm, tx := x.tx.calm, te := x.te.calm }

def Punnet.calm (p : Punnet) : Punnet := { p with hold := .none, arrival := none }

/-- What synchronisation leaves unchanged. -/
def State.calm (s : State) : State × (Nat → Core) × (Nat → Nat → Punnet) :=
  ({ s with regs := [], syn := {}, mon := {}, cores := {} }, fun k => (s.core k).calm, fun k p => (s.pun k p).calm)

/-- What `calm` says, fact by fact. -/
theorem State.calm_eq_iff {s t : State} : t.calm = s.calm ↔
    ({ t with regs := [], syn := {}, mon := {}, cores := {} } : State) = { s with regs := [], syn := {}, mon := {}, cores := {} } ∧
      (∀ k, (t.core k).calm = (s.core k).calm) ∧ ∀ k p, (t.pun k p).calm = (s.pun k p).calm := by
  simp only [State.calm, Prod.mk.injEq, funext_iff]

section
variable {s t : State} (h : t.calm = s.calm)
include h

theorem calm_core (k : Nat) : (t.core k).calm = (s.core k).calm := (State.calm_eq_iff.1 h).2.1 k

theorem calm_eng (k : Nat) (z : CE) : (t.eng k z).calm = (s.eng k z).calm := by
  cases z
  · exact congrArg Core.mx (calm_core h k)
  · exact congrArg Core.tx (calm_core h k)

theorem calm_mem : t.mem = s.mem := (congrArg State.mem (State.calm_eq_iff.1 h).1 :)
theorem calm_hq : t.hq = s.hq := (congrArg State.hq (State.calm_eq_iff.1 h).1 :)
theorem calm_lnk : t.lnk = s.lnk := (congrArg State.lnk (State.calm_eq_iff.1 h).1 :)

end

/-! ## Updates -/

theorem wr_eq (s : State) (a : Nat) (v : W32) : ∃ g, wr s a v = { s with regs := g } := ⟨_, rfl⟩

theorem wrF_eq (s : State) (a lo len v : Nat) : ∃ g, wrF s a lo len v = { s with regs := g } := ⟨_, rfl⟩

theorem mon_calm (s : State) (m) : ({ s with mon := m } : State).calm = s.calm := rfl
theorem inc16_calm (s : State) (a : Nat) : (inc16 s a).calm = s.calm := rfl
theorem setWire_calm (s : State) (w : Nat) (x : Wire) : (s.setWire w x).calm = s.calm := rfl
theorem setGroup_calm (s : State) (x g : Nat) (v : Group) : (s.setGroup x g v).calm = s.calm := rfl
theorem setTracker_calm (s : State) (t : Nat) (k : Tracker) : (setTracker s t k).calm = s.calm := rfl
theorem setWaiters_calm (s : State) (l : List Waiter) : (Syn.setWaiters s l).calm = s.calm := rfl
theorem sendSignal_calm (s : State) (g : Signal) : (sendSignal s g).calm = s.calm := rfl

theorem monSample_calm (s : State) (h : Bool) (a b v : Nat) : (monSample s h a b v).calm = s.calm := by
  obtain ⟨m, hm⟩ := monSample_eq s h a b v
  rw [hm, mon_calm]

/-- A core that is set to one that differs in nothing that synchronisation leaves unchanged. -/
theorem setCore_calm {s : State} {c : Nat} {x : Core} (h : x.calm = (s.core c).calm)
    (hp : ∀ p, (x.te.pun.get {} p).calm = (s.pun c p).calm) : (s.setCore c x).calm = s.calm := by
  refine State.calm_eq_iff.2 ⟨rfl, fun k => ?_, fun k p => ?_⟩
  · by_cases hk : k = c
    · subst hk; simpa using h
    · simp [hk]
  · by_cases hk : k = c
    · subst hk; simpa [State.pun, State.te] using hp p
    · simp [State.pun, State.te, hk]

theorem setEng_calm {s : State} {c : Nat} {e : CE} {y : ClEng} (h : y.calm = (s.eng c e).calm) :
    (s.setEng c e y).calm = s.calm := by
  cases e
  · exact setCore_calm (show Core.calm { s.core c with mx := y } = _ by simp only [Core.calm, h]; rfl) fun _ => rfl
  · exact setCore_calm (show Core.calm { s.core c with tx := y } = _ by simp only [Core.calm, h]; rfl) fun _ => rfl

theorem setPun_calm {s : State} {c p : Nat} {x : Punnet} (h : x.calm = (s.pun c p).calm) : (s.setPun c p x).calm = s.calm := by
  refine setCore_calm rfl fun q => ?_
  by_cases hq : q = p
  · subst hq; simpa [Tbl.get_put] using h
  · simp [Tbl.get_put, hq, State.pun]

theorem l1Acquire_calm (s : State) (c : Nat) : (l1Acquire s c).calm = s.calm := by
  unfold l1Acquire
  split
  · exact setCore_calm rfl fun _ => rfl
  · rfl

/-! ## Operations -/

theorem releaseOne_calm (s : State) (w : Waiter) : (releaseOne s w).calm = s.calm := by
  unfold releaseOne
  dsimp only
  split
  · refine (l1Acquire_calm ..).trans ((setPun_calm ?_).trans (monSample_calm ..))
    rfl
  · refine (setEng_calm ?_).trans (monSample_calm ..)
    rfl

theorem releaseBar_calm (s : State) (o : Obj) : (releaseBar s o).calm = s.calm :=
  (foldl_keeps State.calm _ _ _ fun t w => releaseOne_calm t w).trans (setWaiters_calm ..)

theorem noteArrival_calm (s : State) (eng : BitVec 7) (p : Nat) (o : Obj) (g : W32) : (noteArrival s eng p o g).calm = s.calm := by
  unfold noteArrival
  dsimp only
  split
  · exact setPun_calm rfl
  · exact setEng_calm rfl

theorem bwArriveOp_calm (s : State) (c x w : Nat) : (bwArriveOp s c x w).1.calm = s.calm := by
  unfold bwArriveOp
  dsimp only
  split
  · exact inc16_calm ..
  · split
    · exact (releaseBar_calm ..).trans (setWire_calm ..)
    · exact setWire_calm ..

/-- The state in which a group arrival has its tracker, where it can have one. -/
theorem gbArriveOp_calm (s : State) (c x g : Nat) (m : W32) : (gbArriveOp s c x g m).1.calm = s.calm := by
  unfold gbArriveOp
  dsimp only
  generalize (if (s.group x g).inProgress then (s.group x g).arrived else 0) ||| 1#32 <<< c = a
  split
  · rfl
  · split
    · rfl
    · rename_i s1 hclaim
      have h1 : s1.calm = s.calm := by
        split at hclaim
        · cases hclaim; rfl
        · split at hclaim
          · cases hclaim; rfl
          · cases hclaim
      split
      · refine (releaseBar_calm ..).trans ((setGroup_calm ..).trans ?_)
        split
        · exact (setTracker_calm ..).trans h1
        · exact h1
      · exact (setGroup_calm ..).trans h1

theorem gbPerform_calm (s : State) (c x g : Nat) (m : W32) (eng : BitVec 7) (p : Nat) :
    (gbPerform s c x g m eng p).1.calm = s.calm := by
  have h := gbArriveOp_calm s c x g m
  unfold gbPerform
  split <;> rename_i heq <;> rw [heq] at h
  · exact h
  · exact h
  · exact (noteArrival_calm ..).trans h

theorem relPerform_calm (s : State) (c : Nat) (e : CE) (r : RelWait) : (relPerform s c e r).calm = s.calm := by
  unfold relPerform
  dsimp only
  split
  · exact sendSignal_calm ..
  · rename_i w _
    have h := bwArriveOp_calm s c (s.eng c e).ctx w
    split <;> rename_i heq <;> rw [heq] at h
    · exact (noteArrival_calm ..).trans h
    · exact h
  · rename_i g m _
    have h := gbPerform_calm s c (s.eng c e).ctx g m (engId c (CE.eng e)) 0
    split <;> rename_i heq <;> rw [heq] at h
    · exact h
    · refine (setEng_calm ?_).trans h
      rfl

theorem flushRel_calm (s : State) (c : Nat) (e : CE) (l : List RelWait) : (flushRel s c e l).calm = s.calm := by
  induction l generalizing s with
  | nil => exact setEng_calm rfl
  | cons r l ih =>
    unfold flushRel
    split
    · exact (ih _).trans (relPerform_calm ..)
    · exact setEng_calm rfl

theorem flush_calm (s : State) (c : Nat) (e : CE) : (flush s c e).calm = s.calm := flushRel_calm ..

end Sys2Proof.Machine


/-! # What an access of memory leaves unchanged

A read, a write, a translation, the fill of a noun and the work of a transfer reach memory, poison, registers, the chip's
error log, monitors, TLBs, sketches, and of a core its TLB, its nouns and its pools; nothing else. -/

namespace Sys2Proof.Machine

def Core.beside (x : Core) : Core := { x with tlb := [], nouns := [], nounStamp := 0, pools := [] }

/-- What an access of memory leaves unchanged. -/
def State.beside (s : State) : State × (Nat → Core) :=
  ({ s with mem := [], poison := [], regs := [], ras := {}, mon := {}, cores := {}, sketch := {}, hq := { s.hq with tlb := [] } },
   fun k => (s.core k).beside)

theorem State.beside_eq_iff {s t : State} : t.beside = s.beside ↔
    ({ t with mem := [], poison := [], regs := [], ras := {}, mon := {}, cores := {}, sketch := {}, hq := { t.hq with tlb := [] } } : State)
      = { s with mem := [], poison := [], regs := [], ras := {}, mon := {}, cores := {}, sketch := {}, hq := { s.hq with tlb := [] } } ∧
      ∀ k, (t.core k).beside = (s.core k).beside := by
  simp only [State.beside, Prod.mk.injEq, funext_iff]

section
variable {s t : State} (h : t.beside = s.beside)
include h

theorem beside_core (k : Nat) : (t.core k).beside = (s.core k).beside := (State.beside_eq_iff.1 h).2 k

theorem beside_eng (k : Nat) (z : CE) : t.eng k z = s.eng k z := by
  cases z
  · exact (congrArg Core.mx (beside_core h k) :)
  · exact (congrArg Core.tx (beside_core h k) :)

theorem beside_xfers (k : Nat) : (t.core k).xfers = (s.core k).xfers := (congrArg Core.xfers (beside_core h k) :)
theorem beside_syn : t.syn = s.syn := (congrArg State.syn (State.beside_eq_iff.1 h).1 :)

end

section
variable (s : State)

/-! ## Updates -/

theorem setCore_beside {c : Nat} {x : Core} (h : x.beside = (s.core c).beside) : (s.setCore c x).beside = s.beside := by
  refine State.beside_eq_iff.2 ⟨rfl, fun k => ?_⟩
  by_cases hk : k = c
  · subst hk; simpa using h
  · simp [hk]

theorem inc16_beside (a) : (inc16 s a).beside = s.beside := rfl
theorem inc32_beside (a n) : (inc32 s a n).beside = s.beside := rfl
theorem poisonRange_beside (a n) : (poisonRange s a n).beside = s.beside := rfl
theorem setSk_beside (k x) : (s.setSk k x).beside = s.beside := rfl

theorem mon_beside (m) : ({ s with mon := m } : State).beside = s.beside := rfl

theorem monEvent_beside (ev inst n) : (monEvent s ev inst n).beside = s.beside := by
  obtain ⟨m, hm⟩ := monEvent_eq s ev inst n
  rw [hm, mon_beside]

theorem chipErr_beside (code sub b i d) : (chipErr s code sub b i d).beside = s.beside := by
  obtain ⟨r, g, h⟩ := chipErr_eq s code sub b i d
  rw [h]; rfl

theorem rasCount_beside (code) : (rasCount s code).beside = s.beside := by
  obtain ⟨r, h⟩ := rasCount_eq s code
  rw [h]; rfl

/-! ## Memory -/

theorem eccApply_beside (g r) : (eccApply s g r).beside = s.beside := by
  unfold eccApply eccCorrect eccLose
  grind [chipErr_beside, inc16_beside, poisonRange_beside]

theorem checkGranule_beside (g) : (checkGranule s g).beside = s.beside := by
  unfold checkGranule
  grind [eccApply_beside]

theorem readPa_beside (a n) : (readPa s a n).1.beside = s.beside := by
  obtain ⟨m, hm⟩ := memEvents_eq (checkRead s a n) a n false
  obtain ⟨k, hk⟩ := readSamples_eq { checkRead s a n with mon := m } a n
  have h : (checkRead s a n).beside = s.beside := foldl_keeps State.beside _ _ _ checkGranule_beside
  simp only [readPa, hm, hk]
  split <;> exact h

theorem writePa_beside (a bs) : (writePa s a bs).beside = s.beside := by
  obtain ⟨m, hm⟩ := memEvents_eq (memWrite (((granulesOf a bs.length).filter
    (fun g => !(a ≤ g && g + granLen g ≤ a + bs.length))).foldl checkGranule s) a bs) a bs.length true
  simp only [writePa, hm]
  exact foldl_keeps State.beside _ _ _ checkGranule_beside

/-! ## Translation -/

theorem setTlb_beside (tl l) : (setTlb s tl l).beside = s.beside := by
  unfold setTlb
  split
  · exact setCore_beside s rfl
  · rfl

theorem tlbAdd_beside (tl e) : (tlbAdd s tl e).beside = s.beside := setTlb_beside ..

theorem readEntry_beside (tl f pa) : (readEntry s tl f pa).1.beside = s.beside := by
  unfold readEntry
  grind [readPa_beside]

theorem walk_beside (tl f va fuel tab level : Nat) : (walk s tl f va fuel tab level).1.beside = s.beside := by
  induction fuel generalizing s tab level with
  | zero => rfl
  | succ n ih =>
    unfold walk
    grind [readEntry_beside, tlbAdd_beside]

theorem translate_beside (tl f x va n acc) : (translate s tl f x va n acc).1.beside = s.beside := by
  unfold translate
  extract_lets lo hi held use r
  have hr : r.1.beside = s.beside := by
    clear_value use
    grind [walk_beside, monEvent_beside]
  clear_value r use
  grind [tlbAdd_beside]

theorem xlat_beside (tl f x va n acc) : (xlat s tl f x va n acc).1.beside = s.beside :=
  foldl_keeps (fun r : State × (List (Nat × Nat) ⊕ XF) => r.1.beside) _ _ _ fun r p => by grind [translate_beside]

theorem readPieces_beside (l) : (readPieces s l).1.beside = s.beside :=
  foldl_keeps (fun r : State × Option (List Byte) => r.1.beside) _ _ _ fun r p => by grind [readPa_beside]

theorem readVa_beside (tl f x va n acc) : (readVa s tl f x va n acc).1.beside = s.beside := by
  unfold readVa
  grind [xlat_beside, readPieces_beside]

theorem writePieces_beside (l : List (Nat × Nat)) (bs : List Byte) : (writePieces s l bs).beside = s.beside := by
  induction l generalizing s bs with
  | nil => rfl
  | cons p r ih => exact (ih ..).trans (writePa_beside ..)

theorem writeVa_beside (tl f x va bs) : (writeVa s tl f x va bs).1.beside = s.beside :=
  foldl_keeps (fun r : State × Option XF => r.1.beside) _ _ _ fun r p => by grind [translate_beside, writePa_beside]

theorem saveWrite_beside (x off bs) : (saveWrite s x off bs).1.beside = s.beside := by
  unfold saveWrite
  grind [xlat_beside, writePieces_beside]

theorem saveAll_beside (x l) : (saveAll s x l).1.beside = s.beside :=
  foldl_keeps (fun r : State × Option XF => r.1.beside) _ _ _ fun r p => by grind [saveWrite_beside]

/-! ## Tensors -/

theorem readSp_beside (p a n) : (readSp s p a n).1.beside = s.beside := by
  unfold readSp
  grind [readPa_beside, readVa_beside]

theorem writeSp_beside (p a bs) : (writeSp s p a bs).1.beside = s.beside := by
  unfold writeSp
  grind [writePa_beside, writeVa_beside]

theorem readPat_beside (p fmt a i) : (readPat s p fmt a i).1.beside = s.beside := by
  have h (a k) := readSp_beside s p a k
  unfold readPat
  split
  split <;> rename_i heq <;> exact (congrArg (·.1.beside) heq).symm.trans (h ..)

theorem readScale_beside (p n a i) : (readScale s p n a i).1.beside = s.beside := by
  have h (a k) := readSp_beside s p a k
  unfold readScale
  split
  · split <;> rename_i heq <;> exact (congrArg (·.1.beside) heq).symm.trans (h ..)
  · rfl

theorem readElem_beside (p n a i) : (readElem s p n a i).1.beside = s.beside := by
  unfold readElem
  grind [readPat_beside, readScale_beside]

theorem readLine_beside (p n a k) : (readLine s p n a k).1.beside = s.beside :=
  foldl_keeps (fun r : State × (List (Nat × Nat) ⊕ XF) => r.1.beside) _ _ _ fun r i => by grind [readElem_beside]

theorem writeElems_beside (p n a vs) : (writeElems s p n a vs).1.beside = s.beside := by
  unfold writeElems
  grind [readSp_beside, writeSp_beside]

theorem writeScales_beside (p n a scs) : (writeScales s p n a scs).1.beside = s.beside := by
  unfold writeScales
  grind [writeSp_beside]

theorem writeConv_beside (p n a vs) : (writeConv s p n a vs).1.beside = s.beside := by
  unfold writeConv
  grind [writeElems_beside, writeScales_beside]

theorem drainRow_beside (p n base i b vs) : (drainRow s p n base i b vs).1.beside = s.beside := by
  unfold drainRow
  grind [writeElems_beside, writeConv_beside]

/-! ## The fetch of a clause -/

theorem fillNoun_beside (c x h) : (fillNoun s c x h).1.beside = s.beside := by
  have hr := readVa_beside s c (s.ctx x).fn (some x) ((s.ctx x).nounTable + 128 * h) 128 .read
  unfold fillNoun
  dsimp only
  split
  · rename_i heq; rw [heq] at hr; exact hr
  · rename_i t b heq
    rw [heq] at hr
    have ht : (monEvent (inc32 t (coreA c 0x700) 1) 20 c 1).beside = s.beside := (monEvent_beside ..).trans ((inc32_beside ..).trans hr)
    generalize monEvent (inc32 t (coreA c 0x700) 1) 20 c 1 = u at ht
    split
    · refine (setCore_beside _ ?_).trans ht
      rfl
    · exact ht

theorem resolveNoun_beside (c x h stamp) : (resolveNoun s c x h stamp).1.beside = s.beside := by
  unfold resolveNoun
  grind [fillNoun_beside]

theorem resolveAll_beside (c x stamp : Nat) (l : List Nat) (t : Tbl Noun) : (resolveAll s c x stamp l t).1.beside = s.beside := by
  induction l generalizing s t with
  | nil => rfl
  | cons h r ih =>
    have hn := resolveNoun_beside s c x h stamp
    rw [resolveAll]
    split <;> rename_i heq <;> rw [heq] at hn
    · exact hn
    · exact (ih ..).trans hn

theorem fetchSlots_beside (c e) : (fetchSlots s c e).1.beside = s.beside := by
  unfold fetchSlots
  grind [readVa_beside]

theorem fetchClause_beside (c e) : (fetchClause s c e).1.beside = s.beside := by
  unfold fetchClause
  grind [fetchSlots_beside, resolveAll_beside]

end

end Sys2Proof.Machine


/-! # The fetch of a clause -/

namespace Sys2Proof.Machine

/-! ## An engine fault (R129) -/

/-- The engine after a fault with cause `code`. -/
def ClEng.faulted (y : ClEng) (code : Nat) : ClEng :=
  { y with faultCause := some code, clause := none, issuing := [], waiting := none, st := .issuing }

section
variable (s : State) (c : Nat) (e : CE) (code : Nat)

/-- The end of a stream on a fault reaches its engine, the queues and the waiters. -/
theorem endOnFault_eq : ∃ q y, endOnFault s c e code
    = ({ s with hq := q, syn := y } : State).setEng c e ((s.eng c e).faulted code) := by
  unfold endOnFault cmdFault modCmd State.setQueue dropWaiter Syn.setWaiters
  exact ⟨_, _, rfl⟩

theorem endOnFault_core (k : Nat) :
    (endOnFault s c e code).core k = if k = c then (s.core c).setEng e ((s.eng c e).faulted code) else s.core k := by
  obtain ⟨q, y, h⟩ := endOnFault_eq s c e code
  rw [h]
  exact core_setCore ..

@[simp] theorem endOnFault_eng : (endOnFault s c e code).eng c e = (s.eng c e).faulted code := by
  simp [eng_eq, endOnFault_core]

@[simp] theorem endOnFault_mem : (endOnFault s c e code).mem = s.mem := by
  obtain ⟨q, y, h⟩ := endOnFault_eq s c e code
  rw [h]; rfl
@[simp] theorem endOnFault_poison : (endOnFault s c e code).poison = s.poison := by
  obtain ⟨q, y, h⟩ := endOnFault_eq s c e code
  rw [h]; rfl
@[simp] theorem endOnFault_regs : (endOnFault s c e code).regs = s.regs := by
  obtain ⟨q, y, h⟩ := endOnFault_eq s c e code
  rw [h]; rfl

variable (x : XF)

theorem engFail_core (k : Nat) :
    (engFail s c e x).core k = if k = c then (s.core c).setEng e ((s.eng c e).faulted x.code) else s.core k := by
  obtain ⟨r, g, h, hf⟩ := engineFault_eq s (s.eng c e).fn (engRec c e (s.eng c e) x)
  rw [engFail, endOnFault_core, hf]
  rfl

@[simp] theorem engFail_eng : (engFail s c e x).eng c e = (s.eng c e).faulted x.code := by
  simp [eng_eq, engFail_core]

@[simp] theorem engFail_mem : (engFail s c e x).mem = s.mem := by
  obtain ⟨r, g, h, hf⟩ := engineFault_eq s (s.eng c e).fn (engRec c e (s.eng c e) x)
  rw [engFail, endOnFault_mem, hf]

end

/-! ## What a fetch delivers -/

section
variable {s u : State} {c : Nat} {e : CE} {k : Clause}

theorem fetchSlots_spec (h : fetchSlots s c e = (u, .inl k)) :
    k.addr = (s.eng c e).pc ∧ (s.eng c e).pc % 8 = 0 ∧ (s.eng c e).pc % 4096 + k.len ≤ 4096 ∧ clauseLegal e k = true := by
  unfold fetchSlots at h
  dsimp only at h
  split at h
  · cases h
  · rename_i hal
    split at h
    · cases h
    · split at h
      · cases h
      · rename_i hpage
        split at h
        · cases h
        · split at h
          · rename_i hlegal
            cases h
            refine ⟨rfl, by omega, ?_, hlegal⟩
            simp only [Clause.len, List.length_map, List.length_range]
            omega
          · cases h

theorem fetchClause_spec (h : fetchClause s c e = (u, .inl k)) :
    k.addr = (s.eng c e).pc ∧ k.addr % 8 = 0 ∧ k.addr % 4096 + k.len ≤ 4096 ∧ clauseLegal e k = true := by
  unfold fetchClause at h
  split at h
  · cases h
  · rename_i v k' hk
    obtain ⟨haddr, hal, hpage, hlegal⟩ := fetchSlots_spec hk
    dsimp only at h
    split at h
    · cases h
    · split at h
      · cases h
        exact ⟨haddr, by rw [haddr]; exact hal, by rw [haddr]; exact hpage, hlegal⟩
      · cases h

end

/-- The engine that holds the clause `k` that it has fetched. -/
def ClEng.holding (y : ClEng) (k : Clause) : ClEng :=
  { y with clause := some k, waitOk := !k.waits, done := 0, aguSet := [] }

section
variable {s u : State} {c : CoreId} {e : CE} (hmay : mayFetch s (s.eng c e) = true)
include hmay

theorem exec_clauseFetch_of_clause {k : Clause} (h : fetchClause s c e = (u, .inl k)) :
    exec (.clauseFetch c e) s = done s (u.setEng c e ((u.eng c e).holding k)) := by
  show execClauseFetch c e s = _
  unfold execClauseFetch
  rw [if_pos hmay]
  split <;> rename_i heq <;> cases heq.symm.trans h
  rfl

theorem exec_clauseFetch_of_fault {x : XF} (h : fetchClause s c e = (u, .inr x)) :
    exec (.clauseFetch c e) s = done s (engFail u c e x) := by
  show execClauseFetch c e s = _
  unfold execClauseFetch
  rw [if_pos hmay]
  split <;> rename_i heq <;> cases heq.symm.trans h
  rfl

end

/-- Settles O24: the clause is one that `fetchClause` has checked, and a failure ends the stream. -/
theorem clauseFetchDeliversLegalClause : Obligations.ClauseFetchDeliversLegalClause := by
  unfold Obligations.ClauseFetchDeliversLegalClause
  intro c e s hck hl hk hi ha
  have hmay : mayFetch s (s.eng c e) = true := by simp [mayFetch, hck, hl, hk, hi, ha]
  have hb := fetchClause_beside s c e
  rcases hr : fetchClause s c e with ⟨u, r⟩
  rw [hr] at hb
  have heng : u.eng c e = s.eng c e := beside_eng hb c e
  have hsyn : u.syn = s.syn := beside_syn hb
  cases r with
  | inl k =>
    refine runs_of_answering (exec_clauseFetch_of_clause hmay hr) ⟨fun u' k' h => ?_, fun _ _ h => by cases h⟩
    cases h
    obtain ⟨haddr, hal, hpage, hlegal⟩ := fetchClause_spec hr
    exact ⟨by simp [ClEng.holding], by simp [ClEng.holding], by simp [ClEng.holding], haddr, hal, hpage, hlegal,
      by simp [ClEng.holding, heng], hsyn⟩
  | inr x =>
    refine runs_of_answering (exec_clauseFetch_of_fault hmay hr) ⟨fun _ _ h => (by cases h), fun u' x' h => ?_⟩
    cases h
    simp [ClEng.faulted, heng]

end Sys2Proof.Machine


/-! # A result lands -/

namespace Sys2Proof.Machine

/-! ## What synchronisation leaves of an engine and of a core -/

section
variable {s t : State} (h : t.calm = s.calm) (k : Nat) (z : CE)
include h

theorem calm_inflight : (t.eng k z).inflight = (s.eng k z).inflight := (congrArg ClEng.inflight (calm_eng h k z) :)
theorem calm_scal : (t.eng k z).scal = (s.eng k z).scal := (congrArg ClEng.scal (calm_eng h k z) :)
theorem calm_lc : (t.eng k z).lc = (s.eng k z).lc := (congrArg ClEng.lc (calm_eng h k z) :)
theorem calm_ag : (t.eng k z).ag = (s.eng k z).ag := (congrArg ClEng.ag (calm_eng h k z) :)
theorem calm_bufs : (t.core k).bufs = (s.core k).bufs := (congrArg Core.bufs (calm_core h k) :)
theorem calm_heldRows : (t.core k).heldRows = (s.core k).heldRows := (congrArg Core.heldRows (calm_core h k) :)
theorem calm_banks : (t.core k).banks = (s.core k).banks := (congrArg Core.banks (calm_core h k) :)

end

@[simp] theorem Core.setEng_bufs (x : Core) (e : CE) (y : ClEng) : (x.setEng e y).bufs = x.bufs := by cases e <;> rfl
@[simp] theorem Core.setEng_heldRows (x : Core) (e : CE) (y : ClEng) : (x.setEng e y).heldRows = x.heldRows := by cases e <;> rfl
@[simp] theorem Core.setEng_banks (x : Core) (e : CE) (y : ClEng) : (x.setEng e y).banks = x.banks := by cases e <;> rfl
@[simp] theorem Core.setEng_xfers (x : Core) (e : CE) (y : ClEng) : (x.setEng e y).xfers = x.xfers := by cases e <;> rfl

@[simp] theorem setEng_core_same (s : State) (c : Nat) (e : CE) (y : ClEng) : (s.setEng c e y).core c = (s.core c).setEng e y := by
  simp [State.setEng]

/-! ## The bytes of a write -/

/-- A write that skips nothing lists its bytes. -/
theorem Memory.look_putsBut_same {skip : Nat → Bool} (hs : ∀ a, skip a = false) (bs : List Byte) (m : List Host.Cell) (a j : Nat)
    (hj : j < bs.length) : look (Memory.putsBut skip m a bs) (a + j)
      = if isSram (a + j) && bs.getD j 0 == 0 then none else some (bs.getD j 0) := by
  induction bs generalizing m a j with
  | nil => simp at hj
  | cons b r ih =>
    simp only [Memory.putsBut, hs]
    cases j with
    | zero =>
      rw [Memory.look_putsBut_other _ _ _ _ _ (by omega)]
      simp [Memory.look_put]
    | succ j =>
      have := ih (Memory.put m a b) (a + 1) j (by simpa using hj)
      simpa [Nat.add_assoc, Nat.add_comm 1 j] using this

theorem memByte_of_look {s : State} {a : Nat} {b : Byte} (h : look s.mem a = if isSram a && b == 0 then none else some b) :
    memByte s a = b := by
  unfold memByte
  rw [h]
  split
  · rename_i hb
    split at hb
    · cases hb
    · cases hb; rfl
  · rename_i hb
    split at hb
    · rename_i hz
      simp only [Bool.and_eq_true, beq_iff_eq] at hz
      simp [hz.1, hz.2]
    · cases hb

/-- A write of the local store, with no poison anywhere: the memory list takes all its bytes. -/
theorem writePa_of_local {s : State} {a : Nat} (ha : 0x4100000000 ≤ a) (hp : s.poison = []) (bs : List Byte) :
    (writePa s a bs).mem = Memory.putsBut (fun _ => false) s.mem a bs := by
  obtain ⟨m, hm⟩ := memEvents_eq (memWrite s a bs) a bs.length true
  have hskip : keepsPoison s a bs.length = fun _ => false := by
    funext x; simp [keepsPoison, hp]
  have hcheck := foldl_checkGranule_of_local s ha
    ((granulesOf a bs.length).filter (fun g => !(a ≤ g && g + granLen g ≤ a + bs.length))) (n := bs.length)
    (fun g hg => (List.mem_filter.1 hg).1)
  simp only [writePa, hcheck]
  rw [hm]
  simp only [memWrite, hskip]

/-! ## Landing -/

/-- What a landing leaves of an engine: all but the registers and the data it reaches. -/
def ClEng.bare (y : ClEng) : ClEng := { y with scal := {}, lc := {}, ag := {}, mmas := [], drains := [] }

/-- A new content of a bank reaches that bank and the DRAINs that read it, and nothing else. -/
theorem landBank_bare (s : State) (c a b : Nat) (v : Bank) (k : Nat) (z : CE) :
    ((landBank s c a b v).eng k z).bare = (s.eng k z).bare := by
  by_cases hk : k = c
  · subst hk; cases z <;> simp [landBank, eng_eq, Core.eng, recapture, ClEng.bare]
  · simp [landBank, eng_eq, hk]

theorem landBank_banks (s : State) (c a b k : Nat) (v : Bank) :
    ((landBank s c a b v).core c).banks.get {} k = if k = b then v else (s.core c).banks.get {} k := by
  rw [landBank, core_setCore, if_pos rfl]
  exact Tbl.get_put ..

theorem noteSat_core (s : State) (c b k : Nat) (r : CmdRef) : (noteSat s c b r).core k = s.core k := by
  obtain ⟨g, hg⟩ := wrF_eq s (coreA c 0x100) b 1 1
  unfold noteSat
  rw [hg]
  rfl

theorem setEng_bare {s : State} {c : Nat} {e : CE} {y : ClEng} (h : y.bare = (s.eng c e).bare) (k : Nat) (z : CE) :
    ((s.setEng c e y).eng k z).bare = (s.eng k z).bare := by
  rw [eng_setEng]
  split
  · rename_i hk; rw [h, hk.1, hk.2]
  · rfl

/-- A landing reaches registers and data: it leaves the course of every stream. -/
theorem landOne_bare (s : State) (c : Nat) (e : CE) (l : Land) (k : Nat) (z : CE) :
    ((landOne s c e l).eng k z).bare = (s.eng k z).bare := by
  unfold landOne
  dsimp only
  split
  case h_1 => split <;> [rfl; exact setEng_bare (by rfl) k z]
  case h_2 | h_3 => exact setEng_bare (by rfl) k z
  case h_4 | h_5 | h_6 =>
    rw [eng_eq, core_setCore]
    split
    · rename_i hk; subst hk; cases z <;> rfl
    · rw [eng_eq]
  case h_7 => exact landBank_bare ..
  case h_8 =>
    split
    · rfl
    · rename_i r _
      generalize mmaBank r = v
      obtain ⟨m, hm⟩ := monEvent_eq s 5 c (Nat.min r.k r.rows)
      rw [hm]
      split
      · rw [eng_eq, noteSat_core, ← eng_eq, landBank_bare]
        exact setEng_bare (by rfl) k z
      · rw [landBank_bare]
        exact setEng_bare (by rfl) k z
  case h_9 =>
    split
    · rw [beside_eng (writePa_beside ..)]
    · rfl
  case h_10 i _ =>
    split
    · rfl
    · rename_i d _
      have h := beside_eng (drainRow_beside s (.ls c (s.eng c e).ctx) d.noun d.base i (d.cap.getD i (false, [])).1
        (d.cap.getD i (false, [])).2)
      split
      · rw [h]
      · rw [setEng_bare (by rfl), h]

theorem landOne_inflight (s : State) (c : Nat) (e : CE) (l : Land) :
    ((landOne s c e l).eng c e).inflight = (s.eng c e).inflight := (congrArg ClEng.inflight (landOne_bare s c e l c e) :)

section
variable {s : State} {c : Nat} {e : CE} {l : Land}

theorem landOne_scal {d : Nat} {v : W64} (hw : l.w = .scal d v) :
    ((landOne s c e l).eng c e).scal.get 0 d = (if d = 0 then (s.eng c e).scal.get 0 0 else v) ∧
    (∀ k, k ≠ d → ((landOne s c e l).eng c e).scal.get 0 k = (s.eng c e).scal.get 0 k) ∧ (landOne s c e l).mem = s.mem := by
  simp only [landOne, hw]
  by_cases hd : d = 0
  · subst hd; simp
  · rw [if_neg hd, if_neg hd]
    exact ⟨by simp, fun k hk => by simp [Tbl.get_put, hk], rfl⟩

theorem landOne_gen {n op : Nat} {v : Agu} (hw : l.w = .gen n op v) :
    ((landOne s c e l).eng c e).ag.get {} n = ((s.eng c e).ag.get {} n).take v op ∧ (landOne s c e l).mem = s.mem := by
  simp only [landOne, hw, eng_setEng, and_self, if_true]
  exact ⟨Tbl.get_put_same .., rfl⟩

theorem landOne_lc {n : Nat} {v : W16} (hw : l.w = .lc n v) :
    ((landOne s c e l).eng c e).lc.get 0 n = v ∧ (landOne s c e l).mem = s.mem := by
  simp only [landOne, hw, eng_setEng, and_self, if_true]
  exact ⟨Tbl.get_put_same .., rfl⟩

theorem landOne_buf {b row f : Nat} {lanes : List (Nat × W16)} (hw : l.w = .buf b row f lanes) :
    ((landOne s c e l).core c).bufs.get {} b = ((s.core c).bufs.get {} b).load row f lanes ∧ (landOne s c e l).mem = s.mem := by
  simp only [landOne, hw, core_setCore, if_true]
  exact ⟨Tbl.get_put_same .., rfl⟩

theorem landOne_held {row f : Nat} {lanes : List (Nat × W16)} (hw : l.w = .held row f lanes) :
    ((landOne s c e l).core c).heldRows = (s.core c).heldRows.load row f lanes := by
  simp only [landOne, hw, core_setCore, if_true]

theorem landOne_shift {rf : Tbl Nat} {lanes : Tbl W16} (hw : l.w = .shift rf lanes) :
    ((landOne s c e l).core c).heldRows = { (s.core c).heldRows with rowFmt := rf, lanes := lanes } ∧
      (landOne s c e l).mem = s.mem := by
  simp only [landOne, hw, core_setCore, if_true]
  exact ⟨trivial, rfl⟩

theorem landOne_zero {b k : Nat} (hw : l.w = .zero b) :
    ((landOne s c e l).core c).banks.get {} k = if k = b then {} else (s.core c).banks.get {} k := by
  simp only [landOne, hw]
  exact landBank_banks ..

theorem landOne_mma {id k : Nat} {m : MmaRun} (hw : l.w = .mma id) (hm : (s.eng c e).mmas.find? (fun x => x.id == id) = some m) :
    ((landOne s c e l).core c).banks.get {} k = if k = m.bank then (mmaBank m).1 else (s.core c).banks.get {} k := by
  simp only [landOne, hw, hm]
  generalize mmaBank m = v
  obtain ⟨mo, hmo⟩ := monEvent_eq s 5 c (Nat.min m.k m.rows)
  rw [hmo]
  have h : ∀ y, ((landBank (State.setEng { s with mon := mo } c e y) c l.at_ m.bank v.1).core c).banks.get {} k
      = if k = m.bank then v.1 else (s.core c).banks.get {} k := fun y => by
    rw [landBank_banks, setEng_core_same, Core.setEng_banks]; rfl
  split
  · rw [noteSat_core]; exact h _
  · exact h _

theorem landOne_drain {id row : Nat} {d : DrainRun} (hw : l.w = .drain id row)
    (hd : (s.eng c e).drains.find? (fun x => x.id == id) = some d) :
    (landOne s c e l).mem = (drainRow s (.ls c (s.eng c e).ctx) d.noun d.base row (d.cap.getD row (false, [])).1
      (d.cap.getD row (false, [])).2).1.mem := by
  simp only [landOne, hw, hd]
  split <;> rfl

theorem landOne_ls {off pa : Nat} {bs : List Byte} (hw : l.w = .ls off bs)
    (ha : lsAddr s c (s.eng c e).ctx off bs.length = some pa) (hp : s.poison = []) :
    (landOne s c e l).mem = Memory.putsBut (fun _ => false) s.mem pa bs := by
  simp only [landOne, hw, ha]
  exact writePa_of_local (le_of_lsAddr ha) hp bs

end

/-- Settles O21: what lands is what `landOne` sets, and the releases that it lets go leave it. -/
theorem resultLandReachesItsResource : Obligations.ResultLandReachesItsResource := by
  unfold Obligations.ResultLandReachesItsResource
  intro c e l r s hfl hck hi hdue
  have hexec : exec (.resultLand c e) s
      = done s (flush (landOne (s.setEng c e { s.eng c e with inflight := r }) c e l) c e) := by
    have hcond : (s.clocked && (s.eng c e).issuing.isEmpty && (decide (l.at_ ≤ (s.eng c e).next) || (s.eng c e).between ||
        decide (l.issued < (s.eng c e).first) || !(s.eng c e).live)) = true := by
      rcases hdue with h | h | h | h <;> simp [hck, hi, h]
    show execResultLand c e s = _
    simp only [execResultLand, hfl, hcond, if_true]
  have hf := flush_calm (landOne (s.setEng c e { s.eng c e with inflight := r }) c e l) c e
  have hy : (s.setEng c e { s.eng c e with inflight := r }).eng c e = { s.eng c e with inflight := r } := by simp
  refine runs_of_answering hexec ⟨?_, rfl, rfl, rfl, rfl, ?_⟩
  · rw [State.answering_eng, calm_inflight hf, landOne_inflight, hy]
  simp only [State.answering_eng, State.answering_core, State.answering_mem, ClEng.gen, calm_mem hf, calm_scal hf, calm_lc hf,
    calm_ag hf, calm_bufs hf, calm_heldRows hf, calm_banks hf]
  have hx : (s.setEng c e { s.eng c e with inflight := r }).core c = (s.core c).setEng e { s.eng c e with inflight := r } :=
    setEng_core_same ..
  generalize hs0 : s.setEng c e { s.eng c e with inflight := r } = s0 at hy hx
  have hmem : s0.mem = s.mem := by rw [← hs0]; rfl
  refine ⟨fun d v hw => ?_, fun n op v hw => ?_, fun n v hw => ?_, fun b row f lanes hw => ?_, fun row f lanes hw => ?_,
    fun rf lanes hw => ?_, fun b hw => ?_, fun id m hw hm => ?_, fun id row d hw hd => ?_, fun off bs pa hw ha hp => ?_⟩
  · have h := landOne_scal (s := s0) (c := c) (e := e) hw
    rwa [hy, hmem] at h
  · have h := landOne_gen (s := s0) (c := c) (e := e) hw
    rwa [hy, hmem] at h
  · have h := landOne_lc (s := s0) (c := c) (e := e) hw
    rwa [hmem] at h
  · have h := landOne_buf (s := s0) (c := c) (e := e) hw
    rwa [hx, Core.setEng_bufs, hmem] at h
  · have h := landOne_held (s := s0) (c := c) (e := e) hw
    rwa [hx, Core.setEng_heldRows] at h
  · have h := landOne_shift (s := s0) (c := c) (e := e) hw
    rwa [hx, Core.setEng_heldRows, hmem] at h
  · have h k := landOne_zero (s := s0) (c := c) (e := e) (k := k) hw
    simp only [hx, Core.setEng_banks] at h
    exact ⟨(h b).trans (if_pos rfl), fun k hk => (h k).trans (if_neg hk)⟩
  · have h k := landOne_mma (s := s0) (c := c) (e := e) (k := k) (m := m) hw (by rw [hy]; exact hm)
    simp only [hx, Core.setEng_banks] at h
    exact ⟨(h m.bank).trans (if_pos rfl), fun k hk => (h k).trans (if_neg hk)⟩
  · have h := landOne_drain (s := s0) (c := c) (e := e) (d := d) hw (by rw [hy]; exact hd)
    rwa [hy] at h
  · have ha0 : lsAddr s0 c (s0.eng c e).ctx off bs.length = some pa := by rw [hy, ← hs0]; exact ha
    have h := landOne_ls hw ha0 (by rw [← hs0]; exact hp)
    rw [hmem] at h
    refine ⟨fun j hj => memByte_of_look ?_, fun a ha => ?_⟩
    · rw [State.answering_mem, calm_mem (flush_calm ..), h]
      exact Memory.look_putsBut_same (fun _ => rfl) bs s.mem pa j hj
    · rw [h]
      exact Memory.look_putsBut_other _ bs s.mem pa a ha

end Sys2Proof.Machine


/-! # Release operations (R115) -/

namespace Sys2Proof.Machine

section
variable (y : ClEng)

@[simp] theorem ClEng.endExec_releases : y.endExec.releases = y.releases := by
  unfold endExec; split <;> [rfl; (dsimp only; split <;> rfl)]
@[simp] theorem ClEng.endExec_gbHeld : y.endExec.gbHeld = y.gbHeld := by
  unfold endExec; split <;> [rfl; (dsimp only; split <;> rfl)]
@[simp] theorem ClEng.acted_releases : y.acted.releases = y.releases := by unfold acted; split <;> simp
@[simp] theorem ClEng.acted_gbHeld : y.acted.gbHeld = y.gbHeld := by unfold acted; split <;> simp

end

/-! ## One release operation -/

/-- The release operation of a slot of engine `y`, which has no transfers to wait for. -/
def ClEng.release (y : ClEng) (r : Release) : RelWait := ⟨r, y.now, [], y.pc⟩

section
variable {s : State} {c : Nat} {e : CE}

/-- A release operation of an engine with no transfers outstanding. -/
theorem addRelease_of_no_xfers (r : Release) (hx : e = .tx → ∀ x ∈ (s.core c).xfers, x.cmd ≠ (s.eng c e).cmd) :
    addRelease s c e r = flush (s.setEng c e { s.eng c e with releases := (s.eng c e).releases ++ [(s.eng c e).release r] }) c e := by
  cases e with
  | mx => rfl
  | tx =>
    have hnone : ((s.core c).xfers.filter (fun x => x.cmd == (s.eng c .tx).cmd)).map (·.id) = [] :=
      List.map_eq_nil_iff.2 (List.filter_eq_nil_iff.2 fun x hm => by simpa using hx rfl x hm)
    simp only [addRelease, hnone]
    rfl

/-- The only release operation of an engine is ready: it is performed. -/
theorem flush_of_ready {r : RelWait} (hr : (s.eng c e).releases = [r]) (hready : relReady s c (s.eng c e) r = true)
    (hg : (s.eng c e).gbHeld = false) (hb : relBlocked s r = false) :
    flush s c e = (relPerform s c e r).setEng c e { (relPerform s c e r).eng c e with releases := [] } := by
  simp [flush, hr, flushRel, hready, hg, hb]

/-- An engine's first release operation is not ready: it waits. -/
theorem flush_of_not_ready {r : RelWait} (hr : (s.eng c e).releases = [r]) (hready : relReady s c (s.eng c e) r = false) :
    flush s c e = s.setEng c e { s.eng c e with releases := [r] } := by
  simp [flush, hr, flushRel, hready]

end

/-- The engine whose release slot is taken: its operation waits. -/
def ClEng.releasing (y : ClEng) (r : Release) : ClEng := { y.pop with releases := [y.release r] }

section
variable {s : State} {c : Nat} {e : CE} {op i : Nat} {w : W64} {ins : Instr} {f : Nat → Release}

theorem slotRowS_of_heads {ty : SlotTy} {act : State → ClEng → Nat → Nat → State} (h : s.heads c e ty op i w) :
    slotRowS c e ty op s act
      = done s (slotDone (act (s.setEng c e (s.eng c e).pop) (s.eng c e).pop i w.toNat) c e) := by
  simp only [slotRowS, h.headSlot]

/-- The engine is set to one with the slot's release operation alone. -/
theorem addRelease_pop (r : Release) (hr : (s.eng c e).releases = [])
    (hx : e = .tx → ∀ x ∈ (s.core c).xfers, x.cmd ≠ (s.eng c e).cmd) :
    ∃ s2, EngSet s s2 c e ((s.eng c e).releasing r) ∧ addRelease (s.setEng c e (s.eng c e).pop) c e r = flush s2 c e := by
  have h1 := engSet_setEng s c e (s.eng c e).pop
  refine ⟨_, ?_, addRelease_of_no_xfers r fun he x hm => ?_⟩
  · rw [h1.eng]
    have h2 := h1.setEng ((s.eng c e).releasing r)
    rw [show (s.eng c e).pop.releases = [] from hr]
    exact h2
  · rw [h1.eng]
    exact hx he x (by simpa using hm)

/-- A settled release slot performs its operation (R115): what follows from that of any state it leaves. -/
theorem runs_of_release {P : State → Prop} (hi : exec ins s = slotRowS c e .sync op s (fun t _ _ n => addRelease t c e (f n)))
    (h : s.heads c e .sync op i w) (hs : s.settled c e)
    (hp : ∀ s2 v t, EngSet s s2 c e ((s.eng c e).releasing (f w.toNat)) →
      v = relPerform s2 c e ((s.eng c e).release (f w.toNat)) →
      EngSet v t c e { v.eng c e with releases := [] }.acted → P (t.answering s)) : Runs ins s P := by
  obtain ⟨hr, hfl, hg, hdump, hx⟩ := hs
  obtain ⟨s2, h2, hadd⟩ := addRelease_pop (f w.toNat) hr hx
  have hflush : flush s2 c e = _ := flush_of_ready (r := (s.eng c e).release (f w.toNat)) (by rw [h2.eng]; rfl)
    (by
      have hin : (s2.eng c e).inflight = [] := by rw [h2.eng]; exact hfl
      simp [relReady, hin, ClEng.release])
    (by rw [h2.eng]; exact hg)
    (by
      have hd2 : s2.syn.dumpBusy = false := by rw [h2.1]; exact hdump
      unfold relBlocked
      split
      · rfl
      · exact hd2)
  have h3 := (engSet_setEng (relPerform s2 c e ((s.eng c e).release (f w.toNat))) c e
    { (relPerform s2 c e ((s.eng c e).release (f w.toNat))).eng c e with releases := [] }).slotDone
  refine runs_of_answering (hi.trans ((slotRowS_of_heads h).trans ?_)) (hp s2 _ _ h2 rfl h3)
  rw [hadd, hflush]

/-- A write that has not landed holds the slot's release operation back. -/
theorem runs_of_held_release (hi : exec ins s = slotRowS c .mx .sync op s (fun t _ _ n => addRelease t c .mx (f n)))
    (h : s.heads c .mx .sync op i w) (hr : (s.eng c .mx).releases = [])
    (hl : ∃ l ∈ (s.eng c .mx).inflight, l.issued ≤ (s.eng c .mx).now) :
    Runs ins s (fun t => OnlyEngine s t c .mx ∧ (t.eng c .mx).releases = [(s.eng c .mx).release (f w.toNat)]) := by
  obtain ⟨s2, h2, hadd⟩ := addRelease_pop (f w.toNat) hr (by simp)
  obtain ⟨l, hm, hle⟩ := hl
  have hflush := flush_of_not_ready (s := s2) (c := c) (e := .mx) (r := (s.eng c .mx).release (f w.toNat)) (by rw [h2.eng]; rfl)
    (by
      have hin : (s2.eng c .mx).inflight = (s.eng c .mx).inflight := by rw [h2.eng]; rfl
      have hall : (s2.eng c .mx).inflight.all (fun l => ((s.eng c .mx).release (f w.toNat)).upto < l.issued) = false := by
        rw [hin, List.all_eq_false]
        exact ⟨l, hm, fun hd => Nat.not_lt.2 hle (of_decide_eq_true hd)⟩
      simp [relReady, hall])
  have h3 := (h2.setEng { s2.eng c .mx with releases := [(s.eng c .mx).release (f w.toNat)] }).slotDone
  refine ⟨_, hi.trans ((slotRowS_of_heads h).trans ?_), h3.onlyEngine, ?_⟩
  · rw [hadd, hflush]; exact h3.done
  · exact (congrArg ClEng.releases h3.eng).trans (by simp)

end

/-! ## What each operation does -/

/-- A waiter that a barrier has released is not registered any more. -/
theorem releaseBar_syn (s : State) (o : Obj) : (releaseBar s o).syn = { s.syn with
    waiters := s.syn.waiters.filter (fun w => !(w.obj == o && (w.anyNext || w.bseen < genOf s o))) } := by
  have h (t : State) (w : Waiter) : (releaseOne t w).syn = t.syn := by
    obtain ⟨m, hm⟩ := monSample_eq t false 5 w.eng.toNat (t.time - w.since)
    unfold releaseOne l1Acquire
    rw [hm]
    dsimp only
    split
    · split <;> rfl
    · rfl
  exact foldl_keeps State.syn _ _ _ fun t w => h t w

theorem wire_of_syn {s t : State} (h : t.syn = s.syn) (n : Nat) : t.wire n = s.wire n := by rw [State.wire, h, State.wire]

theorem group_of_syn {s t : State} (h : t.syn = s.syn) (x g : Nat) : t.group x g = s.group x g := by
  rw [State.group, h, State.group]

theorem releaseBar_wire (s : State) (o : Obj) (n : Nat) : (releaseBar s o).wire n = s.wire n := by
  rw [State.wire, releaseBar_syn, State.wire]

theorem releaseBar_group (s : State) (o : Obj) (x g : Nat) : (releaseBar s o).group x g = s.group x g := by
  rw [State.group, releaseBar_syn, State.group]

theorem releaseBar_waiters {s : State} {o : Obj} {x : Waiter} (h : x ∈ (releaseBar s o).syn.waiters) :
    ¬ (x.obj = o ∧ (x.anyNext = true ∨ x.bseen < genOf s o)) := by
  rw [releaseBar_syn] at h
  simpa [imp_iff_not_or] using (List.mem_filter.1 h).2

theorem noteArrival_syn (s : State) (eng : BitVec 7) (p : Nat) (o : Obj) (g : W32) : (noteArrival s eng p o g).syn = s.syn := by
  unfold noteArrival
  dsimp only
  split <;> rfl

section
variable {s : State} {c : Nat} {e : CE} {r : RelWait}

theorem relPerform_sig {n : Nat} {v : W32} (hr : r.r = .sig n v) : relPerform s c e r
    = sendSignal s { ctx := (s.eng c e).ctx, conj := n, n := v, src := sigSrc c (CE.eng e) (s.eng c e).ctx r.pc } := by
  simp only [relPerform, hr]

theorem relPerform_bw {n : Nat} (hr : r.r = .bw n) :
    (relPerform s c e r).syn = (bwArriveOp s c (s.eng c e).ctx n).1.syn ∧
    (relPerform s c e r).regs = (bwArriveOp s c (s.eng c e).ctx n).1.regs := by
  simp only [relPerform, hr]
  rcases hb : bwArriveOp s c (s.eng c e).ctx n with ⟨t, _ | g⟩
  · exact ⟨rfl, rfl⟩
  · refine ⟨noteArrival_syn .., ?_⟩
    show (noteArrival ..).regs = t.regs
    unfold noteArrival
    dsimp only
    split <;> rfl

/-- The wire's answers to an arrival of core `c` of context `x` (R266). -/
theorem bwArriveOp_of_not_member {x n : Nat}
    (h : ¬ ((s.wire n).valid = true ∧ (s.wire n).ctx.toNat = x ∧ (s.wire n).mask.toNat.testBit c = true)) :
    bwArriveOp s c x n = (inc16 s 0x0040082C, none) := by
  have h' : (!((s.wire n).valid && (s.wire n).ctx.toNat == x && (s.wire n).mask.toNat.testBit c)) = true := by
    simpa [Bool.and_assoc, imp_iff_not_or] using h
  simp only [bwArriveOp, h', if_true]

theorem bwArriveOp_of_member {x n : Nat}
    (h : (s.wire n).valid = true ∧ (s.wire n).ctx.toNat = x ∧ (s.wire n).mask.toNat.testBit c = true) :
    (bwArriveOp s c x n).1 = if ((s.wire n).raised ||| (1#32 <<< c)) &&& (s.wire n).mask = (s.wire n).mask
      then releaseBar (s.setWire n { s.wire n with raised := 0, gen := (s.wire n).gen + 1 }) (.wire n)
      else s.setWire n { s.wire n with raised := (s.wire n).raised ||| (1#32 <<< c) } := by
  obtain ⟨hv, hx, hm⟩ := h
  simp only [bwArriveOp, hv, hx, hm, beq_self_eq_true, Bool.and_self, Bool.not_true, Bool.false_eq_true, if_false]
  split <;> rfl

end

theorem runs_bwArrive {c : CoreId} {e : CE} {i : Nat} {w : W64} {s : State} (h : s.heads c e .sync 3 i w) (hs : s.settled c e) :
    Runs (.bwArrive c e) s (fun t =>
      let n := fld w.toNat 17 6
      let v := s.wire n
      let member := v.valid = true ∧ v.ctx.toNat = (s.eng c e).ctx ∧ v.mask.toNat.testBit c = true
      let raised := v.raised ||| (1#32 <<< c.val)
      t.mem = s.mem ∧ t.hq.ctxs = s.hq.ctxs ∧
      (¬ member → t.syn = s.syn ∧ rdF t 0x0040082C 0 16 = Nat.min (rdF s 0x0040082C 0 16 + 1) 0xFFFF) ∧
      (member → raised &&& v.mask ≠ v.mask → t.wire n = { v with raised := raised } ∧ t.syn.waiters = s.syn.waiters) ∧
      (member → raised &&& v.mask = v.mask → t.wire n = { v with raised := 0, gen := v.gen + 1 } ∧
        ∀ x ∈ t.syn.waiters, ¬ (x.obj = .wire n ∧ (x.anyNext = true ∨ x.bseen < v.gen + 1)))) := by
  refine runs_of_release (f := fun n => .bw (fld n 17 6)) rfl h hs fun s2 v t h2 hv ht => ?_
  have hctx : (s2.eng c e).ctx = (s.eng c e).ctx := by rw [h2.eng]; rfl
  have hcalm : v.calm = s2.calm := hv ▸ relPerform_calm ..
  obtain ⟨hsyn, hregs⟩ := relPerform_bw (s := s2) (c := c) (e := e) (r := (s.eng c e).release (.bw (fld w.toNat 17 6))) rfl
  rw [← hv, hctx] at hsyn hregs
  have htsyn : t.syn = v.syn := by rw [ht.1]
  have htregs : t.regs = v.regs := by rw [ht.1]
  have hwire : s2.wire (fld w.toNat 17 6) = s.wire (fld w.toNat 17 6) := by rw [h2.1]; rfl
  refine ⟨?_, ?_, fun hm => ?_, fun hm hne => ?_, fun hm heq => ?_⟩
  · rw [State.answering_mem, show t.mem = v.mem by rw [ht.1], calm_mem hcalm, h2.1]
  · rw [State.answering_hq, show t.hq = v.hq by rw [ht.1], calm_hq hcalm, h2.1]
  · rw [bwArriveOp_of_not_member (by rw [hwire]; exact hm)] at hsyn hregs
    refine ⟨?_, ?_⟩
    · rw [State.answering_syn, htsyn, hsyn, inc16_syn, h2.1]
    · rw [State.answering_rdF, rdF_congr (htregs.trans hregs), rdF_inc16_same, rdF_congr (show s2.regs = s.regs by rw [h2.1])]
  · rw [bwArriveOp_of_member (by rw [hwire]; exact hm), hwire, if_neg hne] at hsyn
    refine ⟨?_, ?_⟩
    · rw [State.answering_wire, wire_of_syn (htsyn.trans hsyn), wire_setWire, if_pos rfl]
    · rw [State.answering_syn, htsyn, hsyn, State.setWire, h2.1]
  · rw [bwArriveOp_of_member (by rw [hwire]; exact hm), hwire, if_pos heq] at hsyn
    refine ⟨?_, fun x hx => ?_⟩
    · rw [State.answering_wire, wire_of_syn (htsyn.trans hsyn), releaseBar_wire, wire_setWire, if_pos rfl]
    · rw [State.answering_syn, htsyn, hsyn] at hx
      have := releaseBar_waiters hx
      rwa [genOf, wire_setWire, if_pos rfl] at this

/-! ## Group arrivals (R269 to R271) -/

/-- An arrival that its group's members, its partition or the generation in progress do not let in (R270). -/
def GbWrong (s : State) (c x g : Nat) (m : W32) : Prop :=
  m = 0 ∨ m.toNat.testBit c = false ∨ m.toNat &&& partMask s x ≠ m.toNat ∨
    (s.group x g).inProgress = true ∧ (s.group x g).mask ≠ m

/-- The members that have arrived, with core `c` among them. -/
def Group.got (v : Group) (c : Nat) : W32 := (if v.inProgress then v.arrived else 0) ||| (1#32 <<< c)

/-- The group has a tracker, or one is to be had (R271). -/
def GbTracked (s : State) (x g : Nat) : Prop :=
  (trackerOf s x g).isSome ∨ (freeTracker s (tenant s (s.ctx x).fn).part).isSome

theorem group_setGroup_same (s : State) (x g : Nat) (v : Group) : (s.setGroup x g v).group x g = v := by
  simp [State.group, State.setGroup]

section
variable {s : State} {c x g : Nat} {m : W32}

/-- The check that `gbArriveOp` makes. -/
theorem gbWrong_iff : ((m == 0 || !m.toNat.testBit c || (m.toNat &&& partMask s x) != m.toNat)
    || ((s.group x g).inProgress && (s.group x g).mask != m)) = true ↔ GbWrong s c x g m := by
  simp [GbWrong, or_assoc]

theorem gbArriveOp_of_wrong (h : GbWrong s c x g m) : gbArriveOp s c x g m
    = ((inc16 s 0x00400830).setGroup x g { s.group x g with mismatch := true }, .mismatch) := by
  simp only [gbArriveOp, gbWrong_iff.2 h, if_true]

variable (hw : ¬ GbWrong s c x g m)
include hw

/-- No tracker is to be had: the arrival is held. -/
theorem gbArriveOp_of_untracked (ht : ¬ GbTracked s x g) : gbArriveOp s c x g m = (s, .held) := by
  have h' := Bool.eq_false_iff.2 (mt gbWrong_iff.1 hw)
  obtain ⟨h1, h2⟩ := not_or.1 ht
  simp only [Option.not_isSome_iff_eq_none] at h1 h2
  simp only [gbArriveOp, h', h1, h2, Bool.false_eq_true, if_false]

/-- With a tracker the arrival counts, and the last one completes the generation. -/
theorem gbArriveOp_of_tracked (ht : GbTracked s x g) : ∃ k, (gbArriveOp s c x g m).2 = .arrived k ∧
    (gbArriveOp s c x g m).1.group x g = if (s.group x g).got c = m
      then { s.group x g with gen := (s.group x g).gen + 1, inProgress := false, mask := 0, arrived := 0 }
      else { s.group x g with inProgress := true, mask := m, arrived := (s.group x g).got c } := by
  have h' := Bool.eq_false_iff.2 (mt gbWrong_iff.1 hw)
  simp only [gbArriveOp, h', Bool.false_eq_true, if_false]
  rw [← Group.got]
  split
  · rename_i hnone
    split at hnone
    · cases hnone
    · rename_i htr
      split at hnone
      · cases hnone
      · rename_i hfr
        simp [GbTracked, htr, hfr] at ht
  · split
    · exact ⟨_, rfl, by rw [releaseBar_group, group_setGroup_same]⟩
    · exact ⟨_, rfl, group_setGroup_same ..⟩

end

section
variable {s : State} {c : Nat} {e : CE} {r : RelWait} {g : Nat} {m : W32} (hr : r.r = .gb g m)
include hr

theorem relPerform_gb_of_wrong (hw : GbWrong s c (s.eng c e).ctx g m) : relPerform s c e r
    = (inc16 s 0x00400830).setGroup (s.eng c e).ctx g { s.group (s.eng c e).ctx g with mismatch := true } := by
  simp only [relPerform, hr, gbPerform, gbArriveOp_of_wrong hw]

theorem relPerform_gb_of_untracked (hw : ¬ GbWrong s c (s.eng c e).ctx g m) (ht : ¬ GbTracked s (s.eng c e).ctx g) :
    ((relPerform s c e r).eng c e).gbHeld = true ∧
      (relPerform s c e r).syn.heldArr.length = s.syn.heldArr.length + 1 ∧
      (relPerform s c e r).group (s.eng c e).ctx g = s.group (s.eng c e).ctx g := by
  simp only [relPerform, hr, gbPerform, gbArriveOp_of_untracked hw ht]
  refine ⟨?_, ?_, rfl⟩
  · simp
  · simp

theorem relPerform_gb_of_tracked (hw : ¬ GbWrong s c (s.eng c e).ctx g m) (ht : GbTracked s (s.eng c e).ctx g) :
    (relPerform s c e r).group (s.eng c e).ctx g = (gbArriveOp s c (s.eng c e).ctx g m).1.group (s.eng c e).ctx g := by
  obtain ⟨k, hk, -⟩ := gbArriveOp_of_tracked hw ht
  simp only [relPerform, hr, gbPerform]
  rcases ha : gbArriveOp s c (s.eng c e).ctx g m with ⟨t, a⟩
  rw [ha] at hk
  dsimp only at hk
  subst hk
  exact group_of_syn (noteArrival_syn ..) _ _

end

theorem runs_gbArrive {c : CoreId} {e : CE} {i : Nat} {w : W64} {s : State} (h : s.heads c e .sync 5 i w) (hs : s.settled c e) :
    Runs (.gbArrive c e) s (fun t =>
      let x := (s.eng c e).ctx
      let g := fld w.toNat 17 6
      let m := BitVec.ofNat 32 (fld w.toNat 32 32)
      let v := s.group x g
      let wrong := m = 0 ∨ m.toNat.testBit c = false ∨ m.toNat &&& partMask s x ≠ m.toNat ∨ v.inProgress = true ∧ v.mask ≠ m
      let got := (if v.inProgress then v.arrived else 0) ||| (1#32 <<< c.val)
      let tracked := (trackerOf s x g).isSome ∨ (freeTracker s (tenant s (s.ctx x).fn).part).isSome
      t.mem = s.mem ∧
      (wrong → t.group x g = { v with mismatch := true } ∧
        rdF t 0x00400830 0 16 = Nat.min (rdF s 0x00400830 0 16 + 1) 0xFFFF) ∧
      (¬ wrong → ¬ tracked → (t.eng c e).gbHeld = true ∧ t.syn.heldArr.length = s.syn.heldArr.length + 1 ∧ t.group x g = v) ∧
      (¬ wrong → tracked → got ≠ m → t.group x g = { v with inProgress := true, mask := m, arrived := got }) ∧
      (¬ wrong → tracked → got = m →
        t.group x g = { v with gen := v.gen + 1, inProgress := false, mask := 0, arrived := 0 })) := by
  refine runs_of_release (f := fun n => .gb (fld n 17 6) (BitVec.ofNat 32 (fld n 32 32))) rfl h hs fun s2 v t h2 hv ht => ?_
  have hctx : (s2.eng c e).ctx = (s.eng c e).ctx := by rw [h2.eng]; rfl
  have hcalm : v.calm = s2.calm := hv ▸ relPerform_calm ..
  have htsyn : t.syn = v.syn := by rw [ht.1]
  have htregs : t.regs = v.regs := by rw [ht.1]
  have hgroup (x g : Nat) : s2.group x g = s.group x g := by rw [h2.1]; rfl
  have hwrong (m : W32) (x g : Nat) : GbWrong s2 c x g m ↔ GbWrong s c x g m := by rw [h2.1]; rfl
  have htracked (x g : Nat) : GbTracked s2 x g ↔ GbTracked s x g := by rw [h2.1]; rfl
  have hr : ((s.eng c e).release (.gb (fld w.toNat 17 6) (BitVec.ofNat 32 (fld w.toNat 32 32)))).r
    = .gb (fld w.toNat 17 6) (BitVec.ofNat 32 (fld w.toNat 32 32)) := rfl
  subst hv
  refine ⟨?_, fun hw => ?_, fun hw hn => ?_, fun hw hy hne => ?_, fun hw hy heq => ?_⟩
  · rw [State.answering_mem, show t.mem = _ by rw [ht.1], calm_mem hcalm, h2.1]
  · have hv := relPerform_gb_of_wrong hr (by rw [hctx]; exact (hwrong ..).2 hw)
    rw [hctx] at hv
    refine ⟨?_, ?_⟩
    · rw [State.answering_group, group_of_syn htsyn, hv, group_setGroup_same, hgroup]
    · rw [State.answering_rdF, rdF_congr htregs, hv]
      exact (rdF_inc16_same s2 _).trans (by rw [rdF_congr (show s2.regs = s.regs by rw [h2.1])])
  · obtain ⟨hheld, hlen, hgrp⟩ := relPerform_gb_of_untracked hr (by rw [hctx]; exact mt (hwrong ..).1 hw)
      (by rw [hctx]; exact mt (htracked ..).1 hn)
    rw [hctx] at hgrp
    refine ⟨?_, ?_, ?_⟩
    · rw [State.answering_eng, ht.eng, ClEng.acted_gbHeld]; exact hheld
    · rw [State.answering_syn, htsyn, hlen, h2.1]
    · rw [State.answering_group, group_of_syn htsyn, hgrp, hgroup]
  all_goals
    have hw2 : ¬ GbWrong s2 c (s2.eng c e).ctx (fld w.toNat 17 6) (BitVec.ofNat 32 (fld w.toNat 32 32)) := by
      rw [hctx]; exact mt (hwrong ..).1 hw
    have hy2 : GbTracked s2 (s2.eng c e).ctx (fld w.toNat 17 6) := by rw [hctx]; exact (htracked ..).2 hy
    obtain ⟨-, -, hgrp⟩ := gbArriveOp_of_tracked hw2 hy2
    rw [← relPerform_gb_of_tracked hr hw2 hy2, hctx, hgroup] at hgrp
    rw [State.answering_group, group_of_syn htsyn, hgrp]
  · exact if_neg hne
  · exact if_pos heq

/-- Settles O23: a settled release slot performs its operation, and one that is not ready only waits. -/
theorem clauseReleasesArePerformedInOrder : Obligations.ClauseReleasesArePerformedInOrder := by
  unfold Obligations.ClauseReleasesArePerformedInOrder
  refine ⟨fun c e i w s h hs => ?_, fun c e i w s h hs => runs_bwArrive h hs, fun c e i w s h hs => runs_gbArrive h hs, ?_⟩
  · refine runs_of_release (f := fun n => .sig (sConj n) (BitVec.ofNat 32 (sImm n))) rfl h hs fun s2 v t h2 hv ht => ?_
    rw [relPerform_sig rfl, h2.eng] at hv
    have htv : t = { s with cores := t.cores, syn := t.syn } := by rw [ht.1, hv, h2.1]; rfl
    refine ⟨?_, ?_, ?_⟩
    · rw [htv]; rfl
    · rw [State.answering_eng, ht.eng]; simp
    · rw [State.answering_syn, show t.syn = v.syn by rw [ht.1], hv, h2.1]; rfl
  · simp only [List.forall_mem_cons, List.not_mem_nil, false_implies, implies_true, and_true]
    refine ⟨?_, ?_, ?_⟩ <;> intro c i w s h hr hl
    · exact runs_of_held_release (f := fun n => .sig (sConj n) (BitVec.ofNat 32 (sImm n))) rfl h hr hl
    · exact runs_of_held_release (f := fun n => .bw (sBar n)) rfl h hr hl
    · exact runs_of_held_release (f := fun n => .gb (sBar n) (BitVec.ofNat 32 (sImm n))) rfl h hr hl

end Sys2Proof.Machine


/-! # The issue of an execution -/

namespace Sys2Proof.Machine

/-! ## Landing what is due -/

/-- What landings leave of an engine, when they take writes out of flight. -/
def ClEng.course (y : ClEng) : ClEng := { y.bare with inflight := [] }

theorem landUntil_course (s : State) (c : Nat) (e : CE) (t n k : Nat) (z : CE) :
    ((landUntil s c e t n).eng k z).course = (s.eng k z).course := by
  induction n generalizing s with
  | zero => rfl
  | succ n ih =>
    unfold landUntil
    split
    · rfl
    · rename_i l r _
      split
      · rw [ih]
        have h1 := landOne_bare (s.setEng c e { s.eng c e with inflight := r }) c e l k z
        have h2 : ((s.setEng c e { s.eng c e with inflight := r }).eng k z).course = (s.eng k z).course := by
          rw [eng_setEng]
          split
          · rename_i hk; rw [hk.1, hk.2]; rfl
          · rfl
        rw [ClEng.course, h1]
        exact h2
      · rfl

theorem landDue_course (s : State) (c : Nat) (e : CE) (t k : Nat) (z : CE) :
    ((landDue s c e t).eng k z).course = (s.eng k z).course := landUntil_course ..

theorem landDue_issuing (s : State) (c : Nat) (e : CE) (t : Nat) :
    ((landDue s c e t).eng c e).issuing = (s.eng c e).issuing := (congrArg ClEng.issuing (landDue_course s c e t c e) :)

theorem calm_issuing {s t : State} (h : t.calm = s.calm) (k : Nat) (z : CE) : (t.eng k z).issuing = (s.eng k z).issuing :=
  (congrArg ClEng.issuing (calm_eng h k z) :)

/-! ## A hazard parks the engine (R131) -/

theorem setEng_regs (s : State) (c : Nat) (e : CE) (y : ClEng) : (s.setEng c e y).regs = s.regs := rfl

/-- The register that tells of a parked engine's hazard (R131). -/
def hazardInfoA (c : Nat) (e : CE) : Nat := coreA c (match e with | .mx => 0x10 | .tx => 0x50)

theorem park_spec (s : State) (c : Nat) (e : CE) (slot kind res short : Nat) :
    ((park s c e slot kind res short).eng c e).st = .parked ∧
    ((park s c e slot kind res short).eng c e).issuing = (s.eng c e).issuing ∧
    rdF (park s c e slot kind res short) (hazardInfoA c e) 0 3 = slot % 8 := by
  unfold park
  extract_lets s1 s2
  have hs2 : s2 = wr s1 (hazardInfoA c e)
      (BitVec.ofNat 32 (slot + kind * 8 + res * 256 + Nat.min short 0xFFFF * 65536)) := rfl
  have h1 : s1.eng c e = s.eng c e := by
    obtain ⟨g, l, h, hf⟩ := engineFault_eq s (s.eng c e).fn (engRec c e (s.eng c e) { code := 0x12 })
    rw [show s1 = _ from hf]; rfl
  have h2 : s2.eng c e = s1.eng c e := by
    obtain ⟨g, hg⟩ := wr_eq s1 (hazardInfoA c e)
      (BitVec.ofNat 32 (slot + kind * 8 + res * 256 + Nat.min short 0xFFFF * 65536))
    rw [hs2, hg]; rfl
  have hrd : rdF s2 (hazardInfoA c e) 0 3 = slot % 8 := by
    rw [hs2, rdF, rd_wr, if_pos rfl, fld, BitVec.toNat_ofNat, Nat.shiftRight_zero]
    omega
  refine ⟨?_, ?_, ?_⟩
  · rw [eng_setEng, if_pos ⟨rfl, rfl⟩]
  · rw [eng_setEng, if_pos ⟨rfl, rfl⟩]
    exact (congrArg ClEng.issuing (h2.trans h1) :)
  · rw [rdF_congr (setEng_regs ..), hrd]

/-! ## One execution issues -/

theorem noteIssue_eq (s : State) (r : CmdRef) : ∃ m h, noteIssue s r = { s with mon := m, hq := h } := by
  unfold noteIssue
  split
  · split
    · obtain ⟨m, hm⟩ := monSample_eq s false 6 r.fn (s.time - (s.queue r.fn r.q).doorAt)
      rw [hm]
      exact ⟨m, _, rfl⟩
    · exact ⟨_, _, rfl⟩
  · exact ⟨_, _, rfl⟩

/-- An execution with slots issues: the engine holds them, and of memory and the synchronisation unit nothing changes. -/
theorem issueOne_of_slots {s : State} {c : Nat} {e : CE} {k : Clause}
    (hl : actingSlots k (((flush (landDue s c e (issueAt (s.eng c e) k)) c e).eng c e).done + 1 = k.execs) ≠ []) :
    let u := flush (landDue s c e (issueAt (s.eng c e) k)) c e
    (issueOne s c e k).eng c e = issueExec (u.eng c e) k e (actingSlots k ((u.eng c e).done + 1 = k.execs))
      (issueAt (s.eng c e) k) (hwOn u c e) ∧ (issueOne s c e k).mem = u.mem ∧ (issueOne s c e k).syn = u.syn := by
  intro u
  have hne : (actingSlots k ((u.eng c e).done + 1 = k.execs)).isEmpty = false := by simpa [u] using hl
  simp only [issueOne]
  rw [show flush (landDue s c e (issueAt (s.eng c e) k)) c e = u from rfl, hne]
  generalize issueExec (u.eng c e) k e (actingSlots k ((u.eng c e).done + 1 = k.execs)) (issueAt (s.eng c e) k) (hwOn u c e) = y
  obtain ⟨m, h, hn⟩ := noteIssue_eq (u.setEng c e y) (u.eng c e).cmd
  rw [hn]
  obtain ⟨m', hm⟩ := monEvent_eq { u.setEng c e y with mon := m, hq := h } 4 (engId c (CE.eng e)).toNat 1
  rw [hm]
  exact ⟨(engSet_setEng u c e y).eng, rfl, rfl⟩

/-! ## The checks before the first execution -/

section
variable {c : CoreId} {e : CE} {k : Clause} {s : State}

/-- What the first execution's checks find stops the clause. -/
theorem preflight_of_tryExec {x : Stop}
    (h : (tryExec c e k (hwOn s c e) (hwOn s c e && !(s.eng c e).unchecked) (s.setFlt (s.eng c e).fn {})).2 = some x) :
    preflight c e k s = some x := by
  rcases ht : tryExec c e k (hwOn s c e) (hwOn s c e && !(s.eng c e).unchecked) (s.setFlt (s.eng c e).fn {}) with ⟨t, r⟩
  rw [ht] at h
  dsimp only at h
  subst h
  simp only [preflight, Clause.execs, tryClause, ht]

variable (hd : (s.eng c e).done = 0)
include hd

theorem issueAt_setFlt (f : Nat) : issueAt ((s.setFlt f {}).eng c e) k = (s.eng c e).next + k.delay := by
  simp [issueAt, hd]

theorem preflight_of_hazard {slot kind res short : Nat}
    (h : (if hwOn s c e && !(s.eng c e).unchecked then
      let v := landDue (s.setFlt (s.eng c e).fn {}) c e ((s.eng c e).next + k.delay)
      hzCheck (v.eng c e) k e (actingSlots k ((v.eng c e).done + 1 = k.execs)) ((s.eng c e).next + k.delay) else none)
        = some (slot, kind, res, short)) : preflight c e k s = some (.hazard slot kind res short) := by
  refine preflight_of_tryExec ?_
  simp only [tryExec, issueAt_setFlt hd]
  rw [h]

theorem preflight_of_fault {x : XF}
    (hz : (if hwOn s c e && !(s.eng c e).unchecked then
      let v := landDue (s.setFlt (s.eng c e).fn {}) c e ((s.eng c e).next + k.delay)
      hzCheck (v.eng c e) k e (actingSlots k ((v.eng c e).done + 1 = k.execs)) ((s.eng c e).next + k.delay) else none) = none)
    (hx : let v := landDue (s.setFlt (s.eng c e).fn {}) c e ((s.eng c e).next + k.delay)
      firstBad ((actingSlots k ((v.eng c e).done + 1 = k.execs)).map
        (fun p => slotFault v c (v.eng c e) k (slotTy e p.1) p.2)) = some x) : preflight c e k s = some (.fault x) := by
  refine preflight_of_tryExec ?_
  simp only [tryExec, issueAt_setFlt hd]
  rw [hz]
  dsimp only at hx ⊢
  rw [hx]

end

/-- Settles O25: the clause parks, ends or issues as its check says. -/
theorem clauseIssueFollowsSchedule : Obligations.ClauseIssueFollowsSchedule := by
  unfold Obligations.ClauseIssueFollowsSchedule
  intro c e k s hk hlive hck hst hwait hi hfirst y at_ u l stop issued ended parked
  have hexec : exec (.clauseIssue c e) s = match stop with
      | some (.hazard slot kind res short) => done s (park u c e slot kind res short)
      | some (.fault x) => done s (engFail u c e x)
      | none => done s (issueOne s c e k) := by
    have hgo : (!s.clocked || !(s.eng c e).live || (s.eng c e).st != .issuing || !(s.eng c e).waitOk || !(s.eng c e).issuing.isEmpty
        || (decide ((s.eng c e).done = 0) && ((s.eng c e).gbHeld || (s.eng c e).aborting || ((s.eng c e).stopPending && k.stop))))
          = false := by
      by_cases hd : (s.eng c e).done = 0
      · obtain ⟨hg, ha, hs⟩ := hfirst hd
        rcases hs with hs | hs <;> simp [hck, hlive, hst, hwait, hi, hg, ha, hs]
      · simp [hck, hlive, hst, hwait, hi, hd]
    show execClauseIssue c e s = _
    simp only [execClauseIssue, hk, hgo]
    rfl
  have hissuing : (u.eng c e).issuing = [] := by
    rw [calm_issuing (flush_calm ..), landDue_issuing, hi]
  have hruns : Runs (.clauseIssue c e) s (fun t => (stop = none → l ≠ [] → issued t) ∧
      (∀ x, stop = some (.fault x) → ended t x) ∧
      (∀ slot kind res short, stop = some (.hazard slot kind res short) → parked t slot)) := by
    clear_value stop
    rcases stop with _ | ⟨slot, kind, res, short⟩ | x
    · refine runs_of_answering hexec ⟨fun _ hl => ?_, fun _ h => (by cases h), fun _ _ _ _ h => (by cases h)⟩
      obtain ⟨heng, hmem, hsyn⟩ := issueOne_of_slots (s := s) (c := c) (e := e) (k := k) hl
      refine ⟨?_, ?_, ?_, ?_, hmem, hsyn⟩ <;> rw [State.answering_eng, heng] <;> rfl
    · obtain ⟨h1, h2, h3⟩ := park_spec u c e slot kind res short
      exact runs_of_answering hexec ⟨fun h => (by cases h), fun _ h => (by cases h),
        fun _ _ _ _ h => (by cases h; exact ⟨h1, h2.trans hissuing, h3⟩)⟩
    · exact runs_of_answering hexec ⟨fun h => (by cases h),
        fun _ h => (by cases h; exact ⟨by simp [ClEng.faulted], by simp [ClEng.faulted], by simp [ClEng.faulted]⟩),
        fun _ _ _ _ h => (by cases h)⟩
  obtain ⟨t, ht, hissued, hended, hparked⟩ := hruns
  refine ⟨t, ht, hissued, hended, hparked, fun hd => ?_⟩
  have hat : at_ = (s.eng c e).next + k.delay := if_pos hd
  have hstop : stop = preflight c e k s := if_pos hd
  rw [hat]
  refine ⟨fun slot kind res short hz => ?_, fun x hz hx => ?_⟩
  · exact hparked slot kind res short (hstop.trans (preflight_of_hazard hd hz))
  · exact hended x (hstop.trans (preflight_of_fault hd hz hx))

end Sys2Proof.Machine

/-! # What a change of slices leaves unchanged (R305 to R311)

A grant, a takeover or a change of activity touches the scheduler's records and the trackers, and of the cores the
gleaning windows and what an engine has been asked: to stop, and since when. `State.sliced` keeps all the rest. -/

namespace Sys2Proof.Machine

/-- A clause engine without what a preemption request writes; an idle engine is asked nothing. -/
def ClEng.unasked (y : ClEng) : ClEng := if y.busy then { y with stopPending := false, stopReqAt := 0 } else y

/-- A gleaning pass without what a preemption request writes. -/
def GlWin.unasked (w : GlWin) : GlWin := { w with stop := false, stopAt := 0 }

/-- A core without its gleaning windows and what a preemption request writes. -/
def Core.unasked (x : Core) : Core :=
  { x with mx := x.mx.unasked, tx := x.tx.unasked, te := { x.te with stopPending := false },
           glPass := x.glPass.map GlWin.unasked, glean := [], glQueue := [] }

/-- The state without the scheduler's records and the trackers, and each core without what a preemption request writes. -/
def State.sliced (s : State) : State × (Nat → Core) :=
  ({ s with cores := {}, sch := {}, syn := { s.syn with trackers := {} } }, fun n => (s.core n).unasked)

theorem setCore_sliced (s : State) (c : Nat) (x : Core) (h : x.unasked = (s.core c).unasked) :
    (s.setCore c x).sliced = s.sliced := by
  refine Prod.ext rfl (funext fun n => ?_)
  by_cases hn : n = c
  · subst hn
    simp [State.sliced, h]
  · simp [State.sliced, hn]

theorem closeWindows_sliced (s : State) (p f : Nat) : (closeWindows s p f).sliced = s.sliced :=
  foldl_keeps State.sliced _ _ _ (fun t c => setCore_sliced t c _ (by rfl))

theorem endSlice_sliced (s : State) (p : Nat) : (endSlice s p).sliced = s.sliced := by
  unfold endSlice
  split
  · exact closeWindows_sliced ..
  · rfl

theorem ClEng.unasked_ask (y : ClEng) (b : Bool) (n : Nat) :
    (if y.busy && b then { y with stopPending := true, stopReqAt := n } else y).unasked = y.unasked := by
  cases hb : y.busy <;> cases b <;> simp_all [ClEng.unasked, ClEng.busy]

theorem preemptFn_sliced (s : State) (p f : Nat) : (preemptFn s p f).sliced = s.sliced := by
  refine foldl_keeps State.sliced _ _ _ (fun t c => setCore_sliced t c _ ?_)
  have hte : ({ (if (t.core c).te.owner == some f then { (t.core c).te with stopPending := true } else (t.core c).te)
      with stopPending := false } : Te) = { (t.core c).te with stopPending := false } := by split <;> rfl
  have hgl (g : Option GlWin) (n : Nat) :
      (g.map (fun w => if w.fn = f ∧ !w.stop then { w with stop := true, stopAt := n } else w)).map GlWin.unasked
        = g.map GlWin.unasked := by
    cases g with
    | none => rfl
    | some w => simp only [Option.map_some]; split <;> rfl
  simp only [Core.unasked, hte, hgl, Bool.and_assoc, ClEng.unasked_ask]

theorem reloadTrackers_sliced (s : State) (p : Nat) (ok : Nat → Bool) : (reloadTrackers s p ok).sliced = s.sliced := by
  refine foldl_keeps State.sliced _ _ _ (fun t e => ?_)
  dsimp only
  repeat' split
  all_goals rfl

theorem switchTrackers_sliced (s : State) (p f : Nat) : (switchTrackers s p f).sliced = s.sliced := by
  unfold switchTrackers
  dsimp only
  rw [reloadTrackers_sliced]
  refine upTo_keeps State.sliced 64 s (fun t k =>
    let x := t.syn.trackers.get {} k
    if x.busy && x.part == p && (t.ctx x.ctx).fn != f then setTracker t k {} else t) (fun t k => ?_)
  dsimp only
  split <;> rfl

theorem grantTo_sliced (s : State) (p f : Nat) : (grantTo s p f).sliced = s.sliced := by
  have h : (endSlice (s.setFnS f { s.fnS f with slices := (s.fnS f).slices + 1 }) p).sliced = s.sliced :=
    endSlice_sliced ..
  unfold grantTo
  dsimp only at h ⊢
  generalize endSlice _ p = s1 at h ⊢
  split
  · split
    · exact h
    · exact (preemptFn_sliced ..).trans h
  · split
    · exact h
    · exact (switchTrackers_sliced ..).trans h

theorem grantBest_sliced (s : State) (p : Nat) : (grantBest s p).sliced = s.sliced := by
  unfold grantBest
  repeat' split
  · rfl
  · exact grantTo_sliced ..
  · exact endSlice_sliced s p

theorem takeOver_sliced (s : State) (p f : Nat) : (takeOver s p f).sliced = s.sliced := grantTo_sliced ..

theorem refresh_sliced (s : State) (f : Nat) : (refresh s f).sliced = s.sliced := by
  unfold refresh
  extract_lets now old p z s1
  have h1 : s1.sliced = s.sliced := rfl
  clear_value s1
  repeat' split
  · exact (grantBest_sliced ..).trans h1
  · exact h1
  · exact (takeOver_sliced ..).trans h1
  · exact h1
  · exact h1

section
variable {s t : State}

theorem sliced_core (h : t.sliced = s.sliced) (c : Nat) : (t.core c).unasked = (s.core c).unasked :=
  congrFun (congrArg Prod.snd h) c

theorem sliced_mem (h : t.sliced = s.sliced) : t.mem = s.mem := (congrArg (fun p => p.1.mem) h :)

theorem sliced_hq (h : t.sliced = s.sliced) : t.hq = s.hq := (congrArg (fun p => p.1.hq) h :)

theorem sliced_syn (h : t.sliced = s.sliced) : t.syn = { s.syn with trackers := t.syn.trackers } := by
  have hsyn : ({ t.syn with trackers := {} } : Syn) = { s.syn with trackers := {} } := congrArg (fun p => p.1.syn) h
  exact (congrArg (fun y : Syn => { y with trackers := t.syn.trackers }) hsyn :)

theorem sliced_bufs (h : t.sliced = s.sliced) (c : Nat) : (t.core c).bufs = (s.core c).bufs :=
  (congrArg Core.bufs (sliced_core h c) :)

theorem sliced_heldRows (h : t.sliced = s.sliced) (c : Nat) : (t.core c).heldRows = (s.core c).heldRows :=
  (congrArg Core.heldRows (sliced_core h c) :)

theorem sliced_banks (h : t.sliced = s.sliced) (c : Nat) : (t.core c).banks = (s.core c).banks :=
  (congrArg Core.banks (sliced_core h c) :)

theorem sliced_eng (h : t.sliced = s.sliced) (c : Nat) (e : CE) : (t.eng c e).unasked = (s.eng c e).unasked := by
  cases e with
  | mx => exact (congrArg Core.mx (sliced_core h c) :)
  | tx => exact (congrArg Core.tx (sliced_core h c) :)

end

/-- What a preemption request does not write of a busy engine is kept, whether the engine stays busy or not. -/
theorem ClEng.eq_of_unasked {y z : ClEng} (h : y.unasked = z.unasked) :
    y = { z with stopPending := y.stopPending, stopReqAt := y.stopReqAt } := by
  unfold ClEng.unasked at h
  cases y; cases z
  grind

/-- An engine that was idle is the same. -/
theorem ClEng.eq_of_unasked_idle {y z : ClEng} (hz : z.busy = false) (h : y.unasked = z.unasked) : y = z := by
  have hb : y.busy = false := by rw [← hz]; exact (congrArg ClEng.busy (ClEng.eq_of_unasked h) :)
  simpa [ClEng.unasked, hb, hz] using h

end Sys2Proof.Machine

/-! # The ends of a stream (R105, R124 to R131, R154) -/

namespace Sys2Proof.Machine

/-- A record of another kind than BEGIN leaves the queues. -/
theorem trcEng_eq_of_ne {kind : Nat} (hk : kind ≠ 1) (s : State) (c : Nat) (e : Eng) (ctx : Nat) (r : CmdRef) (tag : W16)
    (outcome : Nat) : ∃ m t, trcEng s kind c e ctx r tag outcome = { s with mon := m, trc := t } := by
  unfold trcEng
  dsimp only
  rw [if_neg hk]
  exact trcIf_eq ..

/-! ## STREAM_END -/

section
variable {s : State} {c : Nat} {e : CE}

theorem clearEng_eng (s : State) (c : Nat) (e : CE) : (clearEng s c e).eng c e = {} := by
  cases e <;> simp [clearEng, eng_eq, Core.eng]

theorem clearEng_mx (s : State) (c : Nat) : ((clearEng s c .mx).core c).bufs = {} ∧
    ((clearEng s c .mx).core c).heldRows = {} ∧ ((clearEng s c .mx).core c).banks = {} := by
  simp [clearEng]

theorem clearEng_eq (s : State) (c : Nat) (e : CE) : clearEng s c e = { s with cores := (clearEng s c e).cores } := by
  cases e <;> rfl

/-- A stream with nothing left to do ends: its command has ended on this core and its engine is cleared. -/
theorem execStreamEnd_of_settled {c : CoreId} (hclk : s.clocked = true) (hfin : (s.eng c e).finished = true)
    (hf : (s.eng c e).faultCause = none) (ha : (s.eng c e).aborting = false) (hs : s.settled c e) :
    ∃ s3, s3.mem = s.mem ∧ s3.syn = s.syn ∧ s3.hq = s.hq ∧
      execStreamEnd c e s = done s (refresh (clearEng (cmdEnd s3 (s.eng c e).cmd c) c e) (s.eng c e).fn) := by
  obtain ⟨hr, hl, hg, -, hx⟩ := hs
  have hflush : flush s c e = s.setEng c e { s.eng c e with releases := [] } := by rw [flush, hr]; rfl
  have h1 := engSet_setEng s c e { s.eng c e with releases := [] }
  rw [← hflush] at h1
  have hno : (e == .tx && (s.core c).xfers.any (fun x => x.cmd == (s.eng c e).cmd)) = false := by
    cases e with
    | mx => rfl
    | tx => simpa using hx rfl
  have hsyn : (flush s c e).syn = s.syn := (congrArg State.syn h1.1 :)
  have hmem : (flush s c e).mem = s.mem := (congrArg State.mem h1.1 :)
  have hhq : (flush s c e).hq = s.hq := (congrArg State.hq h1.1 :)
  unfold execStreamEnd
  simp only [hclk, hfin, hl, hno, hf, ha, h1.eng, hg, Bool.not_true, Bool.not_false, List.isEmpty_nil, Bool.or_false,
    Option.isSome_none, Bool.false_eq_true, if_false, Bool.and_self]
  generalize ht : trcEng (flush s c e) 2 c _ _ _ _ _ = s2
  obtain ⟨m, tr, h2⟩ := trcEng_eq_of_ne (kind := 2) (by decide) (flush s c e) c _ _ _ _ _
  obtain rfl := ht.symm.trans h2
  refine ⟨?s3, ?mem, ?syn, ?hq, ?eq⟩
  case eq => rfl
  case mem => exact hmem
  case syn => exact hsyn
  case hq => exact hhq

/-- The commands of a queue after `r` has ended on core `c`. -/
theorem cmdEnd_cmds (s : State) (r : CmdRef) (c : Nat) :
    ((cmdEnd s r c).queue r.fn r.q).cmds = (s.queue r.fn r.q).cmds.map (fun k => if r.hits k then
      { k with toEnd := k.toEnd.filter (fun n => n != c),
               ready := k.ready || (k.started && (k.toEnd.filter (fun n => n != c)).isEmpty && k.toStart.isEmpty) }
      else k) := by
  unfold cmdEnd modCmd
  rw [queue_setQueue_same]

theorem runs_streamEnd {c : CoreId} (hclk : s.clocked = true) (hfin : (s.eng c e).finished = true)
    (hf : (s.eng c e).faultCause = none) (ha : (s.eng c e).aborting = false) (hs : s.settled c e) :
    Runs (.streamEnd c e) s (fun t =>
      let r := (s.eng c e).cmd
      t.eng c e = {} ∧ t.mem = s.mem ∧ t.syn = { s.syn with trackers := t.syn.trackers } ∧
      (e = .mx → (t.core c).bufs = {} ∧ (t.core c).heldRows = {} ∧ (t.core c).banks = {}) ∧
      (t.queue r.fn r.q).cmds = (s.queue r.fn r.q).cmds.map (fun k => if r.hits k then
        { k with toEnd := k.toEnd.filter (fun n => n != c.val),
                 ready := k.ready || (k.started && (k.toEnd.filter (fun n => n != c.val)).isEmpty && k.toStart.isEmpty) }
        else k)) := by
  obtain ⟨s3, hmem, hsyn, hhq, hrun⟩ := execStreamEnd_of_settled hclk hfin hf ha hs
  refine runs_of_answering (i := .streamEnd c e) hrun ?_
  have hsl := refresh_sliced (clearEng (cmdEnd s3 (s.eng c e).cmd c) c e) (s.eng c e).fn
  have hq3 (f q : Nat) : s3.queue f q = s.queue f q := by simp only [State.queue, hhq]
  refine ⟨?_, ?_, ?_, ?_, ?_⟩
  · have he := clearEng_eng (cmdEnd s3 (s.eng c e).cmd c) c e
    have hsl := sliced_eng hsl c e
    rw [he] at hsl
    exact ClEng.eq_of_unasked_idle rfl hsl
  · exact (sliced_mem hsl).trans ((congrArg State.mem (clearEng_eq ..)).trans hmem)
  · have hc : (clearEng (cmdEnd s3 (s.eng c e).cmd c) c e).syn = s.syn :=
      (congrArg State.syn (clearEng_eq ..) :).trans hsyn
    have hsl := sliced_syn hsl
    rw [hc] at hsl
    exact hsl
  · rintro rfl
    obtain ⟨hb, hh, hk⟩ := clearEng_mx (cmdEnd s3 (s.eng c .mx).cmd c) c
    exact ⟨(sliced_bufs hsl c).trans hb, (sliced_heldRows hsl c).trans hh, (sliced_banks hsl c).trans hk⟩
  · have hc : (clearEng (cmdEnd s3 (s.eng c e).cmd c) c e).hq = (cmdEnd s3 (s.eng c e).cmd c).hq :=
      (congrArg State.hq (clearEng_eq ..) :)
    have hq (f q : Nat) : (refresh (clearEng (cmdEnd s3 (s.eng c e).cmd c) c e) (s.eng c e).fn).queue f q
        = (cmdEnd s3 (s.eng c e).cmd c).queue f q := by
      simp only [State.queue, sliced_hq hsl, hc]
    simp only [State.answering_queue, hq, cmdEnd_cmds, hq3]
end

/-! ## STOP_POINT_REACHED -/

section
variable {s : State} {c : Nat} {e : CE}

theorem landAll_inflight (s : State) (c : Nat) (e : CE) : ((landAll s c e).eng c e).inflight = [] :=
  (foldl_keeps (fun t : State => (t.eng c e).inflight) _ _ _ fun t x => landOne_inflight t c e x).trans (by simp)

@[simp] theorem dropWaiter_eng (k : Nat) (z : CE) : (dropWaiter s c e).eng k z = s.eng k z := rfl

theorem dropWaiter_waiters : ∀ x ∈ (dropWaiter s c e).syn.waiters, x.eng ≠ engId c (CE.eng e) :=
  fun _ h => by simpa using (List.mem_filter.1 h).2

theorem takeBackGb_eng : ∃ l, (takeBackGb s c e).eng c e = { s.eng c e with gbHeld := false, releases := l } :=
  ⟨_, by rw [takeBackGb, eng_setEng, if_pos ⟨rfl, rfl⟩]⟩

@[simp] theorem dropDead_eng (live : Nat) : (dropDead s c live).eng c e = s.eng c e := by
  cases e <;> simp [dropDead, eng_eq, Core.eng]

theorem dropDead_banks (live b : Nat) (h : bit live b = false) : ((dropDead s c live).core c).banks.get {} b = {} := by
  simp only [dropDead, core_setCore, if_true, Tbl.get, look_filter_key, h]
  rfl

/-- The engine of a stream that stands before clause `k`. -/
def ClEng.stoppedAt (y : ClEng) (k : Clause) : ClEng :=
  { y with stopped := true, accLive := k.accLive, clause := none, waitOk := false, waiting := none, pc := k.addr, st := .issuing }

/-- What a stream leaves behind at a stop point: its waits, its arrivals and, on an MX, what `live` does not name. -/
def leaveBehind (s : State) (c : Nat) (e : CE) (live : Nat) : State :=
  let t := takeBackGb (dropWaiter s c e) c e
  match e with | .mx => dropDead t c live | .tx => t

theorem leaveBehind_eng (live : Nat) :
    ∃ l, (leaveBehind s c e live).eng c e = { s.eng c e with gbHeld := false, releases := l } := by
  obtain ⟨l, hy⟩ := takeBackGb_eng (s := dropWaiter s c e) (c := c) (e := e)
  refine ⟨l, ?_⟩
  cases e with
  | mx => exact (dropDead_eng live).trans hy
  | tx => exact hy

theorem leaveBehind_waiters (live : Nat) : ∀ x ∈ (leaveBehind s c e live).syn.waiters, x.eng ≠ engId c (CE.eng e) := by
  cases e <;> exact dropWaiter_waiters

theorem leaveBehind_mx (live : Nat) : ((leaveBehind s c .mx live).core c).bufs = {} ∧
    ((leaveBehind s c .mx live).core c).heldRows = {} ∧
    ∀ b, bit live b = false → ((leaveBehind s c .mx live).core c).banks.get {} b = {} :=
  ⟨by simp [leaveBehind, dropDead], by simp [leaveBehind, dropDead], fun b hb => dropDead_banks live b hb⟩

/-- The stream of an engine stands before its clause `k`. -/
theorem streamStop_spec (k : Clause) : let t := streamStop s c e k
    (t.eng c e).stopped = true ∧ (t.eng c e).pc = k.addr ∧ (t.eng c e).inflight = [] ∧ (t.eng c e).clause = none ∧
    (t.eng c e).gbHeld = false ∧ (t.eng c e).accLive = k.accLive ∧
    (∀ x ∈ t.syn.waiters, x.eng ≠ engId c (CE.eng e)) ∧
    (e = .mx → (t.core c).bufs = {} ∧ (t.core c).heldRows = {} ∧
      ∀ b, bit k.accLive b = false → (t.core c).banks.get {} b = {}) := by
  intro t
  let u := flush (landAll s c e) c e
  have hin : (u.eng c e).inflight = [] := (calm_inflight (flush_calm (landAll s c e) c e) c e).trans (landAll_inflight ..)
  obtain ⟨l, hy⟩ := leaveBehind_eng (s := u) (c := c) (e := e) k.accLive
  have ht : EngSet (leaveBehind u c e k.accLive) t c e (((leaveBehind u c e k.accLive).eng c e).stoppedAt k) := engSet_setEng ..
  rw [hy] at ht
  have hcore := ht.2.1
  clear_value t u
  refine ⟨?_, ?_, ?_, ?_, ?_, ?_, fun x hx => ?_, ?_⟩
  · rw [ht.eng]; rfl
  · rw [ht.eng]; rfl
  · rw [ht.eng]; exact hin
  · rw [ht.eng]; rfl
  · rw [ht.eng]; rfl
  · rw [ht.eng]; rfl
  · rw [ht.1] at hx
    exact leaveBehind_waiters _ x hx
  · rintro rfl
    simp only [hcore, Core.setEng_bufs, Core.setEng_heldRows, Core.setEng_banks]
    exact leaveBehind_mx k.accLive

theorem exec_stopPointReached_of_stream {c : CoreId} {k : Clause} (hclk : s.clocked = true) (hk : (s.eng c e).clause = some k)
    (hl : (s.eng c e).live = true) (hp : (s.eng c e).stopPending = true) (hst : k.stop = true)
    (hb : (s.eng c e).between = true) (ha : (s.eng c e).aborting = false) (hg : e = .mx → (s.core c).glPass = none) :
    exec (.stopPointReached c e) s = done s (streamStop s c e k) := by
  have hno : (if e = .mx then (s.core c).glPass else none) = none := by
    split <;> rename_i he
    · exact hg he
    · rfl
  show execStopPointReached c e s = _
  simp [execStopPointReached, hno, hk, hclk, hl, hp, hst, hb, ha]

end

/-- A gleaning pass that was asked to stop runs to the next stop point. -/
theorem exec_stopPointReached_of_pass {s u : State} {c : CoreId} {w v : GlWin} (hclk : s.clocked = true)
    (hg : (s.core c).glPass = some w) (hst : w.stop = true) (hno : w.stopped = false) (hsum : w.summed = false)
    (hrun : glRun c (w.stepsFor w.begun) s w = (u, .inl v)) :
    exec (.stopPointReached c .mx) s
      = done s (u.setCore c { u.core c with glPass := some { v with stopped := !v.summed } }) := by
  show execStopPointReached c .mx s = _
  simp [execStopPointReached, passStop, hg, hclk, hst, hno, hsum, hrun]

/-! ## STOP_TIMEOUT -/

theorem msix_rd {s : State} {f v a : Nat} (ha : a < 0x40000000) : rd (msix s f v) a = rd s a := by
  unfold msix
  split
  · exact rd_wrF_other _ _ _ _ _ _ (by unfold fpA; omega)
  · rfl

theorem fnNew_rd {s : State} {f a : Nat} (r : FltRec) (ha : a < 0x40000000) : rd (fnNew s f r) a = rd s a := by
  unfold fnNew
  dsimp only
  split
  · exact rd_inc16_other _ _ _ (by unfold fpA; omega)
  · split
    · exact msix_rd ha
    · rfl

/-- A fault that is no TRANSLATION writes none of the chip's own registers. -/
theorem engineFault_rd {s : State} {f a : Nat} {r : FltRec} (hr : r.code ≠ 0x02) (ha : a < 0x40000000) :
    rd (engineFault s f r) a = rd s a := by
  unfold engineFault
  dsimp only
  rw [if_neg hr, fnNew_rd r ha]
  exact rd_inc16_other _ _ _ (by unfold fnErrA fpA; omega)

theorem engFail_rd {s : State} {c a : Nat} {e : CE} {x : XF} (hx : x.code ≠ 0x02) (ha : a < 0x40000000) :
    rd (engFail s c e x) a = rd s a := by
  unfold engFail
  rw [rd, endOnFault_regs]
  exact engineFault_rd (r := engRec c e (s.eng c e) x) hx ha

/-- The register that counts an engine's missed stop points (R128). -/
def stopMissA (c : Nat) (e : CE) : Nat := coreA c (match e with | .mx => 0x14 | .tx => 0x54)

theorem stopMissA_lt (c : CoreId) (e : CE) : stopMissA c e < 0x40000000 := by
  have hc := c.isLt
  unfold stopMissA coreA
  cases e <;> dsimp only <;> omega

theorem exec_stopTimeout {s : State} {c : CoreId} {e : CE} (hclk : s.clocked = true) (hl : (s.eng c e).live = true)
    (hp : (s.eng c e).stopPending = true) (hlate : (s.eng c e).stopReqAt + 16384 ≤ (s.core c).cycles) :
    exec (.stopTimeout c e) s = done s (engFail (inc16 s (stopMissA c e)) c e { code := 0x11 }) := by
  have hdec : decide (16384 ≤ (s.core c).cycles - (s.eng c e).stopReqAt) = true := decide_eq_true (by omega)
  show execStopTimeout c e s = _
  unfold execStopTimeout
  simp only [hclk, hl, hp, hdec, Bool.and_self, if_true]
  rfl

theorem runs_stopTimeout {s : State} {c : CoreId} {e : CE} (hclk : s.clocked = true) (hl : (s.eng c e).live = true)
    (hp : (s.eng c e).stopPending = true) (hlate : (s.eng c e).stopReqAt + 16384 ≤ (s.core c).cycles) :
    Runs (.stopTimeout c e) s (fun t =>
      (t.eng c e).faultCause = some 0x11 ∧ (t.eng c e).clause = none ∧
      rdF t (stopMissA c e) 0 16 = Nat.min (rdF s (stopMissA c e) 0 16 + 1) 0xFFFF ∧ t.mem = s.mem) := by
  have hcount := rdF_inc16_same s (stopMissA c e)
  obtain ⟨g, hg, -⟩ := inc16_eq s (stopMissA c e)
  have hex := exec_stopTimeout hclk hl hp hlate
  rw [hg] at hex hcount
  refine runs_of_answering hex ⟨by simp [ClEng.faulted], by simp [ClEng.faulted], ?_, by simp⟩
  rw [State.answering_rdF, rdF, engFail_rd (by decide) (stopMissA_lt c e)]
  exact hcount

/-! ## HAZARD_RESUME and HAZARD_KILL -/

/-- A parked engine that goes on; what it was parked of a preemption request does not count. -/
def ClEng.resumed (y : ClEng) (cycles : Nat) : ClEng :=
  { y with st := .issuing, unchecked := true, stopReqAt := y.stopReqAt + (cycles - Nat.max y.parkedAt y.stopReqAt) }

theorem exec_hazardResume {s : State} {c : CoreId} {e : CE} (h : (s.eng c e).st = .parked) :
    exec (.hazardResume c e) s = done s (s.setEng c e ((s.eng c e).resumed (s.core c).cycles)) := by
  show execHazardResume c e s = _
  unfold execHazardResume hazardResumeOp
  dsimp only
  rw [if_pos h]
  rfl

theorem exec_hazardKill {s : State} {c : CoreId} {e : CE} (h : (s.eng c e).st = .parked) :
    exec (.hazardKill c e) s = done s (endOnFault s c e 0x12) := by
  show execHazardKill c e s = _
  unfold execHazardKill hazardKillOp
  rw [if_pos h]

/-- Settles O26: each row by its own rule, as this file states them. -/
theorem streamStopsAndEnds : Obligations.StreamStopsAndEnds := by
  unfold Obligations.StreamStopsAndEnds
  refine ⟨?_, ?_, ?_, ?_, ?_, ?_⟩
  · exact fun _ _ _ hclk hfin hf ha hs => runs_streamEnd hclk hfin hf ha hs
  · exact fun _ _ k _ hclk hk hl hp hst hb ha hg =>
      runs_of_answering (exec_stopPointReached_of_stream hclk hk hl hp hst hb ha hg) (streamStop_spec k)
  · exact fun c _ v u _ hclk hg hst hno hsum hrun =>
      runs_of_answering (exec_stopPointReached_of_pass hclk hg hst hno hsum hrun) ⟨by simp, rfl⟩
  · exact fun _ _ _ hclk hl hp hlate => runs_stopTimeout hclk hl hp hlate
  · intro c e s h
    have hset := engSet_setEng s c e ((s.eng c e).resumed (s.core c).cycles)
    have heng : (s.setEng c e ((s.eng c e).resumed (s.core c).cycles)).ticked.eng c e = _ := hset.eng
    exact ⟨_, (exec_hazardResume h).trans hset.done, hset.onlyEngine, by rw [heng]; exact ⟨rfl, rfl, rfl, rfl⟩⟩
  · intro c e s h
    exact runs_of_answering (exec_hazardKill h) ⟨rfl, by simp [ClEng.faulted], by simp [ClEng.faulted]⟩

end Sys2Proof.Machine

/-! # Copies of stopped work, and their write-out (R124, R154, R180, R313) -/

namespace Sys2Proof.Machine

/-! ## Tables filled from a list -/

/-- The value found at a key that a filter keeps is found after it too. -/
theorem look_filter_of_look {α : Type} {l : List (Nat × α)} {f : Nat × α → Bool} {k : Nat} {x : α} (h : look l k = some x)
    (hf : f (k, x) = true) : look (l.filter f) k = some x := by
  induction l with
  | nil => cases h
  | cons p r ih =>
    obtain ⟨a, y⟩ := p
    by_cases hk : k = a
    · subst hk
      simp only [look, if_true, Option.some.injEq] at h
      simp [h, hf, look]
    · simp only [look, if_neg hk] at h
      rw [List.filter_cons]
      split
      · simp only [look, if_neg hk, ih h]
      · exact ih h

section
variable {α β : Type} [DecidableEq β] {d : β} {g : α → β} {k : Nat}

theorem get_foldl_put_of_absent (l : List (Nat × α)) (t : Tbl β) (h : ∀ e ∈ l, e.1 ≠ k) :
    (l.foldl (fun p e => p.put d e.1 (g e.2)) t).get d k = t.get d k := by
  induction l generalizing t with
  | nil => rfl
  | cons e r ih =>
    rw [List.foldl_cons, ih _ fun e' he => h e' (List.mem_cons_of_mem _ he)]
    exact Tbl.get_put_other _ _ _ _ _ (h e List.mem_cons_self).symm

/-- A table filled from a list in rising key order has at a key what the list has. -/
theorem get_foldl_put_of_look {l : List (Nat × α)} {x : α} (t : Tbl β) (hr : rising l = true) (h : look l k = some x) :
    (l.foldl (fun p e => p.put d e.1 (g e.2)) t).get d k = g x := by
  induction l generalizing t with
  | nil => cases h
  | cons e r ih =>
    obtain ⟨a, y⟩ := e
    obtain ⟨hlt, hr⟩ := (rising_cons a y r).1 hr
    by_cases hk : k = a
    · subst hk
      simp only [look, if_true, Option.some.injEq] at h
      rw [List.foldl_cons, get_foldl_put_of_absent _ _ fun e he => Nat.ne_of_gt (hlt e he), Tbl.get_put_same, h]
    · simp only [look, if_neg hk] at h
      exact ih _ hr h

end

/-! ## The count of a preemption -/

/-- `t` is `s` in all that neither a counted preemption of function `f` nor a record of it touches. -/
structure Preempted (s t : State) (f : Nat) : Prop where
  cores : t.cores = s.cores
  mem : t.mem = s.mem
  syn : t.syn = s.syn
  hq : t.hq = s.hq
  counted : (t.fnS f).preempted = (s.fnS f).preempted + 1

theorem preempted_countPreempt (s : State) (c f : Nat) : Preempted s (countPreempt s c f) f := by
  obtain ⟨m, hm⟩ := monEvent_eq s 16 c 1
  obtain ⟨g, hg, -⟩ := inc32_eq { s with mon := m } (coreA c 0x804) 1
  unfold countPreempt
  rw [hm, hg]
  exact ⟨rfl, rfl, rfl, rfl, by rw [fnS_setFnS, if_pos rfl]; rfl⟩

theorem Preempted.afterRecord {s t : State} {f kind : Nat} (h : Preempted s t f) (hk : kind ≠ 1) (c : Nat) (e : Eng) (ctx : Nat)
    (r : CmdRef) (tag : W16) (o : Nat) : Preempted s (trcEng t kind c e ctx r tag o) f := by
  obtain ⟨m, x, ht⟩ := trcEng_eq_of_ne hk t c e ctx r tag o
  rw [ht]
  exact ⟨h.cores, h.mem, h.syn, h.hq, h.counted⟩

theorem Preempted.core {s t : State} {f : Nat} (h : Preempted s t f) (c : Nat) : t.core c = s.core c := by
  simp only [State.core, h.cores]

/-! ## Clause streams -/

/-- The copy of the stopped stream of engine `e` of core `x`. -/
def Core.streamCopy (x : Core) (e : CE) : StreamSave :=
  { e := e, eng := { x.eng e with stopped := false, stopPending := false }, banks := if e = .mx then x.banks else {}
    bytes := Nat.min (streamBytes e (x.eng e)) preSize, stamp := x.preNext }

section
variable {s : State} {c : Nat} {e : CE}

/-- A stopped stream that is not being aborted and has room is in the buffer, and its engine is free. -/
theorem copyStream_spec (hst : (s.eng c e).stopped = true) (ha : (s.eng c e).aborting = false)
    (hroom : preRoom (s.core c) (streamBytes e (s.eng c e)) = true) :
    let s1 := clearEng (s.setCore c { s.core c with
      streams := (s.core c).streams ++ [(s.core c).streamCopy e], preNext := (s.core c).preNext + 1 }) c e
    Preempted s1 (copyStream s c e) (s.eng c e).fn := by
  rw [eng_eq] at hst ha hroom ⊢
  unfold copyStream
  dsimp only
  rw [if_neg (by simp [hst]), if_neg (by simp [ha]), if_neg (by simp [hroom])]
  exact (preempted_countPreempt ..).afterRecord (by decide) ..

theorem clearEng_streams (s : State) (c : Nat) (e : CE) : ((clearEng s c e).core c).streams = (s.core c).streams := by
  cases e <;> simp [clearEng]

theorem exec_preemptCopyDone_of_stream {c : CoreId} (hg : e = .mx → (s.core c).glPass = none) :
    exec (.preemptCopyDone c (CE.eng e)) s = done s (copyStream s c e) := by
  cases e with
  | tx => rfl
  | mx =>
    show execPreemptCopyDone c .mx s = _
    simp [execPreemptCopyDone, hg rfl]

theorem runs_preemptCopyDone_of_stream {c : CoreId} (hst : (s.eng c e).stopped = true) (ha : (s.eng c e).aborting = false)
    (hroom : preRoom (s.core c) (streamBytes e (s.eng c e)) = true) (hg : e = .mx → (s.core c).glPass = none) :
    Runs (.preemptCopyDone c (CE.eng e)) s (fun t =>
      t.eng c e = {} ∧ t.mem = s.mem ∧ t.syn = s.syn ∧ t.hq = s.hq ∧
      (t.fnS (s.eng c e).fn).preempted = (s.fnS (s.eng c e).fn).preempted + 1 ∧
      ∃ v : StreamSave, (t.core c).streams = (s.core c).streams ++ [v] ∧ v.e = e ∧
        v.eng = { s.eng c e with stopped := false, stopPending := false } ∧ (e = .mx → v.banks = (s.core c).banks)) := by
  have h := copyStream_spec hst ha hroom
  let s0 := s.setCore c { s.core c with
    streams := (s.core c).streams ++ [(s.core c).streamCopy e], preNext := (s.core c).preNext + 1 }
  have hs0 : (s0.core c).streams = (s.core c).streams ++ [(s.core c).streamCopy e] := by simp [s0]
  have hcl := clearEng_eq s0 c e
  refine runs_of_answering (exec_preemptCopyDone_of_stream hg) ⟨?_, ?_, ?_, ?_, ?_, (s.core c).streamCopy e, ?_, rfl, ?_, ?_⟩
  · rw [State.answering_eng, eng_eq, h.core, ← eng_eq]
    exact clearEng_eng ..
  · exact h.mem.trans (congrArg State.mem hcl :)
  · exact h.syn.trans (congrArg State.syn hcl :)
  · exact h.hq.trans (congrArg State.hq hcl :)
  · exact h.counted.trans (congrArg (fun t : State => (t.fnS (s.eng c e).fn).preempted + 1) hcl :)
  · rw [State.answering_core, h.core]
    exact (clearEng_streams s0 c e).trans hs0
  · rw [eng_eq]; rfl
  · rintro rfl; rfl

end

/-! ## Gleaning passes -/

/-- The copy of the stopped pass `w` of core `x`. -/
def Core.passCopy (x : Core) (w : GlWin) : GlWin := { w with stop := false, bytes := passBytes w, stamp := x.preNext }

section
variable {s : State} {c : CoreId} {w : GlWin}

/-- The SAVE records of a pass's requests. -/
theorem Preempted.saveRecords {s t : State} {f : Nat} (h : Preempted s t f) (c ctx : Nat) (l : List GlReq) :
    Preempted s (l.foldl (fun t r => trcEng t 3 c .mx ctx r.cmd (tagOf t r.cmd) 0) t) f := by
  induction l generalizing t with
  | nil => exact h
  | cons r l ih => exact ih (h.afterRecord (by decide) ..)

theorem exec_preemptCopyDone_of_pass (hw : (s.core c).glPass = some w) :
    exec (.preemptCopyDone c .mx) s = done s (copyPass s c) := by
  show execPreemptCopyDone c .mx s = _
  simp [execPreemptCopyDone, hw]

/-- A pass at its stop point that has room is in the buffer, and the MX is free. -/
theorem copyPass_spec (hw : (s.core c).glPass = some w) (hst : w.stopped = true) (hroom : preRoom (s.core c) (passBytes w) = true) :
    let s1 := s.setCore c { s.core c with
      glPass := none, glSaved := (s.core c).glSaved ++ [(s.core c).passCopy w], preNext := (s.core c).preNext + 1 }
    Preempted s1 (copyPass s c) w.fn := by
  unfold copyPass
  dsimp only
  rw [hw]
  dsimp only
  rw [if_neg (by simp [hst, hroom])]
  exact (preempted_countPreempt ..).saveRecords ..

theorem runs_preemptCopyDone_of_pass (hw : (s.core c).glPass = some w) (hst : w.stopped = true)
    (hroom : preRoom (s.core c) (passBytes w) = true) : Runs (.preemptCopyDone c .mx) s (fun t =>
      (t.core c).glPass = none ∧ t.mem = s.mem ∧ (t.fnS w.fn).preempted = (s.fnS w.fn).preempted + 1 ∧
      ∃ n m, (t.core c).glSaved = (s.core c).glSaved ++ [{ w with stop := false, bytes := n, stamp := m }]) := by
  have h := copyPass_spec hw hst hroom
  refine runs_of_answering (exec_preemptCopyDone_of_pass hw) ⟨?_, h.mem, h.counted, passBytes w, (s.core c).preNext, ?_⟩
  · rw [State.answering_core, h.core]; simp
  · rw [State.answering_core, h.core]; simp [Core.passCopy]

end

/-! ## Thread-engine work -/

/-- The punnets of a TE that are resident, with their slots. -/
def Te.held (t : Te) : List (Nat × Punnet) := t.pun.entries.filter (fun e => e.2.resident)

/-- The copy of grid `g` that the TE of core `x` runs. -/
def Core.teCopy (x : Core) (g : Grid) : TeSave :=
  { ctx := g.ctx, fn := g.fn, grid := some g, blocks := x.te.blocks, punnets := ⟨x.te.held⟩
    bytes := Nat.min (teBytes x.te) preSize, stamp := x.preNext }

/-- The TE of core `x` after its grid `g` has been copied: its slots keep the frames of R174. -/
def Core.teFreed (x : Core) (g : Grid) : Te :=
  { x.te with grid := none, blocks := [], stopPending := false, saved := x.te.saved ++ [x.teCopy g]
              pun := x.te.held.foldl (fun p e => p.put {} e.1 e.2.left) x.te.pun }

section
variable {t : Te} {p : Nat}

/-- A resident punnet is listed among those held. -/
theorem Te.look_held (h : (t.pun.get {} p).resident = true) : look t.held p = some (t.pun.get {} p) := by
  unfold Tbl.get at h ⊢
  rcases hl : look t.pun.entries p with _ | x <;> rw [hl] at h
  · cases h
  · exact look_filter_of_look hl h

/-- The slot of a resident punnet keeps its shadow frame and its trap's record. -/
theorem Core.teFreed_pun {x : Core} {g : Grid} (hr : rising x.te.pun.entries = true)
    (h : (x.te.pun.get {} p).resident = true) : (x.teFreed g).pun.get {} p = (x.te.pun.get {} p).left :=
  get_foldl_put_of_look _ (rising_filter _ _ hr) (Te.look_held h)

end

section
variable {s : State} {c : CoreId} {g : Grid}

theorem dropTeWaits_eq (s : State) (c : Nat) (p : Option Nat) : dropTeWaits s c p = { s with syn := (dropTeWaits s c p).syn } := rfl

/-- TE work that was asked to stop, with no request open, is in the buffer, and its slots are free. -/
theorem copyTe_spec (hg : (s.te c).grid = some g) (hst : (s.te c).stopPending = true) (hq : (s.te c).reqs = [])
    (hcut : gridCut s c = false) (hroom : preRoom (s.core c) (teBytes (s.te c)) = true) :
    let s1 := dropTeWaits (s.setCore c { s.core c with te := (s.core c).teFreed g, preNext := (s.core c).preNext + 1 }) c none
    Preempted s1 (copyTe s c) g.fn := by
  unfold State.te at hg hst hq hroom
  unfold copyTe
  dsimp only
  rw [hg]
  dsimp only
  rw [if_neg (by simp [hst, hq, hcut, hroom])]
  exact (preempted_countPreempt ..).afterRecord (by decide) ..

theorem runs_preemptCopyDone_of_te (hg : (s.te c).grid = some g) (hst : (s.te c).stopPending = true) (hq : (s.te c).reqs = [])
    (hcut : gridCut s c = false) (hroom : preRoom (s.core c) (teBytes (s.te c)) = true)
    (hr : rising (s.te c).pun.entries = true) : Runs (.preemptCopyDone c .te) s (fun t =>
      (t.te c).grid = none ∧ (t.te c).blocks = [] ∧ t.mem = s.mem ∧
      (t.fnS g.fn).preempted = (s.fnS g.fn).preempted + 1 ∧
      (∀ p < 64, (s.pun c p).resident = true → t.pun c p = { shadow := (s.pun c p).shadow, trap := (s.pun c p).trap }) ∧
      ∃ v : TeSave, (t.te c).saved = (s.te c).saved ++ [v] ∧ v.grid = some g ∧ v.blocks = (s.te c).blocks ∧
        ∀ p < 64, (s.pun c p).resident = true → v.punnets.get {} p = s.pun c p) := by
  have h := copyTe_spec hg hst hq hcut hroom
  have hte : (copyTe s c).te c = (s.core c).teFreed g := by
    rw [State.te, h.core, dropTeWaits_eq]
    exact congrArg Core.te ((core_setCore ..).trans (if_pos rfl))
  have hex : exec (.preemptCopyDone c .te) s = done s (copyTe s c) := rfl
  refine runs_of_answering hex ⟨?_, ?_, h.mem, h.counted, fun p _ hp => ?_, (s.core c).teCopy g, ?_, rfl, rfl, fun p _ hp => ?_⟩
  · rw [State.answering_te, hte]; rfl
  · rw [State.answering_te, hte]; rfl
  · rw [State.answering_pun, State.pun, hte]
    exact Core.teFreed_pun hr hp
  · rw [State.answering_te, hte]; rfl
  · exact congrArg (Option.getD · {}) (Te.look_held hp)

end

end Sys2Proof.Machine

/-! # Copies that leave the buffer (R298, R313, R314) -/

namespace Sys2Proof.Machine

/-! ## BUFFER_WRITE_OUT_DONE -/

section
variable {s u : State} {c : CoreId} {stamp n x : Nat}

/-- The state after the write of a copy of context `x` has ended with `r`. -/
def afterWriteOut (u : State) (x : Nat) (r : Option XF) : State :=
  match r with | some e => saveFail u x e none | none => u

theorem exec_bufferWriteOutDone {r : Option XF} (h : oldestCopy (s.core c) = some (stamp, n, x))
    (hw : saveAll (s.setCore c ((s.core c).wroteOut stamp)) x (copyPieces s c stamp) = (u, r)) :
    exec (.bufferWriteOutDone c) s = done s (afterWriteOut u x r) := by
  show execBufferWriteOutDone c s = _
  unfold execBufferWriteOutDone
  rw [h]
  dsimp only
  rw [hw]
  cases r <;> rfl

theorem wroteOut_streams (y : Core) : ∀ v ∈ (y.wroteOut stamp).streams, v.stamp = stamp → v.bytes = 0 := by
  intro v hv
  obtain ⟨w, -, rfl⟩ := List.mem_map.1 hv
  split <;> simp_all

theorem wroteOut_saved (y : Core) : ∀ v ∈ (y.wroteOut stamp).te.saved, v.stamp = stamp → v.bytes = 0 := by
  intro v hv
  obtain ⟨w, -, rfl⟩ := List.mem_map.1 hv
  split <;> simp_all

theorem wroteOut_glSaved (y : Core) : ∀ v ∈ (y.wroteOut stamp).glSaved, v.stamp = stamp → v.bytes = 0 := by
  intro v hv
  obtain ⟨w, -, rfl⟩ := List.mem_map.1 hv
  split <;> simp_all

theorem wroteOut_engs (y : Core) : (y.wroteOut stamp).streams.map (·.eng) = y.streams.map (·.eng) := by
  rw [Core.wroteOut, List.map_map]
  refine List.map_congr_left fun v _ => ?_
  simp only [Function.comp]
  split <;> rfl

theorem runs_bufferWriteOutDone (h : oldestCopy (s.core c) = some (stamp, n, x))
    (hw : saveAll (s.setCore c ((s.core c).wroteOut stamp)) x (copyPieces s c stamp) = (u, none)) :
    Runs (.bufferWriteOutDone c) s (fun t => t.mem = u.mem ∧
      (∀ v ∈ (t.core c).streams, v.stamp = stamp → v.bytes = 0) ∧ (∀ v ∈ (t.te c).saved, v.stamp = stamp → v.bytes = 0) ∧
      (∀ v ∈ (t.core c).glSaved, v.stamp = stamp → v.bytes = 0) ∧
      (t.core c).streams.map (·.eng) = (s.core c).streams.map (·.eng)) := by
  have hb := saveAll_beside (s.setCore c ((s.core c).wroteOut stamp)) x (copyPieces s c stamp)
  rw [hw] at hb
  have hcore : (u.core c).beside = ((s.core c).wroteOut stamp).beside := by simpa using beside_core hb c
  have hst : (u.core c).streams = ((s.core c).wroteOut stamp).streams := (congrArg Core.streams hcore :)
  have hsv : (u.te c).saved = ((s.core c).wroteOut stamp).te.saved := (congrArg (fun y : Core => y.te.saved) hcore :)
  have hgl : (u.core c).glSaved = ((s.core c).wroteOut stamp).glSaved := (congrArg Core.glSaved hcore :)
  have hex : exec (.bufferWriteOutDone c) s = done s u := exec_bufferWriteOutDone h hw
  refine runs_of_answering hex ⟨rfl, ?_, ?_, ?_, ?_⟩
  · rw [State.answering_core, hst]; exact wroteOut_streams _
  · rw [State.answering_te, hsv]; exact wroteOut_saved _
  · rw [State.answering_core, hgl]; exact wroteOut_glSaved _
  · rw [State.answering_core, hst]; exact wroteOut_engs _

/-! ## A save that fails -/

theorem dropSaved_mem (s : State) (x : Nat) : (dropSaved s x).mem = s.mem := upTo_keeps State.mem 32 s _ fun _ _ => rfl

theorem trcEng_mem (s : State) (kind k : Nat) (e : Eng) (ctx : Nat) (r : CmdRef) (tag : W16) (o : Nat) :
    (trcEng s kind k e ctx r tag o).mem = s.mem := by
  obtain ⟨m, t, h, he⟩ := trcEng_eq s kind k e ctx r tag o
  rw [he]

theorem loseSaved_mem (s : State) (x code : Nat) : (loseSaved s x code).mem = s.mem := by
  refine (foldl_keeps State.mem _ _ _ fun t p => ?_).trans (dropSaved_mem s x)
  exact trcEng_mem ..

theorem engineFault_mem (s : State) (f : Nat) (r : FltRec) : (engineFault s f r).mem = s.mem := by
  obtain ⟨g, l, h, hf⟩ := engineFault_eq s f r
  rw [hf]

/-- A failed save keeps the memory, and its context is to be reset. -/
theorem saveFail_spec (s : State) (x : Nat) (e : XF) (q : Option Nat) :
    (saveFail s x e q).mem = s.mem ∧ ((saveFail s x e q).ctx x).faulted = true ∧ ((saveFail s x e q).ctx x).saveLost = true := by
  unfold saveFail
  extract_lets k s1 s2
  have hm1 : s1.mem = s.mem := engineFault_mem ..
  have hm : s2.mem = s.mem := (loseSaved_mem s1 x e.code).trans hm1
  clear_value s1 s2 k
  have hsl := refresh_sliced (s2.setCtx x { s2.ctx x with faulted := true, saveLost := true, saved := false, winSaved := false }) k.fn
  have hctx : (refresh (s2.setCtx x { s2.ctx x with faulted := true, saveLost := true, saved := false, winSaved := false }) k.fn).ctx x
      = { s2.ctx x with faulted := true, saveLost := true, saved := false, winSaved := false } := by
    rw [State.ctx, sliced_hq hsl]
    exact Tbl.get_put_same ..
  exact ⟨(sliced_mem hsl).trans hm, by rw [hctx], by rw [hctx]⟩

theorem runs_bufferWriteOutDone_of_fail {e : XF} (h : oldestCopy (s.core c) = some (stamp, n, x))
    (hw : saveAll (s.setCore c ((s.core c).wroteOut stamp)) x (copyPieces s c stamp) = (u, some e)) :
    Runs (.bufferWriteOutDone c) s (fun t => t.mem = u.mem ∧ (t.ctx x).faulted = true ∧ (t.ctx x).saveLost = true) := by
  have hex : exec (.bufferWriteOutDone c) s = done s (saveFail u x e none) := by
    rw [exec_bufferWriteOutDone h hw, afterWriteOut]
  have hspec := saveFail_spec u x e none
  generalize saveFail u x e none = t at hex hspec
  exact runs_of_answering hex hspec

end

end Sys2Proof.Machine

/-! # Saved work resumes (R125, R154, R181, R312) -/

namespace Sys2Proof.Machine

/-- The saved work of function `f` resumes on engine `e` of core `c`. -/
def restoreOn (s : State) (c : Nat) (e : Eng) (f : Nat) : State :=
  match e with
  | .mx => if (s.core c).glSaved.any (fun w => w.fn == f) then restorePass s c f else restoreStream s c .mx f
  | .tx => restoreStream s c .tx f
  | .te => restoreBunch s c f

theorem exec_streamRestore {s : State} {c : CoreId} {f : Nat} (e : Eng) (hf : restoreFor s c = some f) :
    exec (.streamRestore c e) s = done s (refresh (restoreOn s c e f) f) := by
  show execStreamRestore c e s = _
  unfold execStreamRestore
  rw [hf]
  rfl

/-! ## Clause streams -/

/-- Core `z` after its saved stream `v` has come back as `b` on engine `e`. -/
def Core.resume (z : Core) (e : CE) (v b : StreamSave) : Core :=
  let z1 := { z with streams := z.streams.filter (fun w => w.stamp != v.stamp) }
  match e with
  | .mx => { z1 with mx := b.eng, banks := b.banks, bufs := {}, heldRows := {}, nounMx := z1.nounStamp }
  | .tx => { z1 with tx := b.eng, nounTx := z1.nounStamp }

@[simp] theorem Core.resume_eng (z : Core) (e : CE) (v b : StreamSave) : (z.resume e v b).eng e = b.eng := by cases e <;> rfl

@[simp] theorem Core.resume_streams (z : Core) (e : CE) (v b : StreamSave) :
    (z.resume e v b).streams = z.streams.filter (fun w => w.stamp != v.stamp) := by cases e <;> rfl

section
variable {s u : State} {c : CoreId} {e : CE} {f : Nat} {v b : StreamSave}

/-- A saved stream of a resident context comes back on its idle engine. -/
theorem restoreStream_eq (hv : (s.core c).streams.find? (fun v => v.e == e && v.eng.fn == f) = some v)
    (hi : (s.eng c e).st = .idle) (hg : e = .mx → (s.core c).glPass = none) (hr : resident s v.eng.ctx = true)
    (hb : streamBack s c v = (u, .inl b)) :
    restoreStream s c e f = flush (trcEng (u.setCore c ((u.core c).resume e v b)) 4 c (CE.eng e) b.eng.ctx b.eng.cmd
      (tagOf u b.eng.cmd) 0) c e := by
  have hno : ((e == .mx) && (s.core c).glPass.isSome) = false := by
    cases e with
    | mx => simp [hg rfl]
    | tx => rfl
  rw [eng_eq] at hi
  unfold restoreStream
  dsimp only
  rw [hv]
  dsimp only
  rw [if_neg (by simp [hi, hno, hr]), hb]
  cases e <;> rfl

theorem exec_streamRestore_of_stream (hf : restoreFor s c = some f)
    (hg : e = .mx → ∀ w ∈ (s.core c).glSaved, w.fn ≠ f) :
    exec (.streamRestore c (CE.eng e)) s = done s (refresh (restoreStream s c e f) f) := by
  rw [exec_streamRestore _ hf]
  cases e with
  | tx => rfl
  | mx =>
    have hno : (s.core c).glSaved.any (fun w => w.fn == f) = false := by simpa using hg rfl
    simp only [CE.eng, restoreOn, hno, Bool.false_eq_true, if_false]

theorem streamBack_of_bytes (hn : v.bytes ≠ 0) (hb : streamBack s c v = (u, .inl b)) : b = v := by
  unfold streamBack at hb
  rw [if_pos hn] at hb
  cases hb
  rfl

theorem calm_pc {t : State} (h : t.calm = s.calm) (k : Nat) (z : CE) : (t.eng k z).pc = (s.eng k z).pc :=
  (congrArg ClEng.pc (calm_eng h k z) :)

theorem calm_cmd {t : State} (h : t.calm = s.calm) (k : Nat) (z : CE) : (t.eng k z).cmd = (s.eng k z).cmd :=
  (congrArg ClEng.cmd (calm_eng h k z) :)

theorem calm_streams {t : State} (h : t.calm = s.calm) (k : Nat) : (t.core k).streams = (s.core k).streams :=
  (congrArg Core.streams (calm_core h k) :)

theorem sliced_streams {t : State} (h : t.sliced = s.sliced) (k : Nat) : (t.core k).streams = (s.core k).streams :=
  (congrArg Core.streams (sliced_core h k) :)

theorem runs_streamRestore_of_stream (hf : restoreFor s c = some f)
    (hv : (s.core c).streams.find? (fun v => v.e == e && v.eng.fn == f) = some v) (hi : (s.eng c e).st = .idle)
    (hg : e = .mx → (s.core c).glPass = none ∧ ∀ w ∈ (s.core c).glSaved, w.fn ≠ f) (hr : resident s v.eng.ctx = true)
    (hb : streamBack s c v = (u, .inl b)) : Runs (.streamRestore c (CE.eng e)) s (fun t =>
      (v.bytes ≠ 0 → b = v) ∧
      (t.eng c e).pc = b.eng.pc ∧ (t.eng c e).scal = b.eng.scal ∧ (t.eng c e).lc = b.eng.lc ∧ (t.eng c e).ag = b.eng.ag ∧
      (t.eng c e).cmd = b.eng.cmd ∧ (t.core c).streams = (u.core c).streams.filter (fun w => w.stamp != v.stamp) ∧
      t.mem = u.mem ∧ (e = .mx → (t.core c).banks = b.banks ∧ (t.core c).bufs = {} ∧ (t.core c).heldRows = {})) := by
  let w := u.setCore c ((u.core c).resume e v b)
  have hwc : w.core c = (u.core c).resume e v b := by simp [w]
  have hwe : w.eng c e = b.eng := by rw [eng_eq, hwc]; simp
  have hwm : w.mem = u.mem := rfl
  have heq := restoreStream_eq hv hi (fun he => (hg he).1) hr hb
  obtain ⟨m, tr, hx⟩ := trcEng_eq_of_ne (kind := 4) (by decide) w c (CE.eng e) b.eng.ctx b.eng.cmd (tagOf u b.eng.cmd) 0
  have hcalm : (restoreStream s c e f).calm = ({ w with mon := m, trc := tr } : State).calm := by
    rw [heq, flush_calm]; exact congrArg State.calm hx
  have hsl := refresh_sliced (restoreStream s c e f) f
  have heng := ClEng.eq_of_unasked (sliced_eng hsl c e)
  clear_value w
  refine runs_of_answering (exec_streamRestore_of_stream hf fun he => (hg he).2)
    ⟨fun hn => streamBack_of_bytes hn hb, ?_, ?_, ?_, ?_, ?_, ?_, ?_, fun he => ⟨?_, ?_, ?_⟩⟩
  · rw [State.answering_eng, heng]; exact (calm_pc hcalm c e).trans (congrArg ClEng.pc hwe)
  · rw [State.answering_eng, heng]; exact (calm_scal hcalm c e).trans (congrArg ClEng.scal hwe)
  · rw [State.answering_eng, heng]; exact (calm_lc hcalm c e).trans (congrArg ClEng.lc hwe)
  · rw [State.answering_eng, heng]; exact (calm_ag hcalm c e).trans (congrArg ClEng.ag hwe)
  · rw [State.answering_eng, heng]; exact (calm_cmd hcalm c e).trans (congrArg ClEng.cmd hwe)
  · exact (sliced_streams hsl c).trans ((calm_streams hcalm c).trans ((congrArg Core.streams hwc).trans (by simp)))
  · exact (sliced_mem hsl).trans ((calm_mem hcalm).trans hwm)
  · subst he; exact (sliced_banks hsl c).trans ((calm_banks hcalm c).trans (congrArg Core.banks hwc))
  · subst he; exact (sliced_bufs hsl c).trans ((calm_bufs hcalm c).trans (congrArg Core.bufs hwc))
  · subst he; exact (sliced_heldRows hsl c).trans ((calm_heldRows hcalm c).trans (congrArg Core.heldRows hwc))

end

/-! ## Gleaning passes -/

section
variable {s u : State} {c : CoreId} {f : Nat} {w b : GlWin}

/-- Pass `b` as it resumes at core cycle `n`. -/
def GlWin.resume (b : GlWin) (n : Nat) : GlWin := { b with bytes := 0, stamp := 0, stopped := false, startAt := n }

theorem restoreRecords_eq (t : State) (c ctx : Nat) (l : List GlReq) :
    ∃ m x, l.foldl (fun u r => trcEng u 4 c .mx ctx r.cmd (tagOf u r.cmd) 0) t = { t with mon := m, trc := x } := by
  induction l generalizing t with
  | nil => exact ⟨t.mon, t.trc, rfl⟩
  | cons r l ih =>
    obtain ⟨m, x, h⟩ := trcEng_eq_of_ne (kind := 4) (by decide) t c .mx ctx r.cmd (tagOf t r.cmd) 0
    obtain ⟨m', x', h'⟩ := ih { t with mon := m, trc := x }
    exact ⟨m', x', by rw [List.foldl_cons, h, h']⟩

/-- A saved pass of a resident context comes back on its idle MX. -/
theorem restorePass_spec (hw : (s.core c).glSaved.find? (fun w => w.fn == f) = some w) (hi : (s.eng c .mx).st = .idle)
    (hg : (s.core c).glPass = none) (hr : resident s w.ctx = true) (hb : passBack s c w = (u, .inl b)) :
    (restorePass s c f).mem = u.mem ∧ ((restorePass s c f).core c).glPass = some (b.resume (u.core c).cycles) := by
  have hi : (s.core c).mx.st = .idle := hi
  unfold restorePass
  dsimp only
  rw [hw]
  dsimp only
  rw [if_neg (by simp [hi, hg, hr]), hb]
  dsimp only
  obtain ⟨m, x, h⟩ := restoreRecords_eq (u.setCore c { u.core c with
    glSaved := (u.core c).glSaved.filter (fun v => v.stamp != w.stamp), glPass := some (b.resume (u.core c).cycles) }) c w.ctx w.reqs
  rw [GlWin.resume] at h ⊢
  rw [h]
  exact ⟨rfl, (congrArg Core.glPass ((core_setCore ..).trans (if_pos rfl)) :)⟩

theorem sliced_glPass {t : State} (h : t.sliced = s.sliced) (k : Nat) :
    (t.core k).glPass.map GlWin.unasked = (s.core k).glPass.map GlWin.unasked :=
  (congrArg Core.glPass (sliced_core h k) :)

theorem runs_streamRestore_of_pass (hf : restoreFor s c = some f)
    (hw : (s.core c).glSaved.find? (fun w => w.fn == f) = some w) (hi : (s.eng c .mx).st = .idle)
    (hg : (s.core c).glPass = none) (hr : resident s w.ctx = true) (hb : passBack s c w = (u, .inl b)) :
    Runs (.streamRestore c .mx) s (fun t =>
      t.mem = u.mem ∧ ∃ v, (t.core c).glPass = some v ∧ v.reqs = b.reqs ∧ v.acc = b.acc ∧ v.tile = b.tile ∧ v.pair = b.pair ∧
        v.stopped = false) := by
  have hany : (s.core c).glSaved.any (fun w => w.fn == f) = true :=
    List.any_eq_true.2 ⟨w, List.mem_of_find?_eq_some hw, List.find?_some (p := fun w : GlWin => w.fn == f) hw⟩
  obtain ⟨hmem, hpass⟩ := restorePass_spec hw hi hg hr hb
  have hex : exec (.streamRestore c .mx) s = done s (refresh (restorePass s c f) f) := by
    rw [exec_streamRestore _ hf, restoreOn, if_pos hany]
  have hsl := refresh_sliced (restorePass s c f) f
  have hgl := sliced_glPass hsl c
  rw [hpass] at hgl
  obtain ⟨v, hv, hun⟩ := Option.map_eq_some_iff.1 hgl
  refine runs_of_answering hex ⟨(sliced_mem hsl).trans hmem, v, hv, ?_, ?_, ?_, ?_, ?_⟩
  · exact (congrArg GlWin.reqs hun :)
  · exact (congrArg GlWin.acc hun :)
  · exact (congrArg GlWin.tile hun :)
  · exact (congrArg GlWin.pair hun :)
  · exact (congrArg GlWin.stopped hun :)

end

/-! ## Thread-engine work -/

/-- Each core, but for what synchronisation reaches in it. -/
def State.calms (s : State) (k : Nat) : Core := (s.core k).calm

theorem calms_of_calm {s t : State} (h : t.calm = s.calm) : t.calms = s.calms := funext (calm_core h)

section
variable (s : State)

theorem waitConj_calms (x n : Nat) (t : W32) (eng : BitVec 7) (p : Nat) (r : CmdRef) :
    (waitConj s x n t eng p r).1.calms = s.calms := by
  unfold waitConj
  dsimp only
  repeat' split
  all_goals rfl

theorem waitBar_calms (o : Obj) (x : Nat) (arr : Option (Obj × W32)) (eng : BitVec 7) (p : Nat) :
    (waitBar s o x arr eng p).1.calms = s.calms := by
  unfold waitBar
  dsimp only
  repeat' split
  all_goals rfl

/-- A restored wait that is over acquires and no longer holds its punnet. -/
def settleWait (c p : Nat) (a : State × Bool) : State :=
  if a.2 then l1Acquire (a.1.setPun c p { a.1.pun c p with hold := .none }) c else a.1

theorem settleWait_calms (c p : Nat) (a : State × Bool) : (settleWait c p a).calms = a.1.calms := by
  unfold settleWait
  split
  · exact calms_of_calm ((l1Acquire_calm ..).trans (setPun_calm (by rfl)))
  · rfl

theorem rehold_calms (c p : Nat) : (rehold c p s).calms = s.calms := by
  unfold rehold
  dsimp only
  split
  · split
    · exact (settleWait_calms ..).trans (waitConj_calms ..)
    · exact (settleWait_calms ..).trans (waitBar_calms ..)
  · rename_i g m _
    have h := calms_of_calm (gbPerform_calm s c (s.pun c p).ctx g m (engId c .te) p)
    split <;> rename_i heq <;> rw [heq] at h
    · exact (calms_of_calm (setPun_calm (by rfl))).trans h
    · exact h
  · rfl

end

/-- The TE `t` after its saved work `v` of context `x` has come back. -/
def Te.resume (t : Te) (x : Nat) (v : TeSave) : Te :=
  { freshCtx t x with
    grid := v.grid, blocks := v.blocks, stopPending := false
    pun := v.punnets.entries.foldl (fun p e => p.put {} e.1 e.2) (freshCtx t x).pun
    saved := t.saved.filter (fun w => w.stamp != v.stamp) }

section
variable {s : State} {c x : Nat} {v : TeSave}

/-- Saved work that is still in the buffer comes back on its core, and reaches no other but by synchronisation. -/
theorem restoreTe_calms (hv : (s.te c).saved.find? (fun v => v.ctx == x) = some v) (hn : v.bytes ≠ 0) :
    (restoreTe s c x).calms = (s.setTe c ((s.te c).resume x v)).calms := by
  unfold restoreTe
  unfold State.te at hv
  rw [hv]
  dsimp only
  rw [teBack, if_pos hn]
  dsimp only
  have hre : ((v.blocks.flatMap (·.slots)).foldl (fun u p => rehold c p u) (s.setTe c ((s.te c).resume x v))).calms
      = (s.setTe c ((s.te c).resume x v)).calms :=
    foldl_keeps State.calms _ _ _ fun t p => rehold_calms t c p
  split
  · obtain ⟨m, tr, h⟩ := trcEng_eq_of_ne (kind := 4) (by decide) _ c .te x _ _ 0
    rw [h]
    exact hre
  · exact hre

end

/-- The work of a TE, and the work that is saved. -/
def Te.work (t : Te) : Option Grid × List Block × List TeSave := (t.grid, t.blocks, t.saved)

/-- A TE's work after its saved work `v` has come back. -/
def Te.workAfter (t : Te) (v : TeSave) : Option Grid × List Block × List TeSave :=
  (v.grid, v.blocks, t.saved.filter (fun w => w.stamp != v.stamp))

section
variable {s t : State}

theorem calms_work (h : t.calms = s.calms) (k : Nat) : (t.te k).work = (s.te k).work :=
  (congrArg (fun y : Core => y.te.work) (congrFun h k) :)

theorem sliced_work (h : t.sliced = s.sliced) (k : Nat) : (t.te k).work = (s.te k).work :=
  (congrArg (fun y : Core => y.te.work) (sliced_core h k) :)

theorem restoreTe_work {c x : Nat} {v : TeSave} (hv : (s.te c).saved.find? (fun v => v.ctx == x) = some v)
    (hn : v.bytes ≠ 0) (k : Nat) :
    ((restoreTe s c x).te k).work = if k = c then (s.te c).workAfter v else (s.te k).work := by
  rw [calms_work (restoreTe_calms hv hn), te_setTe]
  split <;> rfl

/-- Saved work of context `x` comes back on each core of a list, core by core. -/
theorem foldl_restoreTe_work (x : Nat) (l : List Nat) (hl : l.Nodup) (s : State)
    (h : ∀ n ∈ l, ∃ v, (s.te n).saved.find? (fun v => v.ctx == x) = some v ∧ v.bytes ≠ 0) (n : Nat) :
    (n ∉ l → ((l.foldl (fun u n => restoreTe u n x) s).te n).work = (s.te n).work) ∧
    (n ∈ l → ∀ v, (s.te n).saved.find? (fun v => v.ctx == x) = some v →
      ((l.foldl (fun u n => restoreTe u n x) s).te n).work = (s.te n).workAfter v) := by
  induction l generalizing s with
  | nil => exact ⟨fun _ => rfl, fun h => absurd h List.not_mem_nil⟩
  | cons a l ih =>
    obtain ⟨ha, hl⟩ := List.nodup_cons.1 hl
    obtain ⟨va, hva, hna⟩ := h a List.mem_cons_self
    have hwork := restoreTe_work hva hna
    have hother (k : Nat) (hk : k ≠ a) : ((restoreTe s a x).te k).work = (s.te k).work := by rw [hwork, if_neg hk]
    have hsaved (k : Nat) (hk : k ≠ a) : ((restoreTe s a x).te k).saved = (s.te k).saved :=
      congrArg (fun p : Option Grid × List Block × List TeSave => p.2.2) (hother k hk)
    obtain ⟨hout, hin⟩ := ih hl (restoreTe s a x) fun k hk => by
      rw [hsaved k (fun e => ha (e ▸ hk))]
      exact h k (List.mem_cons_of_mem _ hk)
    rw [List.foldl_cons]
    refine ⟨fun hn => ?_, fun hn v hv => ?_⟩
    · rw [hout (List.not_mem_of_not_mem_cons hn), hother n (List.ne_of_not_mem_cons hn)]
    · by_cases hna : n = a
      · subst hna
        obtain rfl : va = v := Option.some.inj (hva.symm.trans hv)
        rw [hout ha, hwork, if_pos rfl]
      · have hnl : n ∈ l := (List.mem_cons.1 hn).resolve_left hna
        rw [hin hnl v (by rw [hsaved n hna]; exact hv), Te.workAfter, hsaved n hna]
        rfl

theorem bunchCores_nodup (c : Nat) : (bunchCores c).Nodup := by
  simp [bunchCores]

end

section
variable {s : State} {c : CoreId} {f : Nat} {v : TeSave}

/-- Saved work of a resident context comes back on every core of the bunch that holds some. -/
theorem restoreBunch_eq (hv : (s.te c).saved.find? (fun v => v.fn == f) = some v) (hr : resident s v.ctx = true)
    (hd : s.syn.dumpBusy = false) (hstop : ∀ n ∈ bunchCores c, teStopping s n v.ctx = false)
    (hfree : ∀ n ∈ bunchCores c, ∀ w ∈ (s.te n).saved, w.ctx = v.ctx → (s.te n).grid = none ∧ (s.te n).reqs = []) :
    restoreBunch s c f
      = ((bunchCores c).filter (fun n => (s.te n).saved.any (fun w => w.ctx == v.ctx))).foldl (fun u n => restoreTe u n v.ctx) s := by
  unfold restoreBunch
  rw [hv]
  dsimp only
  have hgo : (bunchCores c).any (fun n => teStopping s n v.ctx) = false := by simpa using hstop
  have hall : ((bunchCores c).filter (fun n => (s.te n).saved.any (fun w => w.ctx == v.ctx))).all
      (fun n => (s.te n).grid.isNone && (s.te n).reqs.isEmpty) = true := by
    refine List.all_eq_true.2 fun n hn => ?_
    obtain ⟨hnb, hany⟩ := List.mem_filter.1 hn
    obtain ⟨w, hw, hx⟩ := List.any_eq_true.1 hany
    obtain ⟨hg, hq⟩ := hfree n hnb w hw (beq_iff_eq.1 hx)
    simp [hg, hq]
  exact if_neg (by simp [hr, hd, hall, hgo])

theorem runs_streamRestore_of_te (hf : restoreFor s c = some f)
    (hv : (s.te c).saved.find? (fun v => v.fn == f) = some v) (hr : resident s v.ctx = true) (hd : s.syn.dumpBusy = false)
    (hfree : ∀ n ∈ bunchCores c, teStopping s n v.ctx = false ∧
      ∀ w ∈ (s.te n).saved, w.ctx = v.ctx → (s.te n).grid = none ∧ (s.te n).reqs = [] ∧ w.bytes ≠ 0) :
    Runs (.streamRestore c .te) s (fun t => ∀ n ∈ bunchCores c, ∀ w,
      (s.te n).saved.find? (fun w => w.ctx == v.ctx) = some w →
      (t.te n).grid = w.grid ∧ (t.te n).blocks = w.blocks ∧
      (t.te n).saved = (s.te n).saved.filter (fun z => z.stamp != w.stamp)) := by
  have heq := restoreBunch_eq hv hr hd (fun n hn => (hfree n hn).1) fun n hn w hw hx =>
    let ⟨hg, hq, _⟩ := (hfree n hn).2 w hw hx
    ⟨hg, hq⟩
  have hfold := foldl_restoreTe_work v.ctx _ ((bunchCores_nodup c).filter _) s fun n hn => by
    obtain ⟨hnb, hany⟩ := List.mem_filter.1 hn
    obtain ⟨w, hw⟩ := Option.isSome_iff_exists.1 ((List.find?_isSome (p := fun w : TeSave => w.ctx == v.ctx)).2 (List.any_eq_true.1 hany))
    have hx := List.find?_some (p := fun w : TeSave => w.ctx == v.ctx) hw
    obtain ⟨-, -, hn⟩ := (hfree n hnb).2 w (List.mem_of_find?_eq_some hw) (beq_iff_eq.1 hx)
    exact ⟨w, hw, hn⟩
  rw [← heq] at hfold
  refine runs_of_answering (exec_streamRestore .te hf) fun n hn w hw => ?_
  have hx := List.find?_some (p := fun w : TeSave => w.ctx == v.ctx) hw
  have hany : (s.te n).saved.any (fun w => w.ctx == v.ctx) = true :=
    List.any_eq_true.2 ⟨w, List.mem_of_find?_eq_some hw, hx⟩
  have hwork := (sliced_work (refresh_sliced (restoreBunch s c f) f) n).trans ((hfold n).2 (List.mem_filter.2 ⟨hn, hany⟩) w hw)
  simp only [Te.work, Te.workAfter, Prod.mk.injEq] at hwork
  exact hwork

end

/-- Settles O32: the copy, the write-out and the return of each kind of work by its own rule. -/
theorem preemptionCopiesAndRestores : Obligations.PreemptionCopiesAndRestores := by
  unfold Obligations.PreemptionCopiesAndRestores
  refine ⟨?_, ?_, ?_, ?_, ?_, ?_, ?_, ?_⟩
  · exact fun _ _ _ hst ha hroom hg => runs_preemptCopyDone_of_stream hst ha hroom hg
  · exact fun _ _ _ hw hst hroom => runs_preemptCopyDone_of_pass hw hst hroom
  · exact fun _ _ _ hg hst hq hcut hroom hr => runs_preemptCopyDone_of_te hg hst hq hcut hroom hr
  · exact fun _ _ _ _ _ _ h hw => runs_bufferWriteOutDone h hw
  · exact fun _ _ _ _ _ _ _ h hw => runs_bufferWriteOutDone_of_fail h hw
  · exact fun _ _ _ _ _ _ _ hf hv hi hg hr hb => runs_streamRestore_of_stream hf hv hi hg hr hb
  · exact fun _ _ _ _ _ _ hf hw hi hg hr hb => runs_streamRestore_of_pass hf hw hi hg hr hb
  · exact fun _ _ _ _ hf hv hr hd hfree => runs_streamRestore_of_te hf hv hr hd hfree

end Sys2Proof.Machine

/-! # Transfers (R242 to R249): what their work leaves unchanged -/

namespace Sys2Proof.Machine

section
variable (s : State)

theorem foldX_beside {α β : Type} (f : State → β → α → State × (β ⊕ XF)) (l : List α) (s : State) (b : β)
    (h : ∀ t b a, (f t b a).1.beside = t.beside) : (foldX f l s b).1.beside = s.beside :=
  foldl_keeps (fun r : State × (β ⊕ XF) => r.1.beside) _ _ _ fun r a => by grind

theorem putLines_beside (p : Sp) (n : Noun) (l) : (putLines s p n l).1.beside = s.beside := by
  induction l generalizing s with
  | nil => rfl
  | cons o r ih =>
    unfold putLines
    grind [writeElems_beside, writeScales_beside]

theorem putConv_beside (p : Sp) (n : Noun) (l) : (putConv s p n l).1.beside = s.beside := by
  induction l generalizing s with
  | nil => rfl
  | cons o r ih =>
    unfold putConv
    grind [writeConv_beside]

theorem readIndex_beside (p n pos) : (readIndex s p n pos).1.beside = s.beside := by
  unfold readIndex
  split
  · rfl
  · have h (a : Nat) := readSp_beside s p a 4
    split
    split <;> rename_i heq <;> exact (congrArg (·.1.beside) heq).symm.trans (h _)

theorem dropIndex_beside (f slot) : (dropIndex s f slot).beside = s.beside := by
  unfold dropIndex
  grind [rasCount_beside, inc16_beside, setSk_beside]

/-- The lines of a source, each turned into what is to be written. -/
theorem foldX_readLine_beside {α β : Type} {b : β} {l : List α} {p : Sp} {n : Noun} {a : α → Nat} {k : α → Nat}
    {g : β → α → List (Nat × Nat) → β} :
    (foldX (fun t b i => match takeLine t p n (a i) (k i) with
      | (u, .inl v) => (u, .inl (g b i v))
      | (u, .inr e) => (u, .inr e)) l s b).1.beside = s.beside :=
  foldX_beside _ _ _ _ fun t b i => by
    unfold takeLine
    grind [readLine_beside]

theorem copyBody_beside (o) : (copyBody o s).1.beside = s.beside := by
  unfold copyBody
  extract_lets m
  split
  all_goals
    rename_i h
    have := (congrArg (·.1.beside) h).symm.trans (foldX_readLine_beside ..)
    grind [putLines_beside]

theorem reshapeBody_beside (o) : (reshapeBody o s).1.beside = s.beside := by
  unfold reshapeBody
  extract_lets cnt w
  split
  all_goals
    rename_i h
    have := (congrArg (·.1.beside) h).symm.trans (foldX_readLine_beside ..)
    grind [putLines_beside]

theorem convertBody_beside (o) : (convertBody o s).1.beside = s.beside := by
  unfold convertBody
  extract_lets m
  split
  all_goals
    rename_i h
    have := (congrArg (·.1.beside) h).symm.trans (foldX_readLine_beside ..)
    grind [putConv_beside]

theorem rowCopy_beside (o a b) : (rowCopy o s a b).1.beside = s.beside := by
  unfold rowCopy takeLine
  grind [readLine_beside, putLines_beside]

theorem gatherBody_beside (f o) : (gatherBody f o s).1.beside = s.beside := by
  unfold gatherBody
  grind [readIndex_beside, dropIndex_beside, rowCopy_beside]

theorem scatterBody_beside (f o) : (scatterBody f o s).1.beside = s.beside := by
  unfold scatterBody
  grind [readIndex_beside, dropIndex_beside, rowCopy_beside]

theorem presWay_beside (p n x) : (presWay s p n x).1.beside = s.beside := by
  have h (a k) := readSp_beside s p a k
  unfold presWay
  split
  · rfl
  · split <;> rename_i heq <;> exact (congrArg (·.1.beside) heq).symm.trans (h ..)

theorem lookup_beside (f o) : (lookup f o s).1.beside = s.beside := by
  unfold lookup takeLine
  extract_lets n slot bump
  have hb (t : State) (g : Sketch → Sketch) : (bump t g).beside = t.beside := by grind [setSk_beside]
  clear_value bump
  have hi := readIndex_beside s o.p o.sg.idx o.sg.pos.toNat
  split <;> rename_i heq <;> rw [heq] at hi
  · exact hi
  rename_i t x0
  extract_lets bad x
  split
  · exact (dropIndex_beside ..).trans hi
  have hw := (presWay_beside t o.p n x).trans hi
  split <;> rename_i heq <;> rw [heq] at hw
  · exact hw
  rename_i u way
  extract_lets a
  have hl := (readLine_beside u o.p n a (n.e 0)).trans hw
  split <;> rename_i heq <;> rw [heq] at hl
  · exact hl
  grind

theorem embedGatherBody_beside (f o) : (embedGatherBody f o s).1.beside = s.beside := by
  unfold embedGatherBody
  grind [lookup_beside, writeConv_beside]

theorem setPool_beside (c p gone) : (setPool s c p gone).beside = s.beside := setCore_beside s (by rfl)

theorem embedPoolBody_beside (f c r j o) : (embedPoolBody f c r j o s).1.beside = s.beside := by
  unfold embedPoolBody
  grind [lookup_beside, setPool_beside, writeConv_beside]

theorem jobBody_beside (c f r j o) : (jobBody c f r j o s).1.beside = s.beside := by
  unfold jobBody
  grind [copyBody_beside, reshapeBody_beside, convertBody_beside, gatherBody_beside, scatterBody_beside, embedPoolBody_beside,
    embedGatherBody_beside]

end

end Sys2Proof.Machine

/-! # Transfers are issued (R111, R129, R243) -/

namespace Sys2Proof.Machine

/-- The job of the transfer slot `i` with word `w` and opcode `op` of engine `y`. -/
def ClEng.xjob (y : ClEng) (op i w : Nat) : XJob :=
  { op := op, slot := i, first := y.done == 0
    last := match y.clause with | some k => y.done + 1 == k.execs | none => true
    src := y.noun (xSrc w), dst := y.noun (xDst w), sg := y.gen (xSrcAg w), dg := y.gen (xDstAg w) }

section
variable {s u : State} {c op i : Nat} {w : W64} {k : Clause}

theorem xjob_of_clause (hk : (s.eng c .tx).clause = some k) : (s.eng c .tx).pop.xjob op i w.toNat = s.xjob c op i w.toNat k := by
  have hk : (s.eng c .tx).pop.clause = some k := hk
  simp only [ClEng.xjob, hk]
  rfl

/-- What the transfer slot of a row does, from the state with the slot taken. -/
def State.xferBody (s : State) (c op i : Nat) (w : W64) : State × Option XF :=
  jobBody c (s.eng c .tx).fn (s.eng c .tx).cmd ((s.eng c .tx).pop.xjob op i w.toNat) (s.xop c w.toNat) (s.popSlot c .tx)

/-- The state with transfer `r` of core `c` issued. -/
def State.issueXfer (u : State) (c : Nat) (r : Xfer) : State :=
  u.setCore c { u.core c with xfers := (u.core c).xfers ++ [r], xferNext := (u.core c).xferNext + 1 }

/-- The transfer slot of `s` reads host memory or follows a transfer that has yet to act (R243). -/
def State.xferLater (s : State) (c : Nat) (w : W64) : Bool :=
  let t := s.popSlot c .tx
  (hostAt t c (s.eng c .tx).fn (s.eng c .tx).ctx (readSpans t (s.xop c w.toNat))).isSome ||
    jobsWait (t.core c) (s.eng c .tx).cmd

/-- The transfer that the slot of `s` makes outstanding in state `u`. -/
def State.xferRec (s u : State) (c op i : Nat) (w : W64) : Xfer :=
  let t := s.popSlot c .tx
  let y := s.eng c .tx
  let o := s.xop c w.toNat
  let host := hostAt t c y.fn y.ctx (readSpans t o)
  { id := (u.core c).xferNext, cmd := y.cmd, ctx := y.ctx, sig := bit w.toNat 47, conj := fld w.toNat 38 9, pc := y.pc
    reqs := linesOut t c y.fn y.ctx (readSpans t o) .read + linesOut t c y.fn y.ctx (writeSpans t o) .write
    old := (s.hq.inv.get none y.fn).isSome
    issuedAt := s.time, host := host.isSome, va := host.getD 0
    job := if s.xferLater c w then some (y.pop.xjob op i w.toNat) else none }

/-- The row of a transfer, by what its slot does. -/
theorem xferRow_eq (h : s.heads c .tx .xfer op i w) : xferRow c op s = match s.xferBody c op i w with
    | (t, some e) => done s (engFail t c .tx e)
    | (t, none) =>
      let u := if s.xferLater c w then s.popSlot c .tx else t
      done s (slotDone (u.issueXfer c (s.xferRec u c op i w)) c .tx) := by
  unfold xferRow
  rw [h.headSlot]
  rfl

/-- A transfer whose access fails ends the stream. -/
theorem xferRow_of_fail {e : XF} (h : s.heads c .tx .xfer op i w) (hb : s.xferBody c op i w = (u, some e)) :
    xferRow c op s = done s (engFail u c .tx e) := by
  rw [xferRow_eq h, hb]

/-- A transfer is issued: its effect is made at once, or is left for its completion. -/
theorem xferRow_of_issue (h : s.heads c .tx .xfer op i w) (hb : s.xferBody c op i w = (u, none)) {t : State}
    (ht : t = if s.xferLater c w then s.popSlot c .tx else u) :
    xferRow c op s = done s (slotDone (t.issueXfer c (s.xferRec t c op i w)) c .tx) := by
  rw [xferRow_eq h, hb, ht]

theorem popSlot_eng : (s.popSlot c .tx).eng c .tx = (s.eng c .tx).pop := by
  rw [State.popSlot, eng_setEng, if_pos ⟨rfl, rfl⟩]
  rfl

theorem xferLater_eq_false_iff : s.xferLater c w = false ↔ (s.popSlot c .tx).actsNow c (s.xop c w.toNat) := by
  unfold State.xferLater State.actsNow
  rw [popSlot_eng]
  simp only [Bool.or_eq_false_iff, Option.isSome_eq_false_iff, Option.isNone_iff_eq_none]
  rfl

theorem issueXfer_eq (r : Xfer) :
    ∃ y, EngSet (u.issueXfer c r) (slotDone (u.issueXfer c r) c .tx) c .tx y := ⟨_, (EngSet.self _ c .tx).slotDone⟩

theorem issueXfer_xfers (r : Xfer) :
    ((slotDone (u.issueXfer c r) c .tx).core c).xfers = (u.core c).xfers ++ [r] := by
  obtain ⟨y, -, hc, -⟩ := issueXfer_eq (u := u) (c := c) r
  rw [hc, Core.setEng_xfers]
  simp [State.issueXfer]

end

/-- What a transfer that is issued in state `u` leaves: its record `x` is the last of its engine's, with `b` yet to do. -/
def Issued (t u : State) (c : Nat) (y : ClEng) (w : Nat) (b : Option XJob) : Prop :=
  t.mem = u.mem ∧ t.poison = u.poison ∧ t.regs = u.regs ∧ t.sketch = u.sketch ∧ t.syn = u.syn ∧ t.lnk = u.lnk ∧ t.hq = u.hq ∧
  ∃ x : Xfer, (t.core c).xfers = (u.core c).xfers ++ [x] ∧ x.id = (u.core c).xferNext ∧ x.cmd = y.cmd ∧
    x.sig = bit w 47 ∧ x.conj = fld w 38 9 ∧ x.ctx = y.ctx ∧ x.isGet = false ∧ x.flitsLeft = 0 ∧ x.job = b

section
variable {s u : State} {c op i : Nat} {w : W64}

theorem issued_issueXfer (h : s.xferLater c w = b) :
    Issued ((slotDone (u.issueXfer c (s.xferRec u c op i w)) c .tx).answering s) u c (s.eng c .tx) w.toNat
      (if b then some ((s.eng c .tx).pop.xjob op i w.toNat) else none) := by
  obtain ⟨y, he, -⟩ := issueXfer_eq (u := u) (c := c) (s.xferRec u c op i w)
  refine ⟨?_, ?_, ?_, ?_, ?_, ?_, ?_, s.xferRec u c op i w, issueXfer_xfers _, rfl, rfl, rfl, rfl, rfl, rfl, rfl, ?_⟩
  · exact (congrArg State.mem he :)
  · exact (congrArg State.poison he :)
  · exact (congrArg State.regs he :)
  · exact (congrArg State.sketch he :)
  · exact (congrArg State.syn he :)
  · exact (congrArg State.lnk he :)
  · exact (congrArg State.hq he :)
  · subst h; rfl

end

/-- Taking the slot is not seen in what the issue of a transfer leaves. -/
theorem Issued.of_popSlot {t s : State} {c w : Nat} {y : ClEng} {b : Option XJob} (h : Issued t (s.popSlot c .tx) c y w b) :
    Issued t s c y w b := by
  have hcore : (s.popSlot c .tx).core c = { s.core c with tx := (s.eng c .tx).pop } := setEng_core_same ..
  unfold Issued at h
  rw [hcore] at h
  exact h

section
variable {s : State} {c op i : Nat} {w : W64} {k : Clause} {ins : Instr}

theorem runs_of_xferRow (hi : exec ins s = xferRow c op s) (h : s.heads c .tx .xfer op i w)
    (hk : (s.eng c .tx).clause = some k) {out : State × Option XF} (hout : s.xferBody c op i w = out) :
    Runs ins s (fun t =>
      (∀ u, out = (u, none) → (s.popSlot c .tx).actsNow c (s.xop c w.toNat) →
        Issued t u c (s.eng c .tx) w.toNat none) ∧
      (∀ u, out = (u, none) → ¬ (s.popSlot c .tx).actsNow c (s.xop c w.toNat) →
        Issued t s c (s.eng c .tx) w.toNat (some (s.xjob c op i w.toNat k))) ∧
      (∀ u e, out = (u, some e) → t.mem = u.mem ∧ (t.core c).xfers = (u.core c).xfers ∧
        (t.eng c .tx).faultCause = some e.code)) := by
  obtain ⟨u, r⟩ := out
  cases r with
  | some e =>
    refine runs_of_answering (hi.trans (xferRow_of_fail h hout)) ⟨fun _ h => (by cases h), fun _ h => (by cases h), fun u' e' h => ?_⟩
    cases h
    exact ⟨by simp, by simp [engFail_core], by simp [ClEng.faulted]⟩
  | none =>
    cases hl : s.xferLater c w with
    | false =>
      refine runs_of_answering (hi.trans (xferRow_of_issue h hout (t := u) (by rw [hl]; rfl))) 
        ⟨fun u' hu _ => ?_, fun _ _ hn => absurd (xferLater_eq_false_iff.1 hl) hn, fun _ _ h => (by cases h)⟩
      cases hu
      exact issued_issueXfer hl
    | true =>
      refine runs_of_answering (hi.trans (xferRow_of_issue h hout (t := s.popSlot c .tx) (by rw [hl]; rfl)))
        ⟨fun _ _ hn => ?_, fun u' _ _ => ?_, fun _ _ h => (by cases h)⟩
      · rw [xferLater_eq_false_iff.2 hn] at hl
        cases hl
      · have hiss := issued_issueXfer (u := s.popSlot c .tx) (op := op) (i := i) hl
        rw [if_pos rfl, xjob_of_clause hk] at hiss
        exact hiss.of_popSlot

end

/-! ## A bad index (R245) -/

/-- GATHER and SCATTER of a bad index drop it. -/
theorem gatherBody_of_bad {f x : Nat} {o : XOp} {s u : State} (h : readIndex s o.p o.sg.idx o.sg.pos.toNat = (u, .inl x))
    (hb : badIndex x (o.src.e 1) = true) : gatherBody f o s = (dropIndex u f none, none) := by
  simp only [gatherBody, h, hb, if_true]

theorem scatterBody_of_bad {f x : Nat} {o : XOp} {s u : State} (h : readIndex s o.p o.dg.idx o.dg.pos.toNat = (u, .inl x))
    (hb : badIndex x (o.dst.e 1) = true) : scatterBody f o s = (dropIndex u f none, none) := by
  simp only [scatterBody, h, hb, if_true]

section
variable (u : State) (f : Nat)

/-- A chip error's count reaches its counter and the flag of full counters. -/
theorem rdF_rasCount_other (code a l n : Nat) (ha : a ≠ 0x00800100 + 4 * (code - 0x40)) (hf : a ≠ 0x00800000) :
    rdF (rasCount u code) a l n = rdF u a l n := by
  unfold rasCount
  dsimp only
  rw [rdF, rd_inc16_other _ _ _ ha]
  split
  · rw [rd_wrF_other _ _ _ _ _ _ hf]; rfl
  · rfl

theorem rdF_rasCount_same (code : Nat) :
    rdF (rasCount u code) (0x00800100 + 4 * (code - 0x40)) 0 16
      = Nat.min (rdF u (0x00800100 + 4 * (code - 0x40)) 0 16 + 1) 0xFFFF := by
  unfold rasCount
  dsimp only
  rw [rdF_inc16_same]
  split
  · rw [rdF_wrF_other _ _ _ _ _ _ _ _ (by omega)]
  · rfl

/-- A dropped index is counted for its function and for the chip, and reaches no memory. -/
theorem dropIndex_spec : (dropIndex u f none).mem = u.mem ∧ (dropIndex u f none).poison = u.poison ∧
    rdF (dropIndex u f none) (fpA f 0x30814) 0 16 = Nat.min (rdF u (fpA f 0x30814) 0 16 + 1) 0xFFFF ∧
    rdF (dropIndex u f none) 0x00800120 0 16 = Nat.min (rdF u 0x00800120 0 16 + 1) 0xFFFF := by
  have hd : dropIndex u f none = rasCount (inc16 u (fpA f 0x30814)) 0x48 := rfl
  have hne : fpA f 0x30814 ≠ 0x00800120 := by unfold fpA; omega
  have hne' : fpA f 0x30814 ≠ 0x00800000 := by unfold fpA; omega
  obtain ⟨r, hr⟩ := rasCount_eq (inc16 u (fpA f 0x30814)) 0x48
  obtain ⟨g, hg, -⟩ := inc16_eq u (fpA f 0x30814)
  rw [hd]
  refine ⟨by rw [hr, hg], by rw [hr, hg], ?_, ?_⟩
  · rw [rdF_rasCount_other _ _ _ _ _ hne hne', rdF_inc16_same]
  · have h := rdF_rasCount_same (inc16 u (fpA f 0x30814)) 0x48
    rw [show 0x00800100 + 4 * (0x48 - 0x40) = 0x00800120 by decide] at h
    rw [h, rdF, rd_inc16_other _ _ _ hne.symm, rdF]

end

/-! ## What a row's slot does -/

section
variable {c f : Nat} {r : CmdRef} {j : XJob} {o : XOp} {s : State}

theorem jobBody_copy (h : j.op = 1) : jobBody c f r j o s = copyBody o s := by simp [jobBody, h]
theorem jobBody_reshape (h : j.op = 2) : jobBody c f r j o s = reshapeBody o s := by simp [jobBody, h]
theorem jobBody_convert (h : j.op = 3) : jobBody c f r j o s = convertBody o s := by simp [jobBody, h]
theorem jobBody_gather (h : j.op = 4) : jobBody c f r j o s = gatherBody f o s := by simp [jobBody, h]
theorem jobBody_scatter (h : j.op = 5) : jobBody c f r j o s = scatterBody f o s := by simp [jobBody, h]
theorem jobBody_embedPool (h : j.op = 6) : jobBody c f r j o s = embedPoolBody f c r j o s := by simp [jobBody, h]
theorem jobBody_embedGather (h : j.op = 7) : jobBody c f r j o s = embedGatherBody f o s := by simp [jobBody, h]

end

section
variable {s u : State} {c op i f : Nat} {w : W64} {ins : Instr}

/-- A transfer that drops its index, and acts as it is issued. -/
theorem runs_of_dropped (hi : exec ins s = xferRow c op s) (h : s.heads c .tx .xfer op i w)
    (hn : (s.popSlot c .tx).actsNow c (s.xop c w.toNat)) (hout : s.xferBody c op i w = (dropIndex u f none, none)) :
    Runs ins s (fun t =>
      t.mem = u.mem ∧ t.poison = u.poison ∧
      rdF t (fpA f 0x30814) 0 16 = Nat.min (rdF u (fpA f 0x30814) 0 16 + 1) 0xFFFF ∧
      rdF t 0x00800120 0 16 = Nat.min (rdF u 0x00800120 0 16 + 1) 0xFFFF) := by
  have hl := xferLater_eq_false_iff.2 hn
  obtain ⟨hmem, hpoison, hown, hchip⟩ := dropIndex_spec u f
  have hiss := issued_issueXfer (u := dropIndex u f none) (op := op) (i := i) hl
  obtain ⟨hm, hp, hregs, -⟩ := hiss
  refine runs_of_answering (hi.trans (xferRow_of_issue h hout (t := dropIndex u f none) (by rw [hl]; rfl)))
    ⟨hm.trans hmem, hp.trans hpoison, ?_, ?_⟩
  · rw [rdF_congr hregs, hown]
  · rw [rdF_congr hregs, hchip]

end

end Sys2Proof.Machine

/-! # Transfers complete (R111, R115, R243, R326) -/

namespace Sys2Proof.Machine

/-! ## Signals go on their way -/

theorem releaseBar_transit (s : State) (o : Obj) : (releaseBar s o).syn.transit = s.syn.transit := by rw [releaseBar_syn]

theorem bwArriveOp_transit (s : State) (c x w : Nat) : (bwArriveOp s c x w).1.syn.transit = s.syn.transit := by
  unfold bwArriveOp
  dsimp only
  split
  · rfl
  · split
    · exact releaseBar_transit ..
    · rfl

theorem gbArriveOp_transit (s : State) (c x g : Nat) (m : W32) : (gbArriveOp s c x g m).1.syn.transit = s.syn.transit := by
  unfold gbArriveOp
  dsimp only
  generalize (if (s.group x g).inProgress then (s.group x g).arrived else 0) ||| 1#32 <<< c = a
  split
  · rfl
  · split
    · rfl
    · rename_i s1 hclaim
      have h1 : s1.syn.transit = s.syn.transit := by
        split at hclaim
        · cases hclaim; rfl
        · split at hclaim
          · cases hclaim; rfl
          · cases hclaim
      split
      · refine (releaseBar_transit ..).trans ?_
        split <;> exact h1
      · exact h1

theorem gbPerform_transit (s : State) (c x g : Nat) (m : W32) (eng : BitVec 7) (p : Nat) :
    (gbPerform s c x g m eng p).1.syn.transit = s.syn.transit := by
  have h := gbArriveOp_transit s c x g m
  unfold gbPerform
  split <;> rename_i heq <;> rw [heq] at h
  · exact h
  · exact h
  · exact (congrArg Syn.transit (noteArrival_syn ..)).trans h

/-- `t` comes from `s` by release operations and the ends of commands: memory, the links and every transfer stay, and
signals have gone on their way behind those that were. -/
structure Settles (s t : State) : Prop where
  mem : t.mem = s.mem
  lnk : t.lnk = s.lnk
  xfers : ∀ k, (t.core k).xfers = (s.core k).xfers
  sends : ∃ more, t.syn.transit = s.syn.transit ++ more

theorem Settles.refl (s : State) : Settles s s := ⟨rfl, rfl, fun _ => rfl, [], (List.append_nil _).symm⟩

theorem Settles.trans {s t u : State} (h : Settles s t) (h' : Settles t u) : Settles s u := by
  obtain ⟨more, hm⟩ := h.sends
  obtain ⟨more', hm'⟩ := h'.sends
  exact ⟨h'.mem.trans h.mem, h'.lnk.trans h.lnk, fun k => (h'.xfers k).trans (h.xfers k), more ++ more',
    by rw [hm', hm, List.append_assoc]⟩

theorem Settles.foldl {α : Type} {f : State → α → State} (h : ∀ t a, Settles t (f t a)) (l : List α) (s : State) :
    Settles s (l.foldl f s) := by
  induction l generalizing s with
  | nil => exact .refl s
  | cons a l ih => exact (h s a).trans (ih _)

section
variable (s : State)

theorem settles_of_calm {t : State} (h : t.calm = s.calm) (ht : ∃ more, t.syn.transit = s.syn.transit ++ more) :
    Settles s t :=
  ⟨calm_mem h, calm_lnk h, fun k => (congrArg Core.xfers (calm_core h k) :), ht⟩

theorem settles_sendSignal (g : Signal) : Settles s (sendSignal s g) := ⟨rfl, rfl, fun _ => rfl, [g], rfl⟩

theorem settles_setCore {c : Nat} {x : Core} (h : x.xfers = (s.core c).xfers) : Settles s (s.setCore c x) := by
  refine ⟨rfl, rfl, fun k => ?_, [], (List.append_nil _).symm⟩
  rw [core_setCore]
  split
  · rename_i hk; rw [h, hk]
  · rfl

theorem settles_setEng (c : Nat) (e : CE) (y : ClEng) : Settles s (s.setEng c e y) := settles_setCore s (Core.setEng_xfers ..)

theorem settles_cmdEnd (r : CmdRef) (c : Nat) : Settles s (cmdEnd s r c) :=
  ⟨rfl, rfl, fun _ => rfl, [], (List.append_nil _).symm⟩

theorem settles_trcEng (kind c : Nat) (e : Eng) (ctx : Nat) (r : CmdRef) (tag : W16) (o : Nat) :
    Settles s (trcEng s kind c e ctx r tag o) := by
  obtain ⟨m, t, h, he⟩ := trcEng_eq s kind c e ctx r tag o
  rw [he]
  exact ⟨rfl, rfl, fun _ => rfl, [], (List.append_nil _).symm⟩

theorem settles_cmdFault (r : CmdRef) (cause : Nat) (eng : Option (BitVec 7)) : Settles s (cmdFault s r cause eng) :=
  ⟨rfl, rfl, fun _ => rfl, [], (List.append_nil _).symm⟩

theorem settles_engineFault (f : Nat) (r : FltRec) : Settles s (engineFault s f r) := by
  obtain ⟨g, l, h, hf⟩ := engineFault_eq s f r
  rw [hf]
  exact ⟨rfl, rfl, fun _ => rfl, [], (List.append_nil _).symm⟩

theorem settles_relPerform (c : Nat) (e : CE) (r : RelWait) : Settles s (relPerform s c e r) := by
  refine settles_of_calm s (relPerform_calm ..) ?_
  unfold relPerform
  dsimp only
  split
  · exact ⟨_, rfl⟩
  · rename_i w _
    have h := bwArriveOp_transit s c (s.eng c e).ctx w
    refine ⟨[], ?_⟩
    rw [List.append_nil]
    split <;> rename_i heq <;> rw [heq] at h
    · exact (congrArg Syn.transit (noteArrival_syn ..)).trans h
    · exact h
  · rename_i g m _
    have h := gbPerform_transit s c (s.eng c e).ctx g m (engId c (CE.eng e)) 0
    refine ⟨[], ?_⟩
    rw [List.append_nil]
    split <;> rename_i heq <;> rw [heq] at h
    · exact h
    · exact h

theorem settles_flush (c : Nat) (e : CE) : Settles s (flush s c e) := by
  have h (l : List RelWait) (t : State) : Settles t (flushRel t c e l) := by
    induction l generalizing t with
    | nil => exact settles_setEng ..
    | cons r l ih =>
      unfold flushRel
      split
      · exact (settles_relPerform t c e r).trans (ih _)
      · exact settles_setEng ..
  exact h ..

theorem settles_flushSaved (c : Nat) : Settles s (flushSaved s c) := by
  refine Settles.foldl (fun t v => ?_) _ _
  dsimp only
  split
  · exact .refl t
  · refine (Settles.foldl (fun u r => ?_) _ t).trans (settles_setCore _ (by rfl))
    split
    · exact settles_sendSignal ..
    · exact .refl u

theorem settles_settleQuit (c : Nat) (v : StreamSave) : Settles s (settleQuit s c v) := by
  unfold settleQuit
  extract_lets y sigs s1 rest x s2
  have h1 : Settles s s1 := Settles.foldl (fun u r => by
    split
    · exact settles_sendSignal ..
    · exact .refl u) _ s
  split
  · exact (h1.trans (settles_setCore s1 (by rfl))).trans ((settles_trcEng ..).trans (settles_cmdEnd ..))
  · exact h1.trans (settles_setCore s1 (by rfl))

theorem settles_settleQuits (c : Nat) : Settles s (settleQuits s c) :=
  Settles.foldl (fun t v => settles_settleQuit t c v) _ s

end

/-! ## TRANSFER_COMPLETE -/

/-- The state without transfer `x` of core `c`. -/
def State.dropXfer (s : State) (c : Nat) (x : Xfer) : State :=
  s.setCore c { s.core c with xfers := (s.core c).xfers.filter (fun y => y.id != x.id) }

/-- The signal of a completed transfer `x` of core `c`, where it sends one from here. -/
def Xfer.signals (x : Xfer) (c : Nat) : List Signal :=
  if x.sig && !x.isPut then
    [{ ctx := x.ctx, conj := x.conj, n := 1, short := false, src := sigSrc c .tx x.ctx x.pc }] else []

section
variable (s : State) (c : Nat) (x : Xfer)

theorem dropXfer_xfers : ((s.dropXfer c x).core c).xfers = (s.core c).xfers.filter (fun y => y.id != x.id) := by
  simp [State.dropXfer]

/-- A completed transfer is gone, and its signal is the first that goes on its way. -/
theorem completeXfer_spec :
    ((completeXfer s c x false).core c).xfers = (s.core c).xfers.filter (fun y => y.id != x.id) ∧
    (completeXfer s c x false).mem = s.mem ∧ (completeXfer s c x false).lnk = s.lnk ∧
    ∃ more, (completeXfer s c x false).syn.transit = s.syn.transit ++ x.signals c ++ more := by
  unfold completeXfer
  extract_lets k s1 s2 s3
  have h2 : s2.syn.transit = s.syn.transit ++ x.signals c := by
    unfold s2 Xfer.signals
    split
    · rfl
    · exact (List.append_nil _).symm
  have hmem : s2.mem = s.mem := by unfold s2; split <;> rfl
  have hlnk : s2.lnk = s.lnk := by unfold s2; split <;> rfl
  have hcore : s2.core c = (s.dropXfer c x).core c := by unfold s2; split <;> rfl
  have h3 : Settles s2 s3 := by
    unfold s3
    split
    · exact settles_flush ..
    · exact .refl s2
  obtain ⟨m, l, hx, more, hs⟩ := (h3.trans (settles_flushSaved s3 c)).trans (settles_settleQuits _ c)
  exact ⟨by rw [hx, hcore, dropXfer_xfers], m.trans hmem, l.trans hlnk, more, by rw [hs, h2]⟩

end

section
variable {s : State} {c : CoreId} {n : Nat} {x : Xfer}

/-- A transfer that has had its effect completes. -/
theorem exec_transferComplete_of_done (hck : s.clocked = true) (hx : (s.core c).xfers.find? (fun y => y.id == n) = some x)
    (hg : x.isGet = false) (hl : x.flitsLeft = 0) (hj : x.job = none) :
    exec (.transferComplete c n) s = done s (completeXfer s c x false) := by
  show execTransferComplete c n s = _
  simp [execTransferComplete, hx, hck, hg, hl, hj]

/-- One that has yet to have its effect, with none before it that has, acts first. -/
theorem exec_transferComplete_of_job {j : XJob} (hck : s.clocked = true)
    (hx : (s.core c).xfers.find? (fun y => y.id == n) = some x) (hg : x.isGet = false) (hl : x.flitsLeft = 0)
    (hj : x.job = some j) (ho : ∀ y ∈ (s.core c).xfers, y.cmd = x.cmd → y.id ≠ n → y.job = none) :
    exec (.transferComplete c n) s =
      let t := actJob s c x j
      let u := if (t.core c).xfers.any (fun y => y.id == n) then completeXfer t c x false else t
      done s (actWaiting c x.cmd (u.core c).xfers.length u) := by
  have hid : x.id = n := by simpa using List.find?_some hx
  have hfirst : (s.core c).xfers.any (fun y => y.cmd == x.cmd && y.job.isSome && decide (y.id < x.id)) = false := by
    refine List.any_eq_false.2 fun y hy => ?_
    by_cases hc : y.cmd = x.cmd
    · by_cases hn : y.id = n
      · simp [hn, hid]
      · simp [ho y hy hc hn]
    · simp [hc]
  show execTransferComplete c n s = _
  unfold execTransferComplete
  rw [hx]
  dsimp only
  rw [if_neg (by simp [hck, hg, hl]), hj]
  dsimp only
  rw [if_neg (by simp [hfirst])]

/-- With nothing of a command left to act, no more acts. -/
theorem actWaiting_of_none {r : CmdRef} (h : ∀ y ∈ (s.core c).xfers, y.cmd = r → y.job = none) (k : Nat) :
    actWaiting c r k s = s := by
  cases k with
  | zero => rfl
  | succ k =>
    have hno : (s.core c).xfers.find? (fun y => y.cmd == r && y.job.isSome) = none := by
      refine List.find?_eq_none.2 fun y hy => ?_
      by_cases hc : y.cmd = r
      · simp [h y hy hc]
      · simp [hc]
    unfold actWaiting
    rw [hno]

end

/-- Marking a transfer does not show once it is gone. -/
theorem filter_map_job (l : List Xfer) (x : Xfer) :
    (l.map (fun y => if y.id = x.id then { y with job := none } else y)).filter (fun y => y.id != x.id)
      = l.filter (fun y => y.id != x.id) := by
  induction l with
  | nil => rfl
  | cons y l ih =>
    rw [List.map_cons, List.filter_cons, List.filter_cons, ih]
    by_cases h : y.id = x.id
    · simp [h]
    · simp [h]

/-- A transfer whose work fails is gone; what its work left in memory stays. -/
theorem xferFail_spec (t : State) (c : Nat) (x : Xfer) (e : XF) :
    ((xferFail t c x e).core c).xfers = (t.core c).xfers.filter (fun y => y.id != x.id) ∧ (xferFail t c x e).mem = t.mem ∧
    ((t.eng c .tx).busy = true → (t.eng c .tx).cmd = x.cmd → ((xferFail t c x e).eng c .tx).faultCause = some e.code) := by
  have hd : (t.dropXfer c x).eng c .tx = t.eng c .tx := by simp [State.dropXfer, State.eng]
  unfold xferFail
  extract_lets k s1 y s2 s3 z
  have hs1 : s1 = t.dropXfer c x := rfl
  have hy : y = t.eng c .tx := hd
  split
  · refine ⟨?_, (engFail_mem ..).trans rfl, fun _ _ => by simp [ClEng.faulted]⟩
    rw [engFail_core, if_pos rfl, Core.setEng_xfers, hs1, dropXfer_xfers]
  · rename_i hn
    have h2 : Settles s1 s2 := settles_engineFault ..
    have h3 : Settles s2 s3 := settles_cmdFault ..
    have h4 : Settles s3 (s3.setCore c { z with streams := z.streams.map (fun v =>
      if v.eng.cmd = x.cmd then { v with eng := { v.eng with faultCause := some e.code, clause := none } } else v) }) :=
      settles_setCore s3 (by rfl)
    obtain ⟨m, -, hx, -⟩ := ((h2.trans h3).trans h4).trans (settles_settleQuits _ c)
    rw [hs1] at m hx
    exact ⟨by rw [hx, dropXfer_xfers], m, fun hb hc => absurd ⟨hy ▸ hb, hy ▸ hc⟩ hn⟩

section
variable {s u : State} {c : CoreId} {n : Nat} {x : Xfer} {j : XJob}

/-- What a transfer's own completion leaves, whether its work fails or not. -/
theorem completed_actJob (hx : (s.core c).xfers.find? (fun y => y.id == n) = some x) {r : Option XF}
    (hb : jobBody c x.cmd.fn x.cmd j (j.xop c x.cmd.fn x.ctx) s = (u, r)) :
    let t := actJob s c x j
    let v := if (t.core c).xfers.any (fun y => y.id == n) then completeXfer t c x false else t
    (v.core c).xfers = (s.core c).xfers.filter (fun y => y.id != x.id) ∧ v.mem = u.mem ∧
    ∀ e, r = some e → (s.eng c .tx).busy = true → (s.eng c .tx).cmd = x.cmd → (v.eng c .tx).faultCause = some e.code := by
  have hid : x.id = n := by simpa using List.find?_some hx
  have hbe : u.beside = s.beside := by
    have h := jobBody_beside s c x.cmd.fn x.cmd j (j.xop c x.cmd.fn x.ctx)
    rwa [hb] at h
  have hxf : (u.core c).xfers = (s.core c).xfers := beside_xfers hbe c
  intro t v
  cases r with
  | some e =>
    have ht : t = xferFail u c x e := by
      unfold t actJob
      rw [hb]
    obtain ⟨hx', hm, hf⟩ := xferFail_spec u c x e
    have hv : v = xferFail u c x e := by
      unfold v
      rw [ht, if_neg]
      simp [hx', ← hid]
    rw [hv]
    refine ⟨hx'.trans (by rw [hxf]), hm, fun e' he hbusy hcmd => ?_⟩
    cases he
    rw [← beside_eng hbe] at hbusy hcmd
    exact hf hbusy hcmd
  | none =>
    have ht : t = u.setCore c { u.core c with xfers := (u.core c).xfers.map (fun y => if y.id = x.id then { y with job := none } else y) } := by
      unfold t actJob
      rw [hb]
    have htx : (t.core c).xfers = (s.core c).xfers.map (fun y => if y.id = x.id then { y with job := none } else y) := by
      rw [ht, ← hxf]; simp
    have hany : (t.core c).xfers.any (fun y => y.id == n) = true := by
      rw [htx]
      refine List.any_eq_true.2 ⟨_, List.mem_map_of_mem (List.mem_of_find?_eq_some hx), ?_⟩
      simp [hid]
    obtain ⟨hx', hm, -⟩ := completeXfer_spec t c x
    have hv : v = completeXfer t c x false := if_pos hany
    rw [hv]
    refine ⟨?_, hm.trans (by rw [ht]; rfl), fun e he => by cases he⟩
    rw [hx', htx, filter_map_job]

theorem runs_transferComplete_of_job (hck : s.clocked = true)
    (hx : (s.core c).xfers.find? (fun y => y.id == n) = some x) (hg : x.isGet = false) (hl : x.flitsLeft = 0)
    (hj : x.job = some j) (ho : ∀ y ∈ (s.core c).xfers, y.cmd = x.cmd → y.id ≠ n → y.job = none) :
    let out := jobBody c x.cmd.fn x.cmd j (j.xop c x.cmd.fn x.ctx) s
    Runs (.transferComplete c n) s (fun t =>
      (t.core c).xfers = (s.core c).xfers.filter (fun y => y.id != x.id) ∧ t.mem = out.1.mem ∧
      (∀ e, out.2 = some e → (s.eng c .tx).busy = true → (s.eng c .tx).cmd = x.cmd →
        (t.eng c .tx).faultCause = some e.code)) := by
  intro out
  have hid : x.id = n := by simpa using List.find?_some hx
  obtain ⟨hxf, hm, hf⟩ := completed_actJob (u := out.1) (r := out.2) hx rfl
  have hex := exec_transferComplete_of_job hck hx hg hl hj ho
  dsimp only at hex hxf hm hf
  generalize (if ((actJob s c x j).core c).xfers.any (fun y => y.id == n) then completeXfer (actJob s c x j) c x false
    else actJob s c x j) = v at hex hxf hm hf
  rw [actWaiting_of_none] at hex
  · exact runs_of_answering hex ⟨hxf, hm, hf⟩
  · intro y hy hc
    rw [hxf] at hy
    obtain ⟨hy, hne⟩ := List.mem_filter.1 hy
    exact ho y hy hc (by simpa [hid] using hne)

end

/-- A row whose slot does `body`. -/
theorem runs_of_xferRow_body {s : State} {c : CoreId} {op i : Nat} {w : W64} {k : Clause} {ins : Instr}
    {body : Nat → Nat → CmdRef → XJob → XOp → State → State × Option XF} (hi : exec ins s = xferRow c op s)
    (hbody : ∀ {j : XJob}, j.op = op → ∀ f c r o s, jobBody c f r j o s = body f c r j o s)
    (h : s.heads c .tx .xfer op i w) (hk : (s.eng c .tx).clause = some k) :
    let out := body (s.eng c .tx).fn c (s.eng c .tx).cmd (s.xjob c op i w.toNat k) (s.xop c w.toNat) (s.popSlot c .tx)
    Runs ins s (fun t =>
      (∀ u, out = (u, none) → (s.popSlot c .tx).actsNow c (s.xop c w.toNat) → Issued t u c (s.eng c .tx) w.toNat none) ∧
      (∀ u, out = (u, none) → ¬ (s.popSlot c .tx).actsNow c (s.xop c w.toNat) →
        Issued t s c (s.eng c .tx) w.toNat (some (s.xjob c op i w.toNat k))) ∧
      (∀ u e, out = (u, some e) → t.mem = u.mem ∧ (t.core c).xfers = (u.core c).xfers ∧
        (t.eng c .tx).faultCause = some e.code)) :=
  runs_of_xferRow hi h hk (by rw [State.xferBody, xjob_of_clause hk]; exact hbody rfl ..)

/-- Settles O30: a row's transfer is issued or ends its stream; a bad index is dropped; a transfer completes, with its work first
where that is yet to be done. -/
theorem txTransfersActAndComplete : Obligations.TxTransfersActAndComplete := by
  unfold Obligations.TxTransfersActAndComplete
  refine ⟨?_, ?_, ?_, ?_⟩
  · simp only [List.forall_mem_cons, List.not_mem_nil, false_implies, implies_true, and_true]
    refine ⟨?_, ?_, ?_, ?_, ?_, ?_, ?_⟩ <;> intro c i w k s h hk
    · exact runs_of_xferRow_body (by rfl) (fun hj _ _ _ _ _ => jobBody_copy hj) h hk
    · exact runs_of_xferRow_body (by rfl) (fun hj _ _ _ _ _ => jobBody_reshape hj) h hk
    · exact runs_of_xferRow_body (by rfl) (fun hj _ _ _ _ _ => jobBody_convert hj) h hk
    · exact runs_of_xferRow_body (by rfl) (fun hj _ _ _ _ _ => jobBody_gather hj) h hk
    · exact runs_of_xferRow_body (by rfl) (fun hj _ _ _ _ _ => jobBody_scatter hj) h hk
    · exact runs_of_xferRow_body (by rfl) (fun hj _ _ _ _ _ => jobBody_embedPool hj) h hk
    · exact runs_of_xferRow_body (by rfl) (fun hj _ _ _ _ _ => jobBody_embedGather hj) h hk
  · intro sc c i x f w u s h hf _ o hn hi hb
    subst hf
    cases sc with
    | true => exact runs_of_dropped (by rfl) h hn ((jobBody_scatter rfl).trans (scatterBody_of_bad hi hb))
    | false => exact runs_of_dropped (by rfl) h hn ((jobBody_gather rfl).trans (gatherBody_of_bad hi hb))
  · intro c n x s hck hx hg hl hj
    have hex := exec_transferComplete_of_done hck hx hg hl hj
    have hspec := completeXfer_spec s c x
    generalize completeXfer s c x false = t at hex hspec
    exact runs_of_answering hex hspec
  · exact fun c n x j s hck hx hg hl hj ho => runs_transferComplete_of_job hck hx hg hl hj ho

end Sys2Proof.Machine

/-! # The matrix engine (R133 to R146)

A slot of the MX sets its own engine: loads, drains, SHIFT and ZERO put writes in flight, and an MMA begins a run. One rule
for all (`runs_of_slotRowS`), and one per row; of the whole state only an MMA of operands that may not meet changes more. -/

namespace Sys2Proof.Machine

/-! ## Writes in flight (R123) -/

/-- A write put in flight is there with all that were. -/
theorem mem_insLand {l : List Land} {x z : Land} : z ∈ insLand l x ↔ z = x ∨ z ∈ l := by
  have hl : z ∈ l ↔ z ∈ l.takeWhile (fun y => y.at_ ≤ x.at_) ∨ z ∈ l.dropWhile (fun y => y.at_ ≤ x.at_) := by
    rw [← List.mem_append, List.takeWhile_append_dropWhile]
  rw [insLand, List.mem_append, List.mem_cons, hl]
  exact or_left_comm

theorem length_insLand (l : List Land) (x : Land) : (insLand l x).length = l.length + 1 := by
  have hl := congrArg List.length (List.takeWhile_append_dropWhile (p := fun y : Land => decide (y.at_ ≤ x.at_)) (l := l))
  rw [List.length_append] at hl
  rw [insLand, List.length_append, List.length_cons]
  omega

/-- The engine with `n` more writes in flight, put there in turn. -/
def ClEng.flyRows (y : ClEng) (n : Nat) (f : Nat → Land) : ClEng := (List.range n).foldl (fun z r => z.fly (f r)) y

theorem ClEng.flyRows_succ (y : ClEng) (n : Nat) (f : Nat → Land) : y.flyRows (n + 1) f = (y.flyRows n f).fly (f n) := by
  simp [flyRows, List.range_succ]

theorem ClEng.flyRows_only_inflight (y : ClEng) (n : Nat) (f : Nat → Land) :
    y.flyRows n f = { y with inflight := (y.flyRows n f).inflight } := by
  induction n with
  | zero => rfl
  | succ n ih => rw [flyRows_succ, ih]; rfl

theorem ClEng.mem_flyRows {y : ClEng} {n : Nat} {f : Nat → Land} {z : Land} :
    z ∈ (y.flyRows n f).inflight ↔ (∃ j < n, f j = z) ∨ z ∈ y.inflight := by
  induction n with
  | zero => simp [flyRows]
  | succ n ih =>
    rw [flyRows_succ, fly, mem_insLand, ih]
    simp only [Nat.lt_succ_iff_lt_or_eq, or_and_right, exists_or, exists_eq_left, @eq_comm _ z]
    exact or_assoc.symm.trans (or_congr_left or_comm)

theorem ClEng.length_flyRows (y : ClEng) (n : Nat) (f : Nat → Land) :
    (y.flyRows n f).inflight.length = y.inflight.length + n := by
  induction n with
  | zero => rfl
  | succ n ih => rw [flyRows_succ, fly, length_insLand, ih, Nat.add_assoc]

/-! ## The end of an execution -/

section
variable (y : ClEng)

@[simp] theorem ClEng.endExec_mmas : y.endExec.mmas = y.mmas := by unfold endExec; split <;> [rfl; (dsimp only; split <;> rfl)]
@[simp] theorem ClEng.endExec_drains : y.endExec.drains = y.drains := by
  unfold endExec; split <;> [rfl; (dsimp only; split <;> rfl)]
@[simp] theorem ClEng.endExec_faultCause : y.endExec.faultCause = y.faultCause := by
  unfold endExec; split <;> [rfl; (dsimp only; split <;> rfl)]

@[simp] theorem ClEng.acted_mmas : y.acted.mmas = y.mmas := by unfold acted; split <;> simp
@[simp] theorem ClEng.acted_drains : y.acted.drains = y.drains := by unfold acted; split <;> simp
@[simp] theorem ClEng.acted_faultCause : y.acted.faultCause = y.faultCause := by unfold acted; split <;> simp

end

/-! ## Rows of the MX -/

section
variable {s : State} {c : CoreId} {i : Nat} {w : W64} {ins : Instr}

/-- A row whose slot sets its own engine to `z`: the execution goes on, and nothing but the engine changes. -/
theorem runs_of_slotRowS {ty : SlotTy} {op : Nat} {act : State → ClEng → Nat → Nat → State} {z : ClEng} {P : State → Prop}
    (hi : exec ins s = slotRowS c .mx ty op s act) (h : s.heads c .mx ty op i w)
    (hact : act (s.popSlot c .mx) (s.eng c .mx).pop i w.toNat = (s.popSlot c .mx).setEng c .mx z)
    (hp : ∀ t, OnlyEngine s t c .mx → t.eng c .mx = z.acted → P t) : Runs ins s P := by
  have hz := ((engSet_setEng s c .mx (s.eng c .mx).pop).setEng z).slotDone
  refine ⟨_, ?_, hp _ hz.onlyEngine hz.eng⟩
  have hrow := slotRowS_of_heads (act := act) h
  rw [hi, hrow, show s.setEng c .mx (s.eng c .mx).pop = s.popSlot c .mx from rfl, hact]
  exact hz.done

/-! ### Loads (R136, R137) -/

/-- The lines that load slot `w` reads of its noun. -/
def State.loadLines (s : State) (c : CoreId) (w : W64) : State × (List (List (Nat × Nat)) ⊕ XF) :=
  ldLines (s.popSlot c .mx) (.ls c (s.eng c .mx).ctx) ((s.eng c .mx).noun (fld w.toNat 12 12))
    ((s.eng c .mx).gen (fld w.toNat 8 3)).addr.toNat (fld w.toNat 24 8 + 1)

/-- The engine that has put the rows of load slot `i` in flight, the first of them after `lat` cycles. -/
def State.rowsFlying (s u : State) (c : CoreId) (i : Nat) (w : W64) (lines : List (List (Nat × Nat))) (lat : Nat)
    (pos : Nat → Nat) (mk : Nat → Nat → Nat → List (Nat × W16) → Write) : ClEng :=
  let y := s.eng c .mx
  let n := y.noun (fld w.toNat 12 12)
  let b := fld w.toNat 11 1
  (u.eng c .mx).flyRows ((fld w.toNat 24 8 + 1) / rpk n.fmt * rpk n.fmt)
    (fun j => ⟨y.now + lat + j, y.now, i, mk b j n.fmt (laneRow n.fmt lines (pos b) j)⟩)

theorem runs_of_loadRow {op lat : Nat} {pos : Nat → Nat} {mk : Nat → Nat → Nat → List (Nat × W16) → Write} {u : State}
    {lines : List (List (Nat × Nat))} (hi : exec ins s = loadRow c op lat s pos mk) (h : s.heads c .mx .load op i w)
    (hl : s.loadLines c w = (u, .inl lines)) : Runs ins s (fun t =>
      let y := s.eng c .mx
      let n := y.noun (fld w.toNat 12 12)
      let b := fld w.toNat 11 1
      let rows := (fld w.toNat 24 8 + 1) / rpk n.fmt * rpk n.fmt
      (∀ j < rows, (⟨y.now + lat + j, y.now, i, mk b j n.fmt (laneRow n.fmt lines (pos b) j)⟩ : Land) ∈ (t.eng c .mx).inflight) ∧
      (∀ x ∈ (u.eng c .mx).inflight, x ∈ (t.eng c .mx).inflight) ∧
      (t.eng c .mx).inflight.length = (u.eng c .mx).inflight.length + rows ∧
      (t.core c).bufs = (u.core c).bufs ∧ (t.core c).banks = (u.core c).banks ∧ t.mem = u.mem ∧ t.syn = u.syn ∧
      t.hq = u.hq ∧ t.lnk = u.lnk) := by
  have hrow : loadRow c op lat s pos mk = done s (slotDone (u.setEng c .mx (s.rowsFlying u c i w lines lat pos mk)) c .mx) := by
    simp only [loadRow, h.headSlot]
    rw [show ldLines (s.setEng c .mx (s.eng c .mx).pop) (.ls c (s.eng c .mx).pop.ctx)
      ((s.eng c .mx).pop.noun (sNoun w.toNat)) ((s.eng c .mx).pop.gen (sAg w.toNat)).addr.toNat (sRows w.toNat)
        = (u, .inl lines) from hl]
    rfl
  have hz := ((EngSet.self u c .mx).setEng (s.rowsFlying u c i w lines lat pos mk)).slotDone
  refine runs_of_answering (hi.trans hrow) ?_
  simp only [State.answering_eng, hz.eng, ClEng.acted_inflight]
  refine ⟨fun j hj => ClEng.mem_flyRows.2 (.inl ⟨j, hj, rfl⟩), fun x hx => ClEng.mem_flyRows.2 (.inr hx),
    ClEng.length_flyRows .., ?_⟩
  obtain ⟨ht, hc, -⟩ := hz
  rw [State.answering_core, hc, ht]
  simp

/-! ### Drains (R146) -/

/-- The drain that slot `w` begins. -/
def State.drainRun (s : State) (c : CoreId) (w : W64) : DrainRun :=
  let y := s.eng c .mx
  let b := (s.core c).banks.get {} (fld w.toNat 11 1)
  { id := y.fresh, issued := y.now, rows := fld w.toNat 24 8 + 1, bank := fld w.toNat 11 1, noun := y.noun (fld w.toNat 12 12)
    base := (y.gen (fld w.toNat 8 3)).addr.toNat
    cap := (List.range (fld w.toNat 24 8 + 1)).map (fun j => (b.isInt, b.row j)) }

/-- The engine that has begun the drain. -/
def State.draining (s : State) (c : CoreId) (i : Nat) (w : W64) : ClEng :=
  let y := s.eng c .mx
  ({ y.pop with drains := y.drains ++ [s.drainRun c w], fresh := y.fresh + 1 } : ClEng).flyRows (fld w.toNat 24 8 + 1)
    (fun j => ⟨y.now + 20 + j, y.now, i, .drain y.fresh j⟩)

theorem drainIssue_popSlot : drainIssue c (s.popSlot c .mx) (s.eng c .mx).pop i w.toNat = s.draining c i w := by
  have hb : ((s.popSlot c .mx).core c).banks = (s.core c).banks := by simp [State.popSlot]
  simp only [drainIssue, hb]
  rfl

theorem draining_drains : (s.draining c i w).drains = (s.eng c .mx).drains ++ [s.drainRun c w] := by
  rw [State.draining, ClEng.flyRows_only_inflight]

/-- ... and zeroes the bank behind it where it is a DRAIN.Z. -/
def State.drainingTo (s : State) (z : Bool) (c : CoreId) (i : Nat) (w : W64) : ClEng :=
  if z then (s.draining c i w).fly ⟨(s.eng c .mx).now + 257, (s.eng c .mx).now, i, .zero (fld w.toNat 11 1)⟩
  else s.draining c i w

theorem drainingTo_drains (z : Bool) : (s.drainingTo z c i w).drains = (s.eng c .mx).drains ++ [s.drainRun c w] := by
  cases z <;> exact draining_drains

theorem mem_drainingTo {z : Bool} {x : Land} (h : x ∈ (s.draining c i w).inflight) : x ∈ (s.drainingTo z c i w).inflight := by
  cases z
  · exact h
  · exact mem_insLand.2 (.inr h)

theorem runs_of_drain {z : Bool} {op : Nat} {act : State → ClEng → Nat → Nat → State}
    (hi : exec ins s = slotRowS c .mx .store op s act) (h : s.heads c .mx .store op i w)
    (hact : act (s.popSlot c .mx) (s.eng c .mx).pop i w.toNat = (s.popSlot c .mx).setEng c .mx (s.drainingTo z c i w)) :
    Runs ins s (fun t =>
      let y := s.eng c .mx
      let rows := fld w.toNat 24 8 + 1
      let bank := fld w.toNat 11 1
      let b := (s.core c).banks.get {} bank
      OnlyEngine s t c .mx ∧
      (∀ j < rows, (⟨y.now + 20 + j, y.now, i, .drain y.fresh j⟩ : Land) ∈ (t.eng c .mx).inflight) ∧
      (z = true → (⟨y.now + 257, y.now, i, .zero bank⟩ : Land) ∈ (t.eng c .mx).inflight) ∧
      (∀ x ∈ y.inflight, x ∈ (t.eng c .mx).inflight) ∧
      ∃ d ∈ (t.eng c .mx).drains, d.id = y.fresh ∧ d.bank = bank ∧ d.rows = rows ∧ d.noun = y.noun (fld w.toNat 12 12) ∧
        d.base = (y.gen (fld w.toNat 8 3)).addr.toNat ∧ d.cap = (List.range rows).map (fun j => (b.isInt, b.row j))) :=
  runs_of_slotRowS hi h hact fun t ho ht => by
    rw [ht]
    simp only [ClEng.acted_inflight, ClEng.acted_drains, drainingTo_drains]
    refine ⟨ho, fun j hj => mem_drainingTo (ClEng.mem_flyRows.2 (.inl ⟨j, hj, rfl⟩)), fun hz => ?_,
      fun x hx => mem_drainingTo (ClEng.mem_flyRows.2 (.inr hx)),
      s.drainRun c w, List.mem_append_right _ (List.mem_singleton_self _), rfl, rfl, rfl, rfl, rfl, rfl⟩
    subst hz
    exact mem_insLand.2 (.inl rfl)

end

/-- Settles O27: a load and a drain are one row each, with their own latency. -/
theorem mxLoadsAndDrainsPutRowsInFlight : Obligations.MxLoadsAndDrainsPutRowsInFlight := by
  unfold Obligations.MxLoadsAndDrainsPutRowsInFlight
  refine ⟨?_, fun z c i w s h => ?_⟩
  · simp only [List.forall_mem_cons, List.not_mem_nil, false_implies, implies_true, and_true]
    refine ⟨?_, ?_, ?_⟩ <;> intro c i w u lines s h hl
    · exact runs_of_loadRow (show exec _ _ = execLdA c s from rfl) h hl
    · exact runs_of_loadRow (show exec _ _ = execLdB c s from rfl) h hl
    · exact runs_of_loadRow (show exec _ _ = execLdRow c s from rfl) h hl
  · cases z
    · exact runs_of_drain (z := false) (show exec _ _ = execDrain c s from rfl) h (congrArg _ drainIssue_popSlot)
    · exact runs_of_drain (z := true) (show exec _ _ = execDrainZ c s from rfl) h
        (congrArg (fun y : ClEng => (s.popSlot c .mx).setEng c .mx (y.fly _)) drainIssue_popSlot)

/-! ### MMA (R138 to R141) -/

/-- The A operand of MMA slot `w`: the held rows, which count as buffer 4, or a buffer. -/
def mmaBufA (w : Nat) : Nat := if fld w 12 4 = 1 then 4 else fld w 9 1

/-- The tag of the operand that MMA slot `w` multiplies by: the held rows' or a buffer's. -/
def Core.fmtA (x : Core) (w : Nat) : Option Nat :=
  if fld w 12 4 = 1 then x.heldRows.fmt else (x.bufs.get {} (mmaBufA w)).fmt

/-- The tag of the operand in the B buffers. -/
def Core.fmtB (x : Core) (w : Nat) : Option Nat := (x.bufs.get {} (2 + fld w 10 1)).fmt

/-- The run that MMA slot `w` of engine `y` captures. -/
def State.mmaRun (t : State) (c op : Nat) (y : ClEng) (w : Nat) : MmaRun :=
  let x := t.core c
  let k := fld w 16 8 + 1
  { id := y.fresh, issued := y.now, k := k, rows := k, bank := fld w 8 1, acc := op == 2, fmtA := x.fmtA w, fmtB := x.fmtB w
    a := capture t x (x.fmtA w) (mmaBufA w) y.now k
    b := capture t x (x.fmtB w) (2 + fld w 10 1) y.now k
    c := (x.banks.get {} (fld w 8 1)).el.entries
    reuse := fld w 12 4 = 1 }

/-- The engine at which an MMA arrives: those that run give up the array (R139). -/
def ClEng.cutMmas (y : ClEng) : ClEng :=
  { y with mmas := y.mmas.map (fun r => { r with rows := Nat.min r.rows (y.now - r.issued) }) }

/-- The engine with the MMA `run` begun. -/
def ClEng.startMma (y : ClEng) (i : Nat) (run : MmaRun) : ClEng :=
  ({ y.cutMmas with mmas := y.cutMmas.mmas ++ [run], fresh := y.fresh + 1 } : ClEng).fly
    ⟨y.now + run.k + 263, y.now, i, .mma y.fresh⟩

/-- Flag 2 of register `a` set and register `b` counted, with the event of `k` cycles of MMA. -/
def noteMismatch (s : State) (a b c k : Nat) : State := monEvent (inc16 (wrF s a 2 1 1) b) 5 c k

theorem noteMismatch_spec (s : State) {a b : Nat} (hab : a ≠ b) (c k : Nat) :
    ∃ g m, noteMismatch s a b c k = { s with regs := g, mon := m } ∧ rdB (noteMismatch s a b c k) a 2 = true ∧
      rdF (noteMismatch s a b c k) b 0 16 = Nat.min (rdF s b 0 16 + 1) 0xFFFF := by
  have hflag : rdB (inc16 (wrF s a 2 1 1) b) a 2 = true := by
    rw [rdB, rd_inc16_other _ _ _ hab]
    exact rdB_wrF s a 2 (by decide)
  have hcount := rdF_inc16_same (wrF s a 2 1 1) b
  rw [rdF_wrF_other _ _ _ _ _ _ _ _ hab.symm] at hcount
  obtain ⟨g, hg, -⟩ := inc16_eq (wrF s a 2 1 1) b
  obtain ⟨m, hm⟩ := monEvent_eq (inc16 (wrF s a 2 1 1) b) 5 c k
  rw [noteMismatch, hm]
  rw [hg] at hflag hcount ⊢
  exact ⟨g, m, rfl, hflag, hcount⟩

theorem mismatch_ne (c : Nat) : coreA c 0x100 ≠ coreA c 0x104 := by unfold coreA; omega

/-- What an MMA slot does: it takes the array where its operands may meet, and notes the mismatch where not. -/
def mmaAct (c op : Nat) (t : State) (y : ClEng) (i w : Nat) : State :=
  if mayMeet ((t.core c).fmtA w) ((t.core c).fmtB w) then t.setEng c .mx (y.startMma i (t.mmaRun c op y w))
  else noteMismatch (t.setEng c .mx y.cutMmas) (coreA c 0x100) (coreA c 0x104) c (fld w 16 8 + 1)

theorem mmaRow_eq (c op : Nat) (s : State) : mmaRow c op s = slotRowS c .mx .op op s (mmaAct c op) := rfl

theorem Core.fmtA_eq (x : Core) (w : Nat) :
    x.fmtA w = if fld w 12 4 = 1 then x.heldRows.fmt else (x.bufs.get {} (fld w 9 1)).fmt := by
  unfold fmtA mmaBufA
  split <;> rfl

section
variable {s : State} {c : CoreId} {i : Nat} {w : W64} {ins : Instr}

theorem popSlot_fmtA (n : Nat) : ((s.popSlot c .mx).core c).fmtA n = (s.core c).fmtA n := by
  simp [Core.fmtA, State.popSlot]

theorem popSlot_fmtB (n : Nat) : ((s.popSlot c .mx).core c).fmtB n = (s.core c).fmtB n := by
  simp [Core.fmtB, State.popSlot]

theorem runs_of_mma {acc : Bool} (hi : exec ins s = mmaRow c (if acc then 2 else 1) s)
    (h : s.heads c .mx .op (if acc then 2 else 1) i w)
    (hm : mayMeet ((s.core c).fmtA w.toNat) ((s.core c).fmtB w.toNat) = true) :
    Runs ins s (fun t =>
      let y := s.eng c .mx
      let k := fld w.toNat 16 8 + 1
      OnlyEngine s t c .mx ∧ (t.eng c .mx).inflight = insLand y.inflight ⟨y.now + k + 263, y.now, i, .mma y.fresh⟩ ∧
      ∃ run ∈ (t.eng c .mx).mmas, run.id = y.fresh ∧ run.issued = y.now ∧ run.k = k ∧ run.rows = k ∧
        run.bank = fld w.toNat 8 1 ∧ run.acc = acc ∧ run.fmtA = (s.core c).fmtA w.toNat ∧
        run.fmtB = (s.core c).fmtB w.toNat) := by
  refine runs_of_slotRowS (hi.trans (mmaRow_eq ..)) h (if_pos (by rw [popSlot_fmtA, popSlot_fmtB]; exact hm)) fun t ho ht => ⟨ho, ?_⟩
  rw [ht, ClEng.acted_inflight, ClEng.acted_mmas]
  refine ⟨rfl, _, List.mem_append_right _ (List.mem_singleton_self _), rfl, rfl, rfl, rfl, rfl, ?_, popSlot_fmtA _, popSlot_fmtB _⟩
  cases acc <;> rfl

/-- R140 of operands that may not meet. -/
theorem runs_of_mismatch {op : Nat} (hi : exec ins s = mmaRow c op s) (h : s.heads c .mx .op op i w)
    (hm : mayMeet ((s.core c).fmtA w.toNat) ((s.core c).fmtB w.toNat) = false) : Runs ins s (fun t =>
      t = { s.ticked with cores := t.cores, regs := t.regs, mon := t.mon } ∧
      (t.eng c .mx).inflight = (s.eng c .mx).inflight ∧ (t.core c).banks = (s.core c).banks ∧
      rdB t (coreA c 0x100) 2 = true ∧ rdF t (coreA c 0x104) 0 16 = Nat.min (rdF s (coreA c 0x104) 0 16 + 1) 0xFFFF ∧
      (t.eng c .mx).faultCause = (s.eng c .mx).faultCause) := by
  have hv := (engSet_setEng s c .mx (s.eng c .mx).pop).setEng (s.eng c .mx).pop.cutMmas
  have hact : mmaAct c op (s.popSlot c .mx) (s.eng c .mx).pop i w.toNat = _ :=
    if_neg (by rw [popSlot_fmtA, popSlot_fmtB, hm]; exact Bool.false_ne_true)
  have hrow := (slotRowS_of_heads h).trans (congrArg (fun u => done s (slotDone u c .mx)) hact)
  rw [show s.popSlot c .mx = s.setEng c .mx (s.eng c .mx).pop from rfl] at hrow
  generalize (s.setEng c .mx (s.eng c .mx).pop).setEng c .mx (s.eng c .mx).pop.cutMmas = v at hv hrow
  obtain ⟨g, m, hu, hflag, hcount⟩ := noteMismatch_spec v (mismatch_ne c) c (fld w.toNat 16 8 + 1)
  generalize noteMismatch v _ _ c (fld w.toNat 16 8 + 1) = u at hrow hflag hcount hu
  subst hu
  have hz := (EngSet.self { v with regs := g, mon := m } c .mx).slotDone
  have heng := hz.eng
  obtain ⟨hv1, hvc, hvo⟩ := hv
  obtain ⟨ht1, htc, -⟩ := hz
  have hcore : v.eng c .mx = (s.eng c .mx).pop.cutMmas := by rw [eng_eq, hvc]; rfl
  refine runs_of_answering (hi.trans ((mmaRow_eq ..).trans hrow)) ⟨?_, ?_, ?_, ?_, ?_, ?_⟩
  · rw [ht1, hv1]; rfl
  · rw [State.answering_eng, heng, ClEng.acted_inflight]
    exact (congrArg ClEng.inflight hcore :)
  · rw [State.answering_core, htc, Core.setEng_banks]
    exact (congrArg Core.banks hvc).trans (Core.setEng_banks ..)
  · rw [ht1]; exact hflag
  · rw [ht1]; exact hcount.trans (by rw [hv1]; rfl)
  · rw [State.answering_eng, heng, ClEng.acted_faultCause]
    exact (congrArg ClEng.faultCause hcore :)

end

/-! ### SHIFT and ZERO (R141, R145) -/

section
variable {s : State} {c : CoreId} {i : Nat} {w : W64}

theorem runs_shift (h : s.heads c .mx .op 3 i w) : Runs (.shift c) s (fun t =>
    OnlyEngine s t c .mx ∧
    (t.eng c .mx).inflight = insLand (s.eng c .mx).inflight ⟨(s.eng c .mx).now + 2, (s.eng c .mx).now, i,
      .shift (s.core c).heldRows.rowFmt (s.core c).heldRows.shift.lanes⟩) :=
  runs_of_slotRowS (show exec _ _ = execShift c s from rfl) h rfl fun t ho ht => ⟨ho, by
    rw [ht, ClEng.acted_inflight]
    have hheld : ((s.popSlot c .mx).core c).heldRows = (s.core c).heldRows := by simp [State.popSlot]
    rw [← hheld]
    rfl⟩

theorem runs_zero (h : s.heads c .mx .op 4 i w) : Runs (.zero c) s (fun t =>
    OnlyEngine s t c .mx ∧
    (t.eng c .mx).inflight = insLand (s.eng c .mx).inflight
      ⟨(s.eng c .mx).now + 2, (s.eng c .mx).now, i, .zero (fld w.toNat 8 1)⟩) :=
  runs_of_slotRow (show exec _ _ = execZero c s from rfl) h fun t ho ht => ⟨ho, by rw [ht, ClEng.acted_inflight]; rfl⟩

end

/-! ### One cell of an INT8 MMA (R143, R144) -/

theorem ofInt_toInt (v : Int) : (ofInt v).toInt .ne = v := by
  simp only [ofInt, Fp.toInt, ge_iff_le, le_refl, if_true, Int.toNat_zero, Nat.shiftLeft_zero, decide_eq_true_eq]
  split <;> omega

theorem clampI_eq {lo hi : Int} (h : lo ≤ hi) (v : Int) : clampI v lo hi = max lo (min hi v) := by
  unfold clampI
  grind

theorem sgn_toNat (x : W32) : sgn x.toNat 32 = x.toInt := by
  rw [BitVec.toInt_eq_toNat_cond, sgn]
  grind

/-- The low byte of a share of an INT8 row. -/
theorem opVal_int8 (g : Nat → W16) : (opVal (some 8) g 0).toInt .ne = sgn ((g 0).toNat % 256) 8 := by
  have hp : (opPat 8 g 0).1 = (g 0).toNat % 256 := by
    simp [opPat, perRow, rpk, rowBits, fld]
  exact (congrArg (fun p => (ofInt (sgn p 8)).toInt .ne) hp).trans (ofInt_toInt _)

theorem toInt_ofInt_clamp (v : Int) :
    (BitVec.ofInt 32 (clampI v (-(2 ^ 31)) (2 ^ 31 - 1))).toInt = max (-(2 ^ 31)) (min (2 ^ 31 - 1) v) := by
  rw [clampI_eq (by decide), BitVec.toInt_ofInt]
  rw [Int.bmod_eq_of_le] <;> omega

theorem mmaCell_int8 {r : MmaRun} (ha : r.fmtA = some 8) (hb : r.fmtB = some 8) (hk : r.k = 1) (hr : r.rows = 1) (m n : Nat)
    (acc : W32) :
    (mmaCell r m n acc).1.toInt = max (-(2 ^ 31)) (min (2 ^ 31 - 1)
      (acc.toInt + sgn (((look r.a m).getD 0).toNat % 256) 8 * sgn (((look r.b n).getD 0).toNat % 256) 8)) := by
  have hfmt : r.fmt = 8 := by rw [MmaRun.fmt, ha]
  have hcell : (mmaCell r m n acc).1 = BitVec.ofInt 32 (clampI (sgn acc.toNat 32
      + (opVal (some 8) (fun j => (look r.a (512 * j + m)).getD 0) 0).toInt .ne
        * (opVal (some 8) (fun j => (look r.b (512 * j + n)).getD 0) 0).toInt .ne) (-(2 ^ 31)) (2 ^ 31 - 1)) := by
    simp only [mmaCell, hfmt, ha, hb, hk, hr]
    rfl
  rw [hcell, toInt_ofInt_clamp, opVal_int8, opVal_int8, sgn_toNat]
  simp

theorem exec_mma (acc : Bool) (c : CoreId) (s : State) :
    exec (if acc then .mmaAcc c else .mma c) s = mmaRow c (if acc then 2 else 1) s := by
  cases acc <;> rfl

/-- Settles O28: an MMA by whether its operands may meet, SHIFT, ZERO, and the INT8 cell. -/
theorem mxOperationsPutResultsInFlight : Obligations.MxOperationsPutResultsInFlight := by
  unfold Obligations.MxOperationsPutResultsInFlight
  refine ⟨⟨fun acc c i w s h => ?_, fun c i w s => runs_shift, fun c i w s => runs_zero⟩,
    fun r m n acc ha hb hk hr => mmaCell_int8 ha hb hk hr m n acc⟩
  dsimp only
  rw [← Core.fmtA_eq]
  refine ⟨fun hm => runs_of_mma (exec_mma acc c s) h hm, fun hm => ?_⟩
  obtain ⟨t, hrun, ht, hfly, hbanks, hflag, hcount, -⟩ := runs_of_mismatch (exec_mma acc c s) h hm
  exact ⟨t, hrun, ht, hfly, hbanks, hflag, hcount⟩

/-! ### Formats that do not meet (R134, R140) -/

/-- The groups of formats of the same kind and rows per K-value (R134). -/
def rowGroup (f : Nat) : Nat := [0, 1, 1, 2, 2, 2, 2, 3, 4, 5].getD f 6

theorem mayMeet_eq_false : ∀ fa ≤ 10, ∀ fb ≤ 10, (rowGroup fa ≠ rowGroup fb ∨ fa = 10 ∨ fb = 10) →
    mayMeet (some fa) (some fb) = false := by decide

/-- Settles O29: formats of two groups, and INT32, do not meet. -/
theorem incompatibleMmaLeavesItsBank : Obligations.IncompatibleMmaLeavesItsBank := by
  unfold Obligations.IncompatibleMmaLeavesItsBank
  intro acc c i fa fb w s h x group ha hb hfa hfb hg
  have hm : mayMeet (x.fmtA w.toNat) (x.fmtB w.toNat) = false := by
    rw [Core.fmtA_eq, ha, Core.fmtB, hb]
    exact mayMeet_eq_false fa hfa fb hfb hg
  obtain ⟨t, hrun, ht, hfly, hbanks, hflag, hcount, hfault⟩ := runs_of_mismatch (exec_mma acc c s) h hm
  exact ⟨t, hrun, ht, hbanks, hfly, hflag, hcount, hfault⟩

end Sys2Proof.Machine

/-! # Gleaning (R148 to R155)

A window closes, a pass takes the array and starts, its requests complete or it faults. -/

namespace Sys2Proof.Machine

/-! ## What a read of memory leaves of the registers of the cores

A read counts errors in the registers of the memories and of RAS, and a noun's fill in one register of its core. -/

/-- The registers of the cores' windows (R371). -/
def CoreRegister (a : Nat) : Prop := 0x1000000 ≤ a ∧ a < 0x1800000

section
variable {a : Nat} (ha : CoreRegister a) (s : State)

theorem monEvent_rd (ev inst n : Nat) : rd (monEvent s ev inst n) a = rd s a := by
  obtain ⟨m, hm⟩ := monEvent_eq s ev inst n
  rw [hm]
  rfl

theorem setTlb_rd (tl : Nat) (l : List TlbEntry) : rd (setTlb s tl l) a = rd s a := by
  unfold setTlb
  split <;> rfl

theorem tlbAdd_rd (tl : Nat) (e : TlbEntry) : rd (tlbAdd s tl e) a = rd s a := setTlb_rd ..

include ha

theorem memCeA_ne (g : Nat) : a ≠ memCeA g ∧ a ≠ memCeA g + 4 := by
  obtain ⟨hlo, hhi⟩ := ha
  unfold memCeA
  split
  · omega
  · split <;> omega

theorem chipErr_rd_core {code : Nat} (hcode : code < 0x100) (sub b i d : Nat) : rd (chipErr s code sub b i d) a = rd s a := by
  obtain ⟨hlo, hhi⟩ := ha
  exact chipErr_rd s code sub b i d a (by omega) (by omega)

theorem eccCorrect_rd (g : Nat) : rd (eccCorrect s g) a = rd s a := by
  rw [eccCorrect, chipErr_rd_core ha _ (by decide)]
  exact rd_inc16_other _ _ _ (memCeA_ne ha g).1

theorem eccLose_rd (g : Nat) : rd (eccLose s g) a = rd s a := by
  have hpoison (t : State) (n : Nat) : rd (poisonRange t g n) a = rd t a := rfl
  rw [eccLose, hpoison, chipErr_rd_core ha _ (by decide)]
  exact rd_inc16_other _ _ _ (memCeA_ne ha g).2

theorem eccApply_rd (g : Nat) (r : Ecc) : rd (eccApply s g r) a = rd s a := by
  unfold eccApply
  split
  · rfl
  · cases r with
    | clean => rfl
    | correctable => exact eccCorrect_rd ha s g
    | uncorrectable => exact eccLose_rd ha s g

theorem checkGranule_rd (g : Nat) : rd (checkGranule s g) a = rd s a := by
  unfold checkGranule
  grind [eccApply_rd]

theorem readPa_rd (x n : Nat) : rd (readPa s x n).1 a = rd s a := by
  obtain ⟨m, hm⟩ := memEvents_eq (checkRead s x n) x n false
  obtain ⟨k, hk⟩ := readSamples_eq { checkRead s x n with mon := m } x n
  have h : rd (checkRead s x n) a = rd s a := foldl_keeps (fun t => rd t a) _ _ _ (checkGranule_rd ha)
  simp only [readPa, hm, hk]
  split <;> exact h

theorem readEntry_rd (tl f pa : Nat) : rd (readEntry s tl f pa).1 a = rd s a := by
  unfold readEntry
  grind [readPa_rd]

theorem walk_rd (tl f va fuel tab level : Nat) : rd (walk s tl f va fuel tab level).1 a = rd s a := by
  induction fuel generalizing s tab level with
  | zero => rfl
  | succ n ih =>
    unfold walk
    grind [readEntry_rd, tlbAdd_rd]

theorem translate_rd (tl f : Nat) (x : Option Nat) (va n : Nat) (acc : Acc) : rd (translate s tl f x va n acc).1 a = rd s a := by
  unfold translate
  extract_lets lo hi held use r
  have hr : rd r.1 a = rd s a := by
    clear_value use
    grind [walk_rd, monEvent_rd]
  clear_value r use
  grind [tlbAdd_rd]

theorem xlat_rd (tl f : Nat) (x : Option Nat) (va n : Nat) (acc : Acc) : rd (xlat s tl f x va n acc).1 a = rd s a :=
  foldl_keeps (fun r : State × (List (Nat × Nat) ⊕ XF) => rd r.1 a) _ _ _ fun r p => by grind [translate_rd]

theorem readPieces_rd (l : List (Nat × Nat)) : rd (readPieces s l).1 a = rd s a :=
  foldl_keeps (fun r : State × Option (List Byte) => rd r.1 a) _ _ _ fun r p => by grind [readPa_rd]

theorem readVa_rd (tl f : Nat) (x : Option Nat) (va n : Nat) (acc : Acc) : rd (readVa s tl f x va n acc).1 a = rd s a := by
  unfold readVa
  grind [xlat_rd, readPieces_rd]

theorem fillNoun_rd (c x h : Nat) (hc : a ≠ coreA c 0x700) : rd (fillNoun s c x h).1 a = rd s a := by
  have hr := readVa_rd ha s c (s.ctx x).fn (some x) ((s.ctx x).nounTable + 128 * h) 128 .read
  unfold fillNoun
  dsimp only
  split
  · rename_i heq; rw [heq] at hr; exact hr
  · rename_i t b heq
    rw [heq] at hr
    have ht : rd (monEvent (inc32 t (coreA c 0x700) 1) 20 c 1) a = rd s a :=
      (monEvent_rd ..).trans (((rd_wr ..).trans (if_neg hc)).trans hr)
    generalize monEvent (inc32 t (coreA c 0x700) 1) 20 c 1 = u at ht
    split <;> exact ht

theorem resolveNoun_rd (c x h stamp : Nat) (hc : a ≠ coreA c 0x700) : rd (resolveNoun s c x h stamp).1 a = rd s a := by
  have hf := fillNoun_rd ha s c x h hc
  unfold resolveNoun
  split
  · split
    · rfl
    · exact hf
  · exact hf

theorem resolveAll_rd (c x stamp : Nat) (l : List Nat) (t : Tbl Noun) (hc : a ≠ coreA c 0x700) :
    rd (resolveAll s c x stamp l t).1 a = rd s a := by
  induction l generalizing s t with
  | nil => rfl
  | cons h r ih =>
    have hn := resolveNoun_rd ha s c x h stamp hc
    rw [resolveAll]
    split <;> rename_i heq <;> rw [heq] at hn
    · exact hn
    · exact (ih ..).trans hn

end

/-! ## Notes in the queues, the monitors and the trace -/

/-- `t` is `s` up to the host queue block, the monitors and the trace. -/
def Booked (s t : State) : Prop := t = { s with hq := t.hq, mon := t.mon, trc := t.trc }

section
variable {s t u : State}

theorem Booked.refl (s : State) : Booked s s := rfl

theorem Booked.trans (h : Booked s t) (h' : Booked t u) : Booked s u := by
  unfold Booked at *
  rw [h', h]

theorem booked_update (h m r) : Booked s { s with hq := h, mon := m, trc := r } := rfl

theorem Booked.foldl {α : Type} {f : State → α → State} (h : ∀ t x, Booked t (f t x)) (l : List α) (s : State) :
    Booked s (l.foldl f s) := by
  induction l generalizing s with
  | nil => exact .refl s
  | cons x l ih => exact (h s x).trans (ih _)

theorem booked_trcEng (s : State) (kind c : Nat) (e : Eng) (ctx : Nat) (r : CmdRef) (tag : W16) (o : Nat) :
    Booked s (trcEng s kind c e ctx r tag o) := by
  obtain ⟨m, x, h, heq⟩ := trcEng_eq s kind c e ctx r tag o
  rw [heq]
  exact booked_update h m x

theorem booked_noteIssue (s : State) (r : CmdRef) : Booked s (noteIssue s r) := by
  obtain ⟨m, h, heq⟩ := noteIssue_eq s r
  rw [heq]
  exact booked_update h m s.trc

theorem booked_cmdFault (s : State) (r : CmdRef) (cause : Nat) (e : Option (BitVec 7)) : Booked s (cmdFault s r cause e) := rfl

theorem booked_cmdEnd (s : State) (r : CmdRef) (c : Nat) : Booked s (cmdEnd s r c) := rfl

theorem booked_monSample (s : State) (level : Bool) (src inst v : Nat) : Booked s (monSample s level src inst v) := by
  obtain ⟨m, h⟩ := monSample_eq s level src inst v
  rw [h]
  exact booked_update s.hq m s.trc

end

/-! ## Windows close (R151) -/

theorem runs_gleanWindowClose {c : CoreId} {w : GlWin} {s : State}
    (h : (s.core c).glean.find? (fun w => w.due s.time) = some w) : Runs (.gleanWindowClose c) s (fun t =>
      t = { s.ticked with cores := t.cores } ∧ (t.core c).glQueue = (s.core c).glQueue ++ [w] ∧
      (t.core c).glean = (s.core c).glean.filter (fun v => v ≠ w)) := by
  have hex : exec (.gleanWindowClose c) s = done s (s.setCore c { s.core c with
      glean := (s.core c).glean.filter (fun v => v ≠ w), glQueue := (s.core c).glQueue ++ [w] }) := by
    show execGleanWindowClose c s = _
    simp only [execGleanWindowClose, h]
  exact runs_of_answering hex ⟨rfl, by simp, by simp⟩

/-! ## Passes start (R151, R152) -/

/-- The function that holds its slice was active before: an event changes nothing but what the scheduler notes of it. -/
theorem refresh_of_holder {s : State} {f : Nat} (h : (s.partS (tenant s f).part).holder = some f) :
    ∃ x, refresh s f = s.setFnS f x := by
  unfold refresh
  extract_lets now old p x s1
  have h1 : (s1.partS p).holder = some f := h
  rw [h1]
  refine ⟨_, (?_ : _ = s1)⟩
  split
  · dsimp only
    split
    · rename_i hp
      exact absurd rfl hp.2.1
    · rfl
  · rfl

theorem mayStart_holder {s : State} {f : Nat} (h : mayStart s f = true) : (s.partS (tenant s f).part).holder = some f := by
  simp only [mayStart, Bool.and_eq_true, beq_iff_eq] at h
  exact h.1.2

/-- A window that a pass may start with: its function holds the slice. -/
theorem nextPass_holder {s : State} {c : Nat} {w : GlWin} (h : nextPass s c = some w) (hr : w.reqs ≠ []) :
    (s.partS (tenant s w.fn).part).holder = some w.fn := by
  have hw := List.find?_some h
  simp only [Bool.or_eq_true, List.isEmpty_iff, hr, false_or, Bool.and_eq_true] at hw
  exact mayStart_holder hw.1

/-- What holds from the start of a pass of window `w` of `s` on: it and its requests are counted, the window has left the
queue, and its function holds its slice. -/
structure PassBegun (s t : State) (c : CoreId) (w : GlWin) : Prop where
  passes : rd t (coreA c 0x108) = rd s (coreA c 0x108) + 1
  requests : rd t (coreA c 0x10C) = rd s (coreA c 0x10C) + BitVec.ofNat 32 w.reqs.length
  queue : w ∉ (t.core c).glQueue
  holder : (t.partS (tenant t w.fn).part).holder = some w.fn

section
variable {s t u : State} {c : CoreId} {w : GlWin}

/-- A change that leaves the two counters, the queue of windows and the scheduler. -/
theorem PassBegun.of_eq (h : PassBegun s t c w) (hp : rd u (coreA c 0x108) = rd t (coreA c 0x108))
    (hr : rd u (coreA c 0x10C) = rd t (coreA c 0x10C)) (hq : (u.core c).glQueue = (t.core c).glQueue) (hs : u.sch = t.sch)
    (hb : u.boot = t.boot) : PassBegun s u c w := by
  refine ⟨hp.trans h.passes, hr.trans h.requests, hq ▸ h.queue, ?_⟩
  have hh := h.holder
  unfold State.partS tenant State.charter at hh ⊢
  rw [hs, hb]
  exact hh

theorem coreA_pass (c : CoreId) : CoreRegister (coreA c 0x108) ∧ coreA c 0x108 ≠ coreA c 0x700 ∧
    ∀ f, coreA c 0x108 ≠ mmuA f 6 := by
  have hc := c.isLt
  unfold CoreRegister coreA mmuA
  exact ⟨by omega, by omega, fun f => by omega⟩

theorem coreA_request (c : CoreId) : CoreRegister (coreA c 0x10C) ∧ coreA c 0x10C ≠ coreA c 0x700 ∧
    ∀ f, coreA c 0x10C ≠ mmuA f 6 := by
  have hc := c.isLt
  unfold CoreRegister coreA mmuA
  exact ⟨by omega, by omega, fun f => by omega⟩

theorem coreA_pass_ne_request (c : Nat) : coreA c 0x108 ≠ coreA c 0x10C := by unfold coreA; omega

/-- One counter moves on by one and another by `n`. -/
theorem inc32_inc32_spec (t : State) {a b : Nat} (hab : a ≠ b) (n : Nat) :
    ∃ g, inc32 (inc32 t a 1) b n = { t with regs := g } ∧
      rd { t with regs := g } a = rd t a + 1 ∧ rd { t with regs := g } b = rd t b + BitVec.ofNat 32 n := by
  obtain ⟨g, hg, hga⟩ := inc32_eq t a 1
  obtain ⟨k, hk, hkb⟩ := inc32_eq { t with regs := g } b n
  have hother : rd (inc32 { t with regs := g } b n) a = rd { t with regs := g } a := (rd_wr ..).trans (if_neg hab)
  have hprev : rd (inc32 t a 1) b = rd t b := (rd_wr ..).trans (if_neg hab.symm)
  rw [hk] at hother
  rw [hg] at hprev
  exact ⟨k, by rw [hg, hk], hother.trans hga, hkb.trans (by rw [hprev])⟩

theorem beginPass_begun (h : nextPass s c = some w) (hr : w.reqs ≠ []) : PassBegun s (beginPass s c w) c w := by
  have hfold : Booked (takePass s c w) _ :=
    Booked.foldl (fun t (r : GlReq) => (booked_noteIssue t r.cmd).trans
      (booked_trcEng (noteIssue t r.cmd) 1 c .mx w.ctx r.cmd (tagOf t r.cmd) 0)) w.reqs _
  rw [beginPass]
  generalize w.reqs.foldl _ (takePass s c w) = u at hfold ⊢
  obtain ⟨g, hg, hpass, hreq⟩ := inc32_inc32_spec u (coreA_pass_ne_request c) w.reqs.length
  rw [hg]
  obtain ⟨m, hm⟩ := monSample_eq { u with regs := g } false 14 c w.rows
  rw [hm]
  have hcore : u.core c = (takePass s c w).core c := by rw [hfold]; rfl
  have hold (a : Nat) : rd u a = rd s a := by rw [hfold]; rfl
  refine ⟨hpass.trans (by rw [hold]), hreq.trans (by rw [hold]), ?_, ?_⟩
  · show w ∉ (u.core c).glQueue
    rw [hcore]
    simp [takePass]
  · show (u.partS (tenant u w.fn).part).holder = some w.fn
    rw [hfold]
    exact (nextPass_holder h hr :)

theorem PassBegun.resolved (h : PassBegun s t c w) (x stamp : Nat) (l : List Nat) (n : Tbl Noun) :
    PassBegun s (resolveAll t c x stamp l n).1 c w := by
  obtain ⟨hp, hpn, -⟩ := coreA_pass c
  obtain ⟨hr, hrn, -⟩ := coreA_request c
  have hb := resolveAll_beside t c x stamp l n
  exact h.of_eq (resolveAll_rd hp _ _ _ _ _ _ hpn) (resolveAll_rd hr _ _ _ _ _ _ hrn)
    (congrArg Core.glQueue (beside_core hb c) :) (congrArg (fun p => p.1.sch) hb :) (congrArg (fun p => p.1.boot) hb :)

/-- The function holds its slice: its activity changes no core. -/
theorem PassBegun.refreshed (h : PassBegun s t c w) :
    PassBegun s (refresh t w.fn) c w ∧ (refresh t w.fn).core c = t.core c := by
  obtain ⟨x, hx⟩ := refresh_of_holder h.holder
  rw [hx]
  exact ⟨⟨h.passes, h.requests, h.queue, h.holder⟩, rfl⟩

end

/-! ## A fault in a pass (R155) -/

/-- Of the chip's own registers a fault counts in one of the function's MMU page at most. -/
theorem engineFault_rd_of_ne {s : State} {f a : Nat} {r : FltRec} (ha : a < 0x40000000) (hm : a ≠ mmuA f 6) :
    rd (engineFault s f r) a = rd s a := by
  by_cases hr : r.code = 0x02
  · unfold engineFault
    dsimp only
    rw [if_pos hr, fnNew_rd r ha, rd_inc16_other _ _ _ hm]
    exact rd_inc16_other _ _ _ (by unfold fnErrA fpA; omega)
  · exact engineFault_rd hr ha

/-- A fault in a pass is recorded, and its requests end with it, before the pass ends. -/
theorem gleanFail_eq (s : State) (c : Nat) (w : GlWin) (x : XF) : ∃ u g l,
    gleanFail s c w x = refresh (endPass u c w) w.fn ∧ Booked { s with regs := g, ras := l } u ∧
      ∀ a < 0x40000000, a ≠ mmuA w.fn 6 → rd u a = rd s a := by
  obtain ⟨g, l, h, hfault⟩ := engineFault_eq s w.fn (glRec c w x)
  have hrec : Booked { s with regs := g, ras := l } (engineFault s w.fn (glRec c w x)) := by
    rw [hfault]
    exact booked_update h s.mon s.trc
  have hfold : Booked (engineFault s w.fn (glRec c w x)) _ :=
    Booked.foldl (fun t (r : GlReq) =>
      ((booked_cmdFault t r.cmd x.code (some (engId c .mx))).trans (booked_trcEng _ 2 c .mx w.ctx r.cmd
        (tagOf (cmdFault t r.cmd x.code (some (engId c .mx))) r.cmd) x.code)).trans (booked_cmdEnd _ r.cmd c)) w.reqs _
  refine ⟨_, g, l, rfl, hrec.trans hfold, fun a ha hm => ?_⟩
  rw [hfold]
  exact engineFault_rd_of_ne ha hm

section
variable {s t : State} {c : CoreId} {w v : GlWin}

/-- A pass that began and failed is gone. -/
theorem PassBegun.fail (h : PassBegun s t c w) (hv : v.fn = w.fn) (x : XF) :
    PassBegun s (gleanFail t c v x) c w ∧ ((gleanFail t c v x).core c).glPass = none := by
  obtain ⟨u, g, l, hu, hb, hrd⟩ := gleanFail_eq t c v x
  obtain ⟨-, -, hpn⟩ := coreA_pass c
  obtain ⟨-, -, hrn⟩ := coreA_request c
  have hlt : coreA c 0x108 < 0x40000000 ∧ coreA c 0x10C < 0x40000000 := by
    have hc := c.isLt
    unfold coreA
    omega
  have hcore : u.core c = t.core c := by rw [hb]; rfl
  have hended : PassBegun s (endPass u c v) c w :=
    h.of_eq (hrd _ hlt.1 (hpn _)) (hrd _ hlt.2 (hrn _)) (by simp [endPass, hcore]) (by rw [endPass, hb]; rfl)
      (by rw [endPass, hb]; rfl)
  obtain ⟨hbegun, hsame⟩ := hended.refreshed
  rw [hu, hv]
  exact ⟨hbegun, by rw [hsame]; simp [endPass]⟩

/-- A pass takes the array. -/
theorem PassBegun.takesArray (h : PassBegun s t c w) (v : GlWin) :
    PassBegun s (refresh (t.setCore c { t.core c with glPass := some v }) w.fn) c w ∧
      ((refresh (t.setCore c { t.core c with glPass := some v }) w.fn).core c).glPass = some v := by
  have hset : PassBegun s (t.setCore c { t.core c with glPass := some v }) c w := h.of_eq rfl rfl (by simp) rfl rfl
  obtain ⟨hbegun, hsame⟩ := hset.refreshed
  exact ⟨hbegun, by rw [hsame]; simp⟩

end

/-- The pass of window `w` that `u` begins with the nouns `ns`, and the first of its ranges that fails. -/
def GlWin.starting (w : GlWin) (u : State) (c : Nat) (ns : Tbl Noun) : GlWin := { w.begin_ (u.core c).cycles with nouns := ns }

def GlWin.badRange (w : GlWin) (u : State) (c : Nat) (ns : Tbl Noun) : Option XF :=
  firstBad ((glSpans (w.starting u c ns)).map (fun p => lsCheck u c w.ctx p.1 p.2.1 p.2.2))

/-- GLEAN_PASS_START once the nouns are resolved. -/
def startPass (c : Nat) (w : GlWin) : State × (Tbl Noun ⊕ XF) → State
  | (u, .inr e) => gleanFail u c w e
  | (u, .inl ns) => match w.badRange u c ns with
    | some e => gleanFail u c (w.starting u c ns) e
    | none => refresh (u.setCore c { u.core c with glPass := some (w.starting u c ns) }) w.fn

section
variable {s : State} {c : CoreId} {w : GlWin}

theorem exec_gleanPassStart (h : nextPass s c = some w) (hr : w.reqs ≠ []) (hf : engFree s c .mx w.fn = true) :
    exec (.gleanPassStart c) s = done s (startPass c w
      (resolveAll (beginPass s c w) c w.ctx ((beginPass s c w).core c).nounStamp w.handles {})) := by
  show execGleanPassStart c s = _
  have hempty : w.reqs.isEmpty = false := List.isEmpty_eq_false_iff.2 hr
  simp only [execGleanPassStart, h, hempty, hf, Bool.not_true, Bool.false_eq_true, if_false]
  rcases resolveAll (beginPass s c w) c w.ctx ((beginPass s c w).core c).nounStamp w.handles {} with ⟨u, ns | e⟩
  · simp only [startPass, GlWin.badRange, GlWin.starting]
    generalize firstBad _ = o
    cases o <;> rfl
  · rfl

theorem runs_gleanPassStart (h : nextPass s c = some w) (hr : w.reqs ≠ []) (hf : engFree s c .mx w.fn = true) :
    Runs (.gleanPassStart c) s (fun t =>
      rd t (coreA c 0x108) = rd s (coreA c 0x108) + 1 ∧
      rd t (coreA c 0x10C) = rd s (coreA c 0x10C) + BitVec.ofNat 32 w.reqs.length ∧ w ∉ (t.core c).glQueue ∧
      let b := beginPass s c w
      (∀ (u : State) (ns : Tbl Noun), resolveAll b c w.ctx (b.core c).nounStamp w.handles {} = (u, .inl ns) →
        (w.badRange u c ns = none → (t.core c).glPass = some (w.starting u c ns)) ∧
        (∀ e, w.badRange u c ns = some e → (t.core c).glPass = none)) ∧
      (∀ (u : State) (e : XF), resolveAll b c w.ctx (b.core c).nounStamp w.handles {} = (u, .inr e) →
        (t.core c).glPass = none)) := by
  have hres := (beginPass_begun h hr).resolved w.ctx ((beginPass s c w).core c).nounStamp w.handles {}
  have hex := exec_gleanPassStart h hr hf
  dsimp only
  generalize resolveAll (beginPass s c w) c w.ctx ((beginPass s c w).core c).nounStamp w.handles {} = r at hres hex ⊢
  obtain ⟨u, ns | e⟩ := r
  · cases hb : w.badRange u c ns with
    | none =>
      simp only [startPass, hb] at hex
      obtain ⟨hbegun, hpass⟩ := hres.takesArray (w.starting u c ns)
      refine runs_of_answering hex ⟨hbegun.passes, hbegun.requests, hbegun.queue, ?_, by simp⟩
      rintro _ _ ⟨⟩
      exact ⟨fun _ => hpass, by simp [hb]⟩
    | some e =>
      simp only [startPass, hb] at hex
      obtain ⟨hbegun, hpass⟩ := hres.fail (v := w.starting u c ns) rfl e
      refine runs_of_answering hex ⟨hbegun.passes, hbegun.requests, hbegun.queue, ?_, by simp⟩
      rintro _ _ ⟨⟩
      exact ⟨by simp [hb], fun _ _ => hpass⟩
  · obtain ⟨hbegun, hpass⟩ := hres.fail rfl e
    exact runs_of_answering hex ⟨hbegun.passes, hbegun.requests, hbegun.queue, by simp, fun _ _ _ => hpass⟩

/-- A window that every request has left gives no pass. -/
theorem runs_gleanPassStart_of_left (h : nextPass s c = some w) (hr : w.reqs = []) : Runs (.gleanPassStart c) s (fun t =>
      t = { s.ticked with cores := t.cores } ∧ (t.core c).glQueue = (s.core c).glQueue.filter (fun v => v ≠ w) ∧
      (t.core c).glPass = (s.core c).glPass) := by
  have hex : exec (.gleanPassStart c) s = done s (takePass s c w) := by
    show execGleanPassStart c s = _
    simp [execGleanPassStart, h, hr]
  exact runs_of_answering hex ⟨rfl, by simp [takePass], by simp [takePass]⟩

end

/-! ## The run of a pass (R152, R154)

K tiles and drains reach memory, the banks of the pass, its command's notes and the counters: no signal, and not the context. -/

/-- What a step of a pass of `w` on `s` answers: the synchronisation fabric is that of `s`, the context is that of `w`. -/
def PassStep (s : State) (w : GlWin) (r : State × (GlWin ⊕ XF)) : Prop :=
  r.1.syn = s.syn ∧ ∀ v, r.2 = .inl v → v.ctx = w.ctx

section
variable (s : State)

theorem monEvent_syn (ev inst n : Nat) : (monEvent s ev inst n).syn = s.syn := beside_syn (monEvent_beside s ev inst n)

theorem noteSat_syn (c b : Nat) (r : CmdRef) : (noteSat s c b r).syn = s.syn := rfl

theorem inc16_wrF_syn (a b lo len v : Nat) : (inc16 (wrF s a lo len v) b).syn = s.syn := rfl

theorem readPart_syn (p : Sp) (n : Noun) (a lo k : Nat) : (readPart s p n a lo k).1.syn = s.syn :=
  foldl_keeps (fun r : State × (List (Nat × Nat) ⊕ XF) => r.1.syn) _ _ _ fun r i => by
    grind [readElem_beside, beside_syn]

theorem glLines_syn (p : Sp) (n : Noun) (l0 rows k : Nat) : (glLines s p n l0 rows k).1.syn = s.syn :=
  foldl_keeps (fun r : State × (List (List (Nat × Nat)) ⊕ XF) => r.1.syn) _ _ _ fun r m => by grind [readPart_syn]

theorem glDrain_syn (c : Nat) (w : GlWin) (r : GlReq) : (glDrain s c w r).syn = s.syn := by
  unfold glDrain
  split
  · rfl
  · refine foldl_keeps State.syn _ _ _ fun t k => ?_
    dsimp only
    split
    · rfl
    · exact foldl_keeps State.syn _ _ _ fun u i => beside_syn (drainRow_beside ..)

theorem glTile_passStep (c : Nat) (w : GlWin) : PassStep s w (glTile s c w) := by
  have hlines := glLines_syn s (.ls c w.ctx) (w.nouns.get {} w.wNoun) (512 * w.pair) 512 w.tile
  unfold glTile
  dsimp only
  split <;> rename_i heq <;> rw [heq] at hlines
  · exact ⟨hlines, by simp⟩
  rename_i t b
  generalize hz : w.reqs.foldl _ _ = z
  have hfold : PassStep s w z := by
    rw [← hz]
    refine List.foldlRecOn (motive := PassStep s w) w.reqs _ ?_ fun z h r _ => ?_
    · exact ⟨(foldl_keeps State.syn _ t _ fun u _ => monEvent_syn u 5 c 256).trans hlines, by simp⟩
    obtain ⟨u, v | e⟩ := z
    · dsimp only
      obtain ⟨hsyn, hctx⟩ := h
      split
      · exact ⟨(foldl_keeps State.syn _ u _ fun u _ => inc16_wrF_syn ..).trans hsyn, hctx⟩
      · have ha := (glLines_syn u (.ls c w.ctx) (v.nouns.get {} r.aNoun) 0 r.m v.tile).trans hsyn
        split <;> rename_i heq <;> rw [heq] at ha
        · exact ⟨ha, by simp⟩
        · exact ⟨(foldl_keeps State.syn _ _ _ fun u k => noteSat_syn u c k r.cmd).trans ha, by simpa using hctx⟩
    · exact h
  obtain ⟨u, v | e⟩ := z
  · exact ⟨hfold.1, by simpa using hfold.2⟩
  · exact hfold

theorem glStep_passStep (c : Nat) (w : GlWin) : PassStep s w (glStep s c w) := by
  unfold glStep
  split
  · exact ⟨rfl, by simp⟩
  split
  · exact ⟨rfl, by simp⟩
  split
  · exact glTile_passStep s c { w with bad := [] }
  · exact ⟨foldl_keeps State.syn _ _ _ fun t r => glDrain_syn t c w r, by simp⟩

theorem glRun_passStep (c n : Nat) (w : GlWin) : PassStep s w (glRun c n s w) := by
  induction n generalizing s w with
  | zero => exact ⟨rfl, by simp [glRun]⟩
  | succ n ih =>
    have h := glStep_passStep s c w
    rw [glRun]
    split <;> rename_i t z heq <;> rw [heq] at h
    · exact ⟨h.1, by simp⟩
    · obtain ⟨hsyn, hctx⟩ := ih t z
      exact ⟨hsyn.trans h.1, fun v hv => (hctx v hv).trans (h.2 z rfl)⟩

end

/-! ## Requests complete (R153, R155) -/

/-- The signal of a request that ends, unless the command is gone (R155). -/
def endSignal (t : State) (c x : Nat) (r : GlReq) (gone : Bool) : State :=
  if r.sig && !gone then sendSignal t { ctx := x, conj := r.conj, n := 1, src := sigSrc c .mx x 0 } else t

/-- A request of a pass has ended: it is traced and its command counts down. -/
def noteEnd (t : State) (c x : Nat) (r : GlReq) (gone : Bool) : State :=
  cmdEnd (trcEng t 2 c .mx x r.cmd (tagOf t r.cmd) (if gone then 0xFF else 0)) r.cmd c

/-- The pass goes on with the requests `rest`; with none left it ends. -/
def passOn (t : State) (c : Nat) (v : GlWin) (rest : List GlReq) : State :=
  if rest.isEmpty then endPass t c v else t.setCore c { t.core c with glPass := some { v with reqs := rest } }

/-- GLEAN_REQUEST_DONE of the first request `r` of the pass `v`, whose sums are complete. -/
def endRequest (u : State) (c : Nat) (v : GlWin) (r : GlReq) (rest : List GlReq) : State :=
  refresh (passOn (noteEnd (endSignal (glDrain u c v r) c v.ctx r (glGone u r)) c v.ctx r (glGone u r)) c v rest) v.fn

section
variable {c : CoreId} {w v : GlWin} {r : GlReq} {rest : List GlReq} {u s : State}

theorem endSignal_spec (t : State) (c x : Nat) (r : GlReq) (gone : Bool) :
    (endSignal t c x r gone).mem = t.mem ∧ (endSignal t c x r gone).syn.transit = t.syn.transit ++
      (if r.sig && !gone then [{ ctx := x, conj := r.conj, n := 1, short := false, src := sigSrc c .mx x 0 }] else []) := by
  unfold endSignal
  split
  · exact ⟨rfl, rfl⟩
  · exact ⟨rfl, (List.append_nil _).symm⟩

theorem booked_noteEnd (t : State) (c x : Nat) (r : GlReq) (gone : Bool) : Booked t (noteEnd t c x r gone) :=
  (booked_trcEng ..).trans (booked_cmdEnd ..)

theorem passOn_spec (t : State) (c : Nat) (v : GlWin) (rest : List GlReq) :
    (passOn t c v rest).mem = t.mem ∧ (passOn t c v rest).syn = t.syn ∧
      ((passOn t c v rest).core c).glPass.map (·.reqs) = (if rest.isEmpty then none else some rest) ∧
      (rest = [] → ((passOn t c v rest).core c).glCharge = v.charges) := by
  cases rest with
  | nil => exact ⟨rfl, rfl, by simp [passOn, endPass], by simp [passOn, endPass]⟩
  | cons r rest => exact ⟨rfl, rfl, by simp [passOn], by simp⟩

/-- A change of slices keeps the requests of a pass and what the last pass charged. -/
theorem refresh_requests (t : State) (f c : Nat) :
    ((refresh t f).core c).glPass.map (·.reqs) = (t.core c).glPass.map (·.reqs) ∧
      ((refresh t f).core c).glCharge = (t.core c).glCharge := by
  have h := refresh_sliced t f
  refine ⟨?_, (congrArg Core.glCharge (sliced_core h c) :)⟩
  have hpass := congrArg (Option.map GlWin.reqs) (sliced_glPass h c)
  rwa [Option.map_map, Option.map_map] at hpass

theorem exec_gleanRequestDone (hp : (s.core c).glPass = some w) (hw : w.stopped = false) (hc : s.clocked = true)
    (hr : w.reqs = r :: rest) (hrun : glRun c w.steps s w = (u, .inl v)) :
    exec (.gleanRequestDone c) s =
      done s (if v.bad = [] then endRequest u c v r rest else gleanFail u c v { code := 3 }) := by
  show execGleanRequestDone c s = _
  simp only [execGleanRequestDone, hp, hw, hc, hr, hrun, Bool.not_true, Bool.or_self, Bool.false_eq_true, if_false]
  by_cases hb : v.bad = []
  · rw [if_pos hb, List.isEmpty_iff.2 hb]
    rfl
  · rw [if_neg hb, List.isEmpty_eq_false_iff.2 hb]
    rfl

/-- What the end of a request leaves: its rows in memory, the other requests, the charges after the last, its signal. -/
theorem endRequest_spec (u : State) (c : Nat) (v : GlWin) (r : GlReq) (rest : List GlReq) :
    (endRequest u c v r rest).mem = (glDrain u c v r).mem ∧
      ((endRequest u c v r rest).core c).glPass.map (·.reqs) = (if rest.isEmpty then none else some rest) ∧
      (rest = [] → ((endRequest u c v r rest).core c).glCharge = v.charges) ∧
      (endRequest u c v r rest).syn.transit = u.syn.transit ++ (if r.sig && !glGone u r then
        [{ ctx := v.ctx, conj := r.conj, n := 1, short := false, src := sigSrc c .mx v.ctx 0 }] else []) := by
  unfold endRequest
  obtain ⟨hmem, htransit⟩ := endSignal_spec (glDrain u c v r) c v.ctx r (glGone u r)
  rw [glDrain_syn] at htransit
  generalize endSignal (glDrain u c v r) c v.ctx r (glGone u r) = t2 at hmem htransit ⊢
  have hnote := booked_noteEnd t2 c v.ctx r (glGone u r)
  generalize noteEnd t2 c v.ctx r (glGone u r) = t3 at hnote ⊢
  obtain ⟨hmem4, hsyn4, hreqs, hcharge⟩ := passOn_spec t3 c v rest
  generalize passOn t3 c v rest = t4 at hmem4 hsyn4 hreqs hcharge ⊢
  have hmem3 : t3.mem = t2.mem := by rw [hnote]
  have hsyn3 : t3.syn = t2.syn := by rw [hnote]
  have hkept := refresh_sliced t4 v.fn
  obtain ⟨hkeptReqs, hkeptCharge⟩ := refresh_requests t4 v.fn c
  refine ⟨(sliced_mem hkept).trans (hmem4.trans (hmem3.trans hmem)), hkeptReqs.trans hreqs,
    fun h => hkeptCharge.trans (hcharge h), ?_⟩
  rw [sliced_syn hkept, ← htransit, ← hsyn3, ← hsyn4]

/-- A fault in a pass leaves the memory as it is and ends the pass. -/
theorem gleanFail_spec (u : State) (c : Nat) (v : GlWin) (x : XF) :
    (gleanFail u c v x).mem = u.mem ∧ ((gleanFail u c v x).core c).glPass = none := by
  obtain ⟨t, g, l, ht, hbooked, -⟩ := gleanFail_eq u c v x
  have hkept := refresh_sliced (endPass t c v) v.fn
  have hended : ((endPass t c v).core c).glPass = none := by simp [endPass]
  have hpass := sliced_glPass hkept c
  have hmem : t.mem = u.mem := by rw [hbooked]
  rw [ht]
  refine ⟨(sliced_mem hkept).trans hmem, ?_⟩
  rwa [hended, Option.map_none, Option.map_eq_none_iff] at hpass

theorem runs_gleanRequestDone (hp : (s.core c).glPass = some w) (hw : w.stopped = false) (hc : s.clocked = true)
    (hr : w.reqs = r :: rest) (hrun : glRun c w.steps s w = (u, .inl v)) : Runs (.gleanRequestDone c) s (fun t =>
      (v.bad = [] → t.mem = (glDrain u c v r).mem ∧
        (t.core c).glPass.map (·.reqs) = (if rest.isEmpty then none else some rest) ∧
        (rest = [] → (t.core c).glCharge = v.charges) ∧
        t.syn.transit = s.syn.transit ++ (if r.sig && !glGone u r then
          [{ ctx := w.ctx, conj := r.conj, n := 1, short := false, src := sigSrc c .mx w.ctx 0 }] else [])) ∧
      (v.bad ≠ [] → t.mem = u.mem ∧ (t.core c).glPass = none)) := by
  refine runs_of_answering (exec_gleanRequestDone hp hw hc hr hrun) ⟨fun hb => ?_, fun hb => ?_⟩
  · have hrunKeeps := glRun_passStep s c w.steps w
    rw [hrun] at hrunKeeps
    obtain ⟨hsyn, hctx⟩ := hrunKeeps
    have hspec := endRequest_spec u c v r rest
    rw [hctx v rfl, hsyn] at hspec
    rw [if_pos hb]
    exact hspec
  · rw [if_neg hb]
    exact gleanFail_spec u c v { code := 3 }

end

/-- Settles O33: a window closes, a pass starts or is left, and a request ends by `runs_gleanWindowClose`,
`runs_gleanPassStart`, `runs_gleanPassStart_of_left` and `runs_gleanRequestDone`. -/
theorem gleaningRowsTakeEffect : Obligations.GleaningRowsTakeEffect := by
  unfold Obligations.GleaningRowsTakeEffect
  exact ⟨fun c w s h => runs_gleanWindowClose h, fun c w s h hr _ hf => runs_gleanPassStart h hr hf,
    fun c w s h hr => runs_gleanPassStart_of_left h hr,
    fun c w v r rest u s hp hw hc hr hrun => runs_gleanRequestDone hp hw hc hr hrun⟩

end Sys2Proof.Machine
